-- ==== Sys2Proof/Word.lean ====
section
/-! DEFINITION. The word types of the block, and the plainest arithmetic on them. -/

namespace Sys2Proof

/-- One byte. -/
abbrev Byte := BitVec 8

/-- A register, or any 64-bit value (00 R9, 00_scope: every register is 64 bits wide). -/
abbrev Word := BitVec 64

/-- A 40-bit flit count (06 R159). -/
abbrev Count := BitVec 40

/-- A port number, 0 to 11 (00 R16). -/
abbrev PortNo := Fin 12

/-- A physical lane number within a port, 0 to 8 (00 R17). -/
abbrev LaneNo := Fin 9

/-- A partition number, 0 to 15 (14 R378). -/
abbrev PartNo := Fin 16

/-- A context number, 0 to 1,023 (09 R245). -/
abbrev CtxNo := Fin 1024

/-- A queue number, 0 to 4,095 (09 R250). -/
abbrev QueueNo := Fin 4096

/-- A sparse table: (key, value) pairs, keys strictly rising, no entry equal to the table's
default value.  Registers of an array, memory bytes and engine tables are all held so. -/
abbrev Tab (α : Type) := List (Nat × α)

end Sys2Proof
end

