-- ==== Sys2Proof/Syntax.lean ====
section
/-! DEFINITION. The commands of the block: one constructor of `Instr` per row of
spec/opcode_table.json, with the operands that the step needs from outside the block. -/

namespace Sys2Proof

/-- A write at the command port (02, signals CMD_REQ_*): requester, byte enables, data (R458). -/
structure RegAcc where
  /-- CMD_REQ_PAR: 0x00 to 0x0F a partition, 0x1F privileged driver software (R43). -/
  par   : BitVec 5
  /-- CMD_REQ_WDATA. -/
  value : Word
  /-- CMD_REQ_BE. -/
  be    : BitVec 8
  deriving DecidableEq, Repr, Inhabited

/-- A message header with its data (08 R206, R207).  A short header leaves the full header's
own fields zero.  Collective headers (11 R324) use the same bytes under their own names. -/
structure Msg where
  /-- byte 0, OPCODE -/
  opcode : Byte
  /-- byte 1, FLAGS -/
  flags  : Byte
  /-- byte 2 of a short header, AUX -/
  aux    : Byte := 0
  /-- bytes 2 to 3 of a full header, PKEY -/
  pkey   : BitVec 16 := 0
  /-- data slots, byte 27 of a full header, byte 3 of a short one -/
  dslots : Byte := 0
  /-- bytes 4 to 7, SOURCE -/
  source : BitVec 32
  /-- bytes 8 to 11, TARGET -/
  target : BitVec 32
  /-- bytes 12 to 15, TAG -/
  tag    : BitVec 32
  /-- bytes 16 to 23, ADDR (WATERMARK of a COLL_OPEN) -/
  addr   : Word := 0
  /-- bytes 24 to 25, LENGTH -/
  length : BitVec 16 := 0
  /-- byte 26, ATTR (RUN of a COLL_OPEN) -/
  attr   : Byte := 0
  /-- bytes 28 to 31, reserved (RING and ROUND of a COLL_OPEN) -/
  tail   : BitVec 32 := 0
  /-- the data slots' bytes -/
  data   : List Byte := []
  deriving DecidableEq, Repr, Inhabited

/-- Where a message comes from: a port and the VC buffer it was received in, or the block
itself (07 R190, a request to the block's own endpoint uses no port). -/
inductive Arrival where
  | port (n : PortNo) (vcb : Fin 8)
  | self
  deriving DecidableEq, Repr, Inhabited

/-- A load/store aperture request (02, signals LSA_n_REQ_*; 08 R240 to R242). -/
structure LsaReq where
  ch    : Fin 4
  ctx   : CtxNo
  addr  : BitVec 48
  size  : BitVec 3
  tag   : Byte
  wdata : BitVec 512 := 0
  be    : BitVec 64 := 0
  /-- LSA_n_REQ_OP: the operation's own code, or one of 0x7 to 0xF, which the block answers with MALFORMED (08 R240) -/
  op    : BitVec 4 := 0
  deriving DecidableEq, Repr, Inhabited

/-- A command in a CTX_CMD write (09, CTX_CMD register; R252). -/
structure CtxCmd where
  /-- requester, CMD_REQ_PAR -/
  par    : BitVec 5
  /-- the slot written, 0 to 16 -/
  slot   : Fin 17
  /-- OBJECT, bits [23:8] -/
  object : BitVec 16
  /-- bits [31:24], reserved -/
  rsv    : Byte := 0
  /-- ARG, bits [63:32] -/
  arg    : BitVec 32 := 0
  deriving DecidableEq, Repr, Inhabited

/-- A message from the root of trust (16 R431, 02 R48). -/
structure RotMsg where
  tag       : BitVec 16
  status    : Byte := 0
  /-- bits [63:32] of beat 0, reserved -/
  body      : List Byte := []
  /-- beats of the message as received, 1 to 64 for a well-framed one -/
  beats     : Nat := 1
  /-- a beat with SOP = 1 arrived inside the message -/
  sopInside : Bool := false
  deriving DecidableEq, Repr, Inhabited

/-- What the circuits outside the model observed when a start-up phase ends (04 R107). -/
structure PhaseObs where
  /-- µs the phase ran -/
  runUs         : BitVec 32 := 0
  /-- phase 0: the NVM device answers phase 1 with usable SFDP tables (02 R51) -/
  nvmUsable     : Bool := true
  /-- phase 2: physical banks failing a compare of R372 -/
  banksFailed   : BitVec 50 := 0
  /-- phase 2: duration of the march test, µs -/
  marchUs       : BitVec 16 := 0
  /-- phase 2: Beaters that pass their self-test (12 R356) -/
  beatersPassed : BitVec 8 := 0xFF
  /-- phase 2: duration of the self-test, µs -/
  selfTestUs    : BitVec 16 := 0
  deriving DecidableEq, Repr, Inhabited

/-- A rail's answers to the voltage and current read commands (02 R56): mV, and units of 10 mA (log entry 110). -/
structure RailRead where
  millivolts : BitVec 16 := 0
  current    : BitVec 16 := 0
  deriving DecidableEq, Repr, Inhabited

/-- What a training step found (05 R127, R128). -/
structure TrainObs where
  /-- step 1: lanes on which termination was found -/
  lanes    : BitVec 9 := 0
  /-- step 2: lanes whose P and N wires the receiver found swapped -/
  swapped  : BitVec 9 := 0
  /-- step 4: bit errors of each physical lane -/
  bitErrors : List Nat := []
  /-- the step reached its limit without finishing -/
  timedOut : Bool := false
  deriving DecidableEq, Repr, Inhabited

/-- Bits of one stored Vat word found flipped as it is read (02 R30, 13 R370). -/
structure VatErr where
  /-- the physical bank, 0 to 49 -/
  bank  : Nat
  word  : Fin 4
  /-- which of the 137 stored bits are flipped -/
  flips : List Nat := []
  deriving DecidableEq, Repr, Inhabited

/-- A check of 12 R349 to R353 that a circuit may fail; the codes of CHECK in BTR_LAST_FAIL. -/
inductive CheckKind where
  | arriveWm | sendWm | special | magnitude | sign | zero | residue | mxScale | copyWm
  deriving DecidableEq, Repr, Inhabited

/-- What faults did to the piece that a Beater finishes (12 R337, R349 to R355); none, by default. -/
structure BeatObs where
  /-- the bytes that the Beater gave, where a fault made them other than 12 R342 to R348 say -/
  output    : Option (List Byte) := none
  /-- the receiver's computation of the arriving watermark came out wrong (R353) -/
  arriveWm  : Bool := false
  /-- the two circuits that compute the watermark of an output for an OUT slot disagree (R352) -/
  sendWm    : Bool := false
  /-- an operand read met an uncorrectable Vat word (R355) -/
  dataError : Bool := false
  deriving DecidableEq, Repr, Inhabited

/-- How the two circuits that compute a sending watermark agree (12 R352, R354). -/
inductive WmObs where
  | agree
  /-- they disagree, and the repeat agrees -/
  | transient
  /-- they disagree twice -/
  | lasting
  deriving DecidableEq, Repr, Inhabited

/-- The sub-ring whose next piece is sent, and how its sending watermark comes out where none came with the piece (12 R352). -/
structure SendObs where
  ring : Fin 4
  wm   : WmObs := .agree
  deriving DecidableEq, Repr, Inhabited

/-- One constructor per row of spec/opcode_table.json, in the table's order. -/
inductive Instr where
  | coldResetAssert
  | coldStart (sbAddr : BitVec 2) (lowUs : Nat)
  | rootPllLock
  | rootPllUnlock
  | railOutOfTolerance
  | lanePllUnlock (port : PortNo)
  | phaseEnd (obs : PhaseObs)
  | registerWrite (offset : BitVec 24) (a : RegAcc)
  | memReadData (ch : Fin 16) (tag : Fin 512) (data : List Byte) (err : BitVec 2)
  | memWriteResponse (ch : Fin 16) (tag : Fin 512) (err : BitVec 2)
  | load (r : LsaReq)
  | loadRelaxed (r : LsaReq)
  | store (r : LsaReq)
  | storeRelaxed (r : LsaReq)
  | apertureAtomic (r : LsaReq)
  | atomicRelaxed (r : LsaReq)
  | apertureFence (r : LsaReq)
  | interruptMessageTransfer
  | interruptTimeLimit (p v : PartNo)
  | translationReply (data : BitVec 256)
  | translationTimeout (tag : Byte)
  | tagSetAsideExpiry (tag : Byte)
  | faultRecordWritten (p : PartNo) (err : BitVec 2)
  | result (m : RotMsg)
  | rotRequestTimeout (tag : BitVec 16)
  | setPolicy (m : RotMsg)
  | telemetrySample (core lane09 lane12 : Option RailRead)
  | policy (a : RegAcc)
  | electricalIdleEntry (port : PortNo)
  | electricalIdleExit (port : PortNo)
  | idleExitTimeout (port : PortNo)
  | setPower (pec : Bool) (target : Byte)
  | p2DrainComplete
  | p2DrainTimeout
  | powerTransitionComplete
  | setCeiling (pec : Bool) (ceil : BitVec 16) (shed : Byte)
  | hostCeil (a : RegAcc)
  | throttleTick
  | throttleInterval (port : PortNo) (begins : Bool)
  | detectPulse (port : PortNo)
  | partnerSignalDetect (port : PortNo) (lanes : BitVec 9)
  | trainingRetryTimer (port : PortNo)
  | trainingStepComplete (port : PortNo) (obs : TrainObs)
  | laneBlock (port : PortNo) (lane : LaneNo) (header : BitVec 2) (payload : BitVec 128)
  | marker (port : PortNo) (lane : LaneNo) (payload : BitVec 128)
  | train (port : PortNo) (lane : LaneNo) (payload : BitVec 128)
  | burst (port : PortNo) (lane : LaneNo)
  | idleEntry (port : PortNo) (lane : LaneNo)
  | calender (port : PortNo) (logical : Fin 8) (spare : LaneNo) (epoch : Byte)
  | loopReq (port : PortNo) (close : Bool) (lanes : BitVec 9)
  | laneErrorWindow (port : PortNo) (corrected : List Nat)
  | laneTemperatureRead (port : PortNo) (temp : BitVec 10)
  | calenderStep (port : PortNo) (differing : Nat)
  | calenderRetryTimer (port : PortNo)
  | calenderAnswerTimeout (port : PortNo)
  | calenderDeferExpiry (port : PortNo)
  | portRetrain (port : PortNo) (a : RegAcc)
  | passNow (port : PortNo) (a : RegAcc)
  | portLoopCtrl (port : PortNo) (a : RegAcc)
  | flitReceived (port : PortNo) (bytes : List Byte) (badCodeword : Bool)
  | flitTransmit (port : PortNo)
  | ackOwedTimeout (port : PortNo)
  | linkInit (port : PortNo) (protocol : BitVec 16) (version : BitVec 16) (endpoint : BitVec 32)
      (peerPort width : Byte) (broke rxbuf : BitVec 16)
  | rttProbe (port : PortNo) (tag : Word)
  | rttEcho (port : PortNo) (tag : Word) (turn : BitVec 32) (measured : BitVec 16)
  | nak (port : PortNo) (expected : Count) (reason : Byte)
  | replayStart (port : PortNo) (first : Count) (cause : Byte)
  | cnak (port : PortNo) (cexpected : BitVec 16)
  | replayTimeout (port : PortNo)
  | replayStartWaitTimeout (port : PortNo)
  | controlReplayTimeout (port : PortNo)
  | pauseLimitExpiry (port : PortNo) (vcb : Fin 8)
  | handover (port : PortNo) (deadPort : Byte) (expected nextTx : Count)
  | handoverDone (port : PortNo) (deadPort : Byte) (flits : BitVec 16)
  | handoverTimeout (port : PortNo)
  | twinHoldRelease (port : PortNo)
  | handbackMark (port : PortNo) (restored : Byte)
  | park (port : PortNo) (parking : Byte)
  | retrainReq (port : PortNo) (fullCal : Byte)
  | fenceNotice (port : PortNo) (cause : Byte)
  | stuckNotice (port : PortNo) (vcb : Byte)
  | misbehaviourWindow (port : PortNo)
  | admitId (port : PortNo) (machineId : BitVec 128) (endpoint : BitVec 32) (peerPort : Byte)
  | admitNonce (port : PortNo) (nonce : BitVec 192)
  | admitMac (port : PortNo) (part : Bool) (half : BitVec 192)
  | admitResult (port : PortNo) (res cause : Byte)
  | admissionTimeout (port : PortNo)
  | admissionRestartTimer (port : PortNo)
  | rankDigest (port : PortNo) (part : Bool) (half : BitVec 192)
  | routeBreak (port : PortNo) (dim link state : Byte) (origin : BitVec 32) (seq : BitVec 16)
  | routeRestoreHoldExpiry (dir : Fin 6)
  | transitForward (port : PortNo) (vcb : Fin 8) (m : Msg)
  | rteRank (w : Fin 65536) (a : RegAcc)
  | rteRankCommit (a : RegAcc)
  | digestComputed
  | read (arr : Arrival) (m : Msg)
  | write (arr : Arrival) (m : Msg)
  | cont (arr : Arrival) (m : Msg)
  | fillMessage (arr : Arrival) (m : Msg)
  | atomic (arr : Arrival) (m : Msg)
  | ack (arr : Arrival) (m : Msg)
  | readData (arr : Arrival) (m : Msg)
  | atomicResult (arr : Arrival) (m : Msg)
  | release (arr : Arrival) (m : Msg)
  | managementMessage (arr : Arrival) (m : Msg)
  | openRunGapExpiry (source tag : BitVec 32)
  | responseTimeout (tracker : Fin 131072)
  | replayEntryExpiry (source tag : BitVec 32)
  | doorbell (q : QueueNo) (a : RegAcc)
  | ctxOpen (c : CtxCmd)
  | ctxClose (c : CtxCmd)
  | qBind (c : CtxCmd)
  | qUnbind (c : CtxCmd)
  | qEnable (c : CtxCmd)
  | qHalt (c : CtxCmd)
  | qResume (c : CtxCmd)
  | descriptorStart (q : QueueNo)
  | copy (run : Nat)
  | fill (run : Nat)
  | digest (run : Nat)
  | sealedCopy (run : Nat)
  | prefetch (run : Nat)
  | advise (run : Nat)
  | wait (run : Nat)
  | signal (run : Nat)
  | trigger (run : Nat)
  | triggeredOperationRun (id : Nat)
  | collective (run : Nat)
  | nop (run : Nat)
  | doneWritten (run : Nat)
  | waitLimitExpiry (run : Nat)
  | periodEnd (q : QueueNo)
  | teardownResolved (ctx : CtxNo)
  | quarantineExpiry (ctx : CtxNo)
  | cntValue (k : Fin 65536) (a : RegAcc)
  | cntAdd (k : Fin 65536) (a : RegAcc)
  | invalidate (slot : Fin 17) (a : RegAcc)
  | invalidateComplete (slot : Fin 17)
  | xltFqCfg (p : PartNo) (a : RegAcc)
  | xltFqPtrs (p : PartNo) (a : RegAcc)
  | xltSticky (w : Fin 16) (a : RegAcc)
  | enable (w : Fin 4096) (a : RegAcc)
  | withdraw (w : Fin 4096) (a : RegAcc)
  | windowWithdrawalComplete (w : Fin 4096)
  | ringStepStart (plan : Fin 16) (level : Fin 3) (ring : Fin 4)
  | pieceSend (plan : Fin 16) (level : Fin 3) (x : SendObs)
  | collOpen (arr : Arrival) (m : Msg)
  | collCont (arr : Arrival) (m : Msg)
  | collCredit (arr : Arrival) (m : Msg)
  | collAbort (arr : Arrival) (m : Msg)
  | creditRepeatTimer (plan : Fin 16) (level : Fin 3) (ring : Fin 4)
  | beaterPieceDone (beater : Fin 8) (obs : BeatObs)
  | recomputeDone (beater : Fin 8) (obs : BeatObs)
  | stepLimitExpiry (plan : Fin 16)
  | faultStallExpiry (plan : Fin 16)
  | scrubRow (errs : List VatErr)
  | vatMarch (a : RegAcc)
  | marchComplete (failed : BitVec 50) (us : BitVec 16)
  | vatWinAddr (a : RegAcc)
  | vatWinData (isWrite : Bool) (a : RegAcc)
  | btrSelftest (a : RegAcc)
  | selfTestComplete (passed : BitVec 8) (us : BitVec 16)
  | reset (p : PartNo) (a : RegAcc)
  | partitionResetDrained (p : PartNo)
  | engineReset (a : RegAcc)
  | engineResetMemoryDrained
  | irqVecCtrl (p v : PartNo) (a : RegAcc)
  | hangScan
  | heartbeat
  | watchdogFire
  | stewardRestartComplete
  | errCtrlDrain (a : RegAcc)
  | captureNow (a : RegAcc)
  | arm (a : RegAcc)
  | drainComplete
  | identify (pec : Bool)
  | getEpoch (pec : Bool)
  | readReg (pec : Bool) (offset : BitVec 32) (count : Byte)
  | writeReg (pec : Bool) (offset : BitVec 32) (value : Word) (mask : BitVec 8)
  | telemetry (pec : Bool)
  | portStatus (pec : Bool) (port : Byte)
  | retrain (pec : Bool) (port fullCal : Byte)
  | resetPartition (pec : Bool) (p : Byte)
  | resetEngineDomain (pec : Bool)
  | resetSteward (pec : Bool)
  | resetCapture (pec : Bool)
  | drain (pec : Bool)
  | rankWrite (pec : Bool) (first : BitVec 32) (entries : List (BitVec 32))
  | rankCommit (pec : Bool)
  | reports (pec : Bool) (ackSeq : BitVec 32)
  | directedHold (pec : Bool)
  | directedStep (pec : Bool)
  | directedResume (pec : Bool)
  | directedLeave (pec : Bool)
  | testDestructiveMarch (pec : Bool)
  | testPreservingMarch (pec : Bool)
  | testBeaterSelfTest (pec : Bool)
  | testPortEnter (pec : Bool) (port : Byte)
  | testPortExit (pec : Bool) (port : Byte)
  | testLoop (pec : Bool) (port : Byte) (bits : BitVec 16)
  | nvmRead (pec : Bool) (offset : BitVec 32) (len : Byte)
  | nvmErase (pec : Bool) (offset : BitVec 32) (size : Byte)
  | nvmWrite (pec : Bool) (offset : BitVec 32) (data : List Byte)
  | nvmCheck (pec : Bool) (slot : Byte)
  | opState (pec : Bool)
  | longCommandComplete
  | alertResponse
  | busReset
  | stwMboxCmd (a : RegAcc)
  | fenceDescriptor (run : Nat)
  deriving DecidableEq, Repr, Inhabited

end Sys2Proof
end

