-- ==== Sys2Proof/WellFormed.lean ====
section
/-! DEFINITION. Well-formed commands: those that the wires, the tables and the senders of the spec can give.  A meaning does
not rest on it. -/

namespace Sys2Proof

/-- A message header as long as its opcode's header, with its data slots' bytes (08 R206, R207). -/
def msgWf (m : Msg) : Bool := decide (m.dslots.toNat ≤ 14) && m.data.length == 16 * m.dslots.toNat && m.opcode != 0

/-- OP is the operation's own code, or one that no operation has (08 R240). -/
def lsaOpWf (code : BitVec 4) (r : LsaReq) : Bool := r.op == code || decide (7 ≤ r.op.toNat)

/-- SIZE is the log2 of 1 to 64 bytes (02, LSA_n_REQ_SIZE). -/
def lsaWf (code : BitVec 4) (r : LsaReq) : Bool := decide (r.size.toNat ≤ 6) && lsaOpWf code r

/-- A root-of-trust message of at least one beat, a body of 24 bytes in the first and 32 in each other (02 R48). -/
def rotWf (m : RotMsg) : Bool := decide (1 ≤ m.beats) && decide (m.body.length ≤ 32 * m.beats)

/-- The write sets an order bit. -/
def orders (a : RegAcc) (bit : Nat) : Bool := a.value.getLsbD bit && a.be.getLsbD (bit / 8)

/-- Registers whose writes are commands of their own, by offset (17 R458). -/
def hasOwnRow (o : Nat) : Bool :=
  [0x010008, 0x010018, 0x200040, 0x901030, 0xA00028, 0xA00300, 0xA00308, 0xB00000, 0xC00030, 0xD00200].contains o ||
    (decide (0x100000 ≤ o) && decide (o < 0x1C0000) && (o % 0x10000 == 0x270 || o % 0x10000 == 0x2C0)) ||
    (decide (0x280000 ≤ o) && decide (o < 0x300000)) ||
    (decide (0x400000 ≤ o) && decide (o < 0x440000) && o % 0x40 == 0) ||
    (decide (0x500000 ≤ o) && decide (o < 0x500110) && o % 0x10 == 0) ||
    (decide (0x600000 ≤ o) && decide (o < 0x700000)) ||
    (decide (0x800100 ≤ o) && decide (o < 0x800320) && o % 0x20 == 0x10) ||
    (decide (0x801000 ≤ o) && decide (o < 0x801200) && (o % 0x20 == 0x08 || o % 0x20 == 0x10)) ||
    (decide (0x802000 ≤ o) && decide (o < 0x802080)) ||
    (decide (0x880000 ≤ o) && decide (o < 0x8C0000) && o % 0x40 == 0x20) ||
    (decide (0xB10000 ≤ o) && decide (o < 0xB12000) && o % 0x20 == 0x08)

/-- A well-formed command. -/
def wellFormed (i : Instr) : Bool :=
  match i with
  | .coldResetAssert => true
  | .coldStart _ _ => true
  | .rootPllLock => true
  | .rootPllUnlock => true
  | .railOutOfTolerance => true
  | .lanePllUnlock _ => true
  | .phaseEnd _ => true
  | .registerWrite offset _ => !hasOwnRow offset.toNat
  | .memReadData _ _ data _ => data.length == 128
  | .memWriteResponse _ _ _ => true
  | .load r => lsaWf 0 r
  | .loadRelaxed r => lsaWf 1 r
  | .store r => lsaWf 2 r
  | .storeRelaxed r => lsaWf 3 r
  | .apertureAtomic r => lsaWf 4 r
  | .atomicRelaxed r => lsaWf 5 r
  | .apertureFence r => lsaOpWf 6 r
  | .interruptMessageTransfer => true
  | .interruptTimeLimit _ _ => true
  | .translationReply _ => true
  | .translationTimeout _ => true
  | .tagSetAsideExpiry _ => true
  | .faultRecordWritten _ _ => true
  | .result m => rotWf m
  | .rotRequestTimeout _ => true
  | .setPolicy m => rotWf m
  | .telemetrySample _ _ _ => true
  | .policy _ => true
  | .electricalIdleEntry _ => true
  | .electricalIdleExit _ => true
  | .idleExitTimeout _ => true
  | .setPower _ _ => true
  | .p2DrainComplete => true
  | .p2DrainTimeout => true
  | .powerTransitionComplete => true
  | .setCeiling _ _ _ => true
  | .hostCeil _ => true
  | .throttleTick => true
  | .throttleInterval _ _ => true
  | .detectPulse _ => true
  | .partnerSignalDetect _ _ => true
  | .trainingRetryTimer _ => true
  | .trainingStepComplete _ _ => true
  | .laneBlock _ _ _ _ => true
  | .marker _ _ _ => true
  | .train _ _ _ => true
  | .burst _ _ => true
  | .idleEntry _ _ => true
  | .calender _ _ _ _ => true
  | .loopReq _ _ _ => true
  | .laneErrorWindow _ corrected => corrected.length == 9
  | .laneTemperatureRead _ _ => true
  | .calenderStep _ _ => true
  | .calenderRetryTimer _ => true
  | .calenderAnswerTimeout _ => true
  | .calenderDeferExpiry _ => true
  | .portRetrain _ a => orders a 0
  | .passNow _ a => orders a 2
  | .portLoopCtrl _ _ => true
  | .flitReceived _ bytes _ => bytes.length == 256
  | .flitTransmit _ => true
  | .ackOwedTimeout _ => true
  | .linkInit _ _ _ _ _ _ _ _ => true
  | .rttProbe _ _ => true
  | .rttEcho _ _ _ _ => true
  | .nak _ _ _ => true
  | .replayStart _ _ _ => true
  | .cnak _ _ => true
  | .replayTimeout _ => true
  | .replayStartWaitTimeout _ => true
  | .controlReplayTimeout _ => true
  | .pauseLimitExpiry _ _ => true
  | .handover _ _ _ _ => true
  | .handoverDone _ _ _ => true
  | .handoverTimeout _ => true
  | .twinHoldRelease _ => true
  | .handbackMark _ _ => true
  | .park _ _ => true
  | .retrainReq _ _ => true
  | .fenceNotice _ _ => true
  | .stuckNotice _ _ => true
  | .misbehaviourWindow _ => true
  | .admitId _ _ _ _ => true
  | .admitNonce _ _ => true
  | .admitMac _ _ _ => true
  | .admitResult _ _ _ => true
  | .admissionTimeout _ => true
  | .admissionRestartTimer _ => true
  | .rankDigest _ _ _ => true
  | .routeBreak _ _ _ _ _ _ => true
  | .routeRestoreHoldExpiry _ => true
  | .transitForward _ _ m => msgWf m
  | .rteRank _ _ => true
  | .rteRankCommit a => orders a 0
  | .digestComputed => true
  | .read _ m => msgWf m
  | .write _ m => msgWf m
  | .cont _ m => msgWf m
  | .fillMessage _ m => msgWf m
  | .atomic _ m => msgWf m
  | .ack _ m => msgWf m
  | .readData _ m => msgWf m
  | .atomicResult _ m => msgWf m
  | .release _ m => msgWf m
  | .managementMessage _ m => msgWf m
  | .openRunGapExpiry _ _ => true
  | .responseTimeout _ => true
  | .replayEntryExpiry _ _ => true
  | .doorbell _ _ => true
  | .ctxOpen _ => true
  | .ctxClose _ => true
  | .qBind _ => true
  | .qUnbind _ => true
  | .qEnable _ => true
  | .qHalt _ => true
  | .qResume _ => true
  | .descriptorStart _ => true
  | .copy _ => true
  | .fill _ => true
  | .digest _ => true
  | .sealedCopy _ => true
  | .prefetch _ => true
  | .advise _ => true
  | .wait _ => true
  | .signal _ => true
  | .trigger _ => true
  | .triggeredOperationRun _ => true
  | .collective _ => true
  | .nop _ => true
  | .doneWritten _ => true
  | .waitLimitExpiry _ => true
  | .periodEnd _ => true
  | .teardownResolved _ => true
  | .quarantineExpiry _ => true
  | .cntValue _ _ => true
  | .cntAdd _ _ => true
  | .invalidate _ _ => true
  | .invalidateComplete _ => true
  | .xltFqCfg _ _ => true
  | .xltFqPtrs _ _ => true
  | .xltSticky _ _ => true
  | .enable _ a => orders a 2
  | .withdraw _ a => orders a 3
  | .windowWithdrawalComplete _ => true
  | .ringStepStart _ _ _ => true
  | .pieceSend _ _ _ => true
  | .collOpen _ m => msgWf m
  | .collCont _ m => msgWf m
  | .collCredit _ m => msgWf m
  | .collAbort _ m => msgWf m
  | .creditRepeatTimer _ _ _ => true
  | .beaterPieceDone _ _ => true
  | .recomputeDone _ _ => true
  | .stepLimitExpiry _ => true
  | .faultStallExpiry _ => true
  | .scrubRow errs => errs.all (fun e => decide (e.bank < 50) && e.flips.all (fun k => decide (k < 137)))
  | .vatMarch a => orders a 0
  | .marchComplete _ _ => true
  | .vatWinAddr _ => true
  | .vatWinData _ _ => true
  | .btrSelftest a => orders a 0
  | .selfTestComplete _ _ => true
  | .reset _ a => orders a 2
  | .partitionResetDrained _ => true
  | .engineReset a => orders a 0
  | .engineResetMemoryDrained => true
  | .irqVecCtrl _ _ _ => true
  | .hangScan => true
  | .heartbeat => true
  | .watchdogFire => true
  | .stewardRestartComplete => true
  | .errCtrlDrain a => orders a 1
  | .captureNow a => orders a 2
  | .arm a => orders a 32
  | .drainComplete => true
  | .identify _ => true
  | .getEpoch _ => true
  | .readReg _ _ _ => true
  | .writeReg _ _ _ _ => true
  | .telemetry _ => true
  | .portStatus _ _ => true
  | .retrain _ _ _ => true
  | .resetPartition _ _ => true
  | .resetEngineDomain _ => true
  | .resetSteward _ => true
  | .resetCapture _ => true
  | .drain _ => true
  | .rankWrite _ _ entries => decide (entries.length ≤ 62)
  | .rankCommit _ => true
  | .reports _ _ => true
  | .directedHold _ => true
  | .directedStep _ => true
  | .directedResume _ => true
  | .directedLeave _ => true
  | .testDestructiveMarch _ => true
  | .testPreservingMarch _ => true
  | .testBeaterSelfTest _ => true
  | .testPortEnter _ _ => true
  | .testPortExit _ _ => true
  | .testLoop _ _ _ => true
  | .nvmRead _ _ _ => true
  | .nvmErase _ _ _ => true
  | .nvmWrite _ _ data => decide (data.length ≤ 251)
  | .nvmCheck _ _ => true
  | .opState _ => true
  | .longCommandComplete => true
  | .alertResponse => true
  | .busReset => true
  | .stwMboxCmd _ => true
  | .fenceDescriptor _ => true

end Sys2Proof
end

