-- ==== Sys2Proof/Machine/State.lean ====
section
/-! DEFINITION. The state of the block, as plain data.  Every field's docstring names what it
holds, the section file and rule that give it, and its value after cold reset.  Where it names
an assumption log entry, the value is the model's own. -/

namespace Sys2Proof.Machine

/-- The reasons the machine stops with a fault: none. Every command has an effect by the spec's rules; what a memory answer
does that answers nothing is log entry 114. -/
inductive Fault : Type
  deriving DecidableEq, Repr

/-- The reasons the machine refuses a command. -/
inductive Refusal where
  /-- raised by `exec` for a command that has no meaning yet; safe -/
  | notModelled (mnemonic : String)
  deriving DecidableEq, Repr, Inhabited

/-! ### Pins and answers -/

/-- The level of each port group's pins that belongs to no other unit (02). -/
structure Pins where
  /-- RST_COLD_N (02 R55, R60); low: the block is held in cold reset -/
  rstColdN   : Bool := false
  /-- the rails are within tolerance (02 R63); reset: true, a model field -/
  railsOk    : Bool := true
  /-- CLK_LOCK (02 R54, R60; reset 0) -/
  clkLock    : Bool := false
  /-- CLK_FCLK_O and CLK_CCLK_O run (02 R28, R54; reset 0) -/
  clkOut     : Bool := false
  /-- loss of root PLL lock was seen: a lasting fault until cold reset (02 R54) -/
  lockLost   : Bool := false
  /-- RST_READY (02 R60; reset 0) -/
  ready      : Bool := false
  /-- SB_ADDR as sampled at the rising edge of RST_COLD_N (02 R50) -/
  sbAddr     : BitVec 2 := 0
  /-- NVM_RST_N (02, NVM pins; reset 0) -/
  nvmRstN    : Bool := false
  /-- NVM_SCK between commands (02, NVM pins; reset 0; log entry 115) -/
  nvmSck     : Bool := false
  /-- NVM_CS_N between commands (02, NVM pins; reset 1; log entry 115) -/
  nvmCsN     : Bool := true
  /-- NVM_IO between commands: none, high impedance (02, NVM pins; reset high impedance; log entry 115) -/
  nvmIo      : Option (BitVec 4) := none
  /-- PWR_AVS_CLK between commands (02, power pins; reset 0; log entry 115) -/
  avsClk     : Bool := false
  /-- PWR_AVS_MDATA between commands (02, power pins; reset 1; log entry 115) -/
  avsMdata   : Bool := true
  /-- the VALID outputs of the parallel ports between commands (02 R28; reset 0; log entry 115) -/
  portValid  : Bool := false
  /-- the READY outputs of the parallel ports (02 R28; reset 0), 1 once the root PLL has locked (log entry 115) -/
  portReady  : Bool := false
  deriving DecidableEq, Repr, Inhabited

/-- A command port response (02, CMD_RSP_*). -/
structure CmdRsp where
  rdata : Word := 0
  /-- 00 done, 01 access error, 10 unmapped offset -/
  err   : BitVec 2 := 0
  deriving DecidableEq, Repr, Inhabited

/-- A load/store aperture response (02, LSA_n_RSP_*). -/
structure LsaRsp where
  ch     : Fin 4
  tag    : Byte
  status : Byte
  data   : BitVec 512 := 0
  deriving DecidableEq, Repr, Inhabited

/-- A sideband or mailbox response (16 R447). -/
structure SbRsp where
  /-- the target acknowledged the command (16 R448, R419) -/
  acked   : Bool := false
  status  : Byte := 0
  epoch   : BitVec 32 := 0
  payload : List Byte := []
  deriving DecidableEq, Repr, Inhabited

/-- An interrupt message (14 R384). -/
structure IrqMsg where
  addr : Word
  data : BitVec 32
  par  : BitVec 4
  /-- the vector, for R385's one held message a vector -/
  vec  : PartNo
  /-- events the message stands for, unsaturated -/
  events : Nat := 0
  deriving DecidableEq, Repr, Inhabited

/-- A message sent to the root of trust and not yet answered (16 R431, R432). -/
inductive RotOwner where
  | verifyImage (slot : Bool) (staged : Bool)
  | verifyLicence (index : Nat)
  | dieIdentity
  | nonce (port : PortNo)
  | macAnswer (port : PortNo)
  | macExpect (port : PortNo)
  | measure (index : BitVec 32)
  | key (run : Nat)
  | notice
  /-- its answer is no longer wanted (16 R436) -/
  | abandoned
  deriving DecidableEq, Repr, Inhabited

structure RotReq where
  tag      : BitVec 16
  typ      : Byte
  body     : List Byte
  owner    : RotOwner
  repeated : Bool := false
  deriving DecidableEq, Repr, Inhabited

/-- What the block last answered or sent at its ports. -/
structure Outputs where
  /-- CMD_RSP_RDATA, CMD_RSP_ERR (02; reset 0) -/
  cmdRsp  : CmdRsp := {}
  /-- LSA_n_RSP_* responses made, oldest first (02 R42; reset none) -/
  lsaRsps : List LsaRsp := []
  /-- the sideband's last read block (16 R447; reset none) -/
  sbRsp   : SbRsp := {}
  /-- IRQ_ADDR, IRQ_DATA, IRQ_PAR of the last transfer (02 R46; reset none) -/
  irq     : Option IrqMsg := none
  /-- RESULT messages sent to the root of trust: (tag, status), oldest first (16 R433) -/
  rotResults : List (BitVec 16 × Byte) := []
  /-- far-end detect pulses sent, as port and lanes of the last (03 R80) -/
  pulse   : Option (PortNo × BitVec 9) := none
  deriving DecidableEq, Repr, Inhabited

/-! ### Identity (17) -/

structure AccessErr where
  /-- COUNT (17 ID_ACCESS_ERR, R460; reset 0) -/
  count     : BitVec 16 := 0
  /-- LAST_OFFSET (17; reset 0) -/
  offset    : BitVec 24 := 0
  /-- LAST_PAR (17; reset 0) -/
  par       : BitVec 5 := 0
  /-- LAST_KIND: 1 refused, 2 unassigned (17; reset 0) -/
  kind      : BitVec 2 := 0
  /-- LAST_WRITE (17; reset 0) -/
  wasWrite  : Bool := false
  deriving DecidableEq, Repr, Inhabited

/-! ### Clocks, power and telemetry (03) -/

/-- One PWR_TEL_s_w register (03 R91). -/
structure TelReg where
  avg       : BitVec 16 := 0
  peak      : BitVec 16 := 0
  winCount  : BitVec 16 := 0
  estimated : Bool := false
  deriving DecidableEq, Repr, Inhabited

/-- The running window behind a PWR_TEL_s_w register (03 R91). -/
structure TelAcc where
  sum       : Nat := 0
  count     : Nat := 0
  peak      : Nat := 0
  estimated : Bool := false
  deriving DecidableEq, Repr, Inhabited

/-- An order for P2 whose drain is under way (03 R73). -/
structure PowerOrder where
  /-- the state ordered: 2, or 3 for P1 to P3 (R75) -/
  target : BitVec 3
  deriving DecidableEq, Repr, Inhabited

structure Power where
  /-- CUR_STATE (03 PWR_STATE, R70; reset 0) -/
  cur         : BitVec 3 := 0
  /-- POLICY (03 PWR_STATE, R71; reset 1) -/
  policy      : Bool := true
  /-- TRANSITION and the state it leads to (03 PWR_STATE, R75; reset 0) -/
  transition  : Option (BitVec 3) := none
  /-- a further state to go to after the transition, for P1 to P3 (03 R75; reset none) -/
  onward      : Option (BitVec 3) := none
  /-- IDLE_DELAY (03 PWR_STATE, R72; reset 12) -/
  idleDelay   : BitVec 16 := 12
  /-- a P2 order waiting for its drain (03 R73; reset none) -/
  draining    : Option PowerOrder := none
  /-- ports UP or DEGRADED before the park (03 R75; reset none) -/
  beforePark  : BitVec 12 := 0
  /-- EFFECTIVE (03 PWR_CEIL_STATUS, R82; reset 1500) -/
  effective   : BitVec 12 := 1500
  /-- SOURCE (03 PWR_CEIL_STATUS, R82; reset 0) -/
  source      : BitVec 2 := 0
  /-- LEVEL (03 PWR_CEIL_STATUS, R89; reset 0) -/
  level       : BitVec 3 := 0
  /-- CEIL_UNMET (03 PWR_CEIL_STATUS, R87; reset 0) -/
  ceilUnmet   : Bool := false
  /-- SHED_ACTIVE (03 PWR_CEIL_STATUS, R83; reset 0) -/
  shedActive  : Bool := false
  /-- CEIL_EPOCH (03 PWR_CEIL_STATUS, R85; reset 0) -/
  ceilEpoch   : BitVec 16 := 0
  /-- HOST_CEIL (03 PWR_CEIL_HOST, R85; reset 0) -/
  hostCeil    : BitVec 12 := 0
  /-- RACK_CEIL (03 PWR_CEIL_RACK, R83; reset 0) -/
  rackCeil    : BitVec 12 := 0
  /-- RACK_SHED (03 PWR_CEIL_RACK, R83; reset 0) -/
  rackShed    : Bool := false
  /-- BOARD_CEIL (03 PWR_CEIL_BOARD, R82; reset 1500) -/
  boardCeil   : BitVec 12 := 1500
  /-- PWR_TEL_s_w at key 3s + w (03 R91; reset 0) -/
  tel         : Tab TelReg := []
  /-- running windows at key 3s + w (03 R91; reset 0) -/
  telAcc      : Tab TelAcc := []
  /-- the last ten total-power samples, newest first, units of 10 mW (03 R86; reset none) -/
  samples     : List Nat := []
  /-- the last voltage and current read of each rail (02 R56; reset 0) -/
  rails       : Tab RailRead := []
  /-- consecutive failed reads of each rail (03 R56, 02 R57; reset 0) -/
  avsFails    : Tab Nat := []
  /-- 100 µs ticks spent at T7 without a break (03 R87; reset 0) -/
  t7Ticks     : Nat := 0
  /-- 100 µs ticks since the last raise (03 R84; reset 0) -/
  raiseTicks  : Nat := 0
  deriving DecidableEq, Repr, Inhabited

/-! ### Furnish image and start-up (04) -/

/-- A CABLING record (04 R96). -/
structure Cabling where
  medium        : Byte := 0
  lengthDm      : BitVec 16 := 0
  peerEndpoint  : BitVec 32 := 0
  peerPort      : Byte := 0
  peerMachineId : BitVec 128 := 0
  deriving DecidableEq, Repr, Inhabited

/-- A PARTITIONS record (04 R96). -/
structure PartRec where
  present       : Bool := false
  portWeight    : Byte := 0
  beaterWeight  : Byte := 0
  trackerWeight : Byte := 0
  key           : BitVec 16 := 0
  minShare      : Nat := 0
  ctxBase       : Nat := 0
  ctxCount      : Nat := 0
  queueBase     : Nat := 0
  queueCount    : Nat := 0
  cntBase       : Nat := 0
  cntCount      : Nat := 0
  trackerQuota  : Nat := 0
  cacheQuota    : Nat := 0
  importBase    : Nat := 0
  importCount   : Nat := 0
  vatBase       : Nat := 0
  vatSize       : Nat := 0
  deriving DecidableEq, Repr, Inhabited

/-- The contents of the image in use (04 R93, R96, R108). -/
structure Image where
  /-- MACHINE_ID (04 IDENTITY; reset 0) -/
  machineId   : BitVec 128 := 0
  /-- ENDPOINT (04 IDENTITY, 07 RTE_SELF; reset 0) -/
  endpoint    : BitVec 17 := 0
  /-- COORD_X, COORD_Y, COORD_Z (04 IDENTITY, 07 RTE_SELF; reset 0) -/
  coordX : Nat := 0
  coordY : Nat := 0
  coordZ : Nat := 0
  /-- DIM_X, DIM_Y, DIM_Z (04 IDENTITY, 07 RTE_DIMS; reset 0) -/
  dimX : Nat := 0
  dimY : Nat := 0
  dimZ : Nat := 0
  /-- CABLING, by port (04 R96; reset not cabled) -/
  cabling     : Tab Cabling := []
  /-- EQUALISER entries, at key 9 × port + lane (05 R132; reset 0) -/
  equaliser   : Tab (BitVec 128) := []
  /-- ROUTES entries 0 to 159 (07 R193; reset 0) -/
  routes      : Tab Word := []
  /-- PARTITIONS, by partition (04 R96; reset absent) -/
  partitions  : Tab PartRec := []
  /-- FW_SLOT, FW_LENGTH, FW_VERSION (04 FIRMWARE; reset 0) -/
  fwSlot    : Bool := false
  fwLength  : Nat := 0
  fwVersion : BitVec 32 := 0
  /-- FW_DIGEST (04 FIRMWARE; reset none) -/
  fwDigest    : List Byte := []
  /-- MEM_GRANULE_LOG2 (04 PLATFORM, 02 R31; reset 0) -/
  granuleLog2 : Nat := 0
  /-- MEM_LIMIT_GIB (04 PLATFORM, 02 R466; reset 0) -/
  memLimitGib : Nat := 0
  /-- START_HOLD of the header's FLAGS (04 R93, R112; reset 0) -/
  startHold   : Bool := false
  deriving DecidableEq, Repr, Inhabited

/-- A licence record being checked (04 R98, R99). -/
structure LicWork where
  index    : Nat
  features : BitVec 5
  /-- its fixed fields are as R98 lists -/
  formOk   : Bool
  binding  : List Byte
  /-- the root of trust's answer on the signature -/
  sig      : Option Bool := none
  deriving DecidableEq, Repr, Inhabited

structure Furnish where
  /-- PHASE (04 FUR_STATUS, R107; reset 0) -/
  phase       : BitVec 4 := 0
  /-- RESULT: 0 running or ready, 1 stopped, 2 held (04 FUR_STATUS; reset 0) -/
  outcome     : BitVec 2 := 0
  /-- ACTIVE_SLOT (04 FUR_STATUS, R102; reset 0) -/
  activeSlot  : Bool := false
  /-- FALLBACK (04 FUR_STATUS, R102; reset 0) -/
  fallback    : Bool := false
  /-- GEN_TIE (04 FUR_STATUS, R102; reset 0) -/
  genTie      : Bool := false
  /-- DIRECTED (04 FUR_STATUS, R112, 16 R453; reset 0) -/
  directed    : Bool := false
  /-- OVERRIDDEN (04 FUR_STATUS, R114; reset 0) -/
  overridden  : Bool := false
  /-- ISOLATED (04 FUR_STATUS, R110; reset 0) -/
  isolated    : Bool := false
  /-- FAIL_CAUSE (04 FUR_STATUS; reset 0) -/
  failCause   : Byte := 0
  /-- ELAPSED, µs (04 FUR_STATUS; reset 0) -/
  elapsed     : BitVec 32 := 0
  /-- SLOT0_VERDICT (04 FUR_SLOTS, R95; reset 0) -/
  verdict0    : BitVec 3 := 0
  /-- SLOT1_VERDICT (04 FUR_SLOTS, R95; reset 0) -/
  verdict1    : BitVec 3 := 0
  /-- OTHER_GEN (04 FUR_SLOTS; reset 0) -/
  otherGen    : BitVec 32 := 0
  /-- ACTIVE_GEN (04 FUR_GEN; reset 0) -/
  activeGen   : BitVec 32 := 0
  /-- ACTIVE_SEC_VERSION (04 FUR_GEN; reset 0) -/
  activeSec   : BitVec 32 := 0
  /-- FUR_PHASE_TIME_n RUN_US, n = 1 to 5 (04; reset 0) -/
  runUs       : Tab (BitVec 32) := []
  /-- FUR_PHASE_TIME_n HOLD_US, n = 1 to 5 (04 R113; reset 0) -/
  holdUs      : Tab (BitVec 32) := []
  /-- FUR_PORT_RESULT PORT_k (04 R111; reset 0xA) -/
  portResult  : Tab (BitVec 4) := []
  /-- FEATURES (04 FUR_LICENCE, 17 ID_CAPS, R99; reset 0) -/
  features    : BitVec 5 := 0
  /-- the image of phase 1 has set ID_CAPS PORTS and BEATERS (17; reset 0) -/
  capsSet     : Bool := false
  /-- LIC_ACCEPTED (04 FUR_LICENCE; reset 0) -/
  licAccepted : BitVec 4 := 0
  /-- LIC_REJECTED (04 FUR_LICENCE, R99; reset 0) -/
  licRejected : BitVec 4 := 0
  /-- FUR_IMAGE_DIGEST (04; reset 0) -/
  imageDigest : List Byte := []
  /-- FUR_FW_DIGEST (04 R97; reset 0) -/
  fwDigest    : List Byte := []
  /-- OVERRIDES (04 FUR_OVERRIDES, R114; reset 0) -/
  overrides   : BitVec 16 := 0
  /-- firmware has been started (04 R97, R115; reset 0) -/
  fwStarted   : Bool := false
  /-- µs at which the phase under way began (04 R107; reset 0) -/
  phaseAt     : Nat := 0
  /-- a hold order is accepted (04 R112; reset 0) -/
  holdOrder   : Bool := false
  /-- µs at which the hold under way began (04 R113; reset 0) -/
  heldAt      : Nat := 0
  /-- the image in use (04 R96; reset empty) -/
  image       : Image := {}
  /-- the slots still to be verified, in order (04 R102; reset none) -/
  toVerify    : List Bool := []
  /-- licence records whose checks are not finished (04 R99; reset none) -/
  licWork     : List LicWork := []
  /-- the host die identity digest, once the root of trust has given it (04 R99; reset none) -/
  dieId       : Option (List Byte) := none
  /-- the NVM device's contents; an unlisted byte reads 0xFF (04 R92; log entry 8) -/
  nvm         : Tab Byte := []
  deriving DecidableEq, Repr, Inhabited

/-! ### Lanes (05) -/

/-- The alignment state machine of a lane's receiver (05 R121). -/
inductive AlignState where
  | hunt | tentative (count : Nat) | locked
  deriving DecidableEq, Repr, Inhabited

/-- The transmit fields of an equaliser entry, as they are applied to a lane (05 R132, R133). -/
structure TxEq where
  /-- TX_SWING -/
  swing : BitVec 8 := 0
  /-- TX_PRE2, TX_PRE1, TX_MAIN, TX_POST1, TX_POST2 -/
  pre2  : BitVec 8 := 0
  pre1  : BitVec 8 := 0
  main  : BitVec 8 := 0
  post1 : BitVec 8 := 0
  post2 : BitVec 8 := 0
  deriving DecidableEq, Repr, Inhabited

/-- The receive fields of an equaliser entry, as they are applied to a lane (05 R132, R133). -/
structure RxEq where
  /-- CTLE_PEAK, CTLE_POLE, VGA_GAIN -/
  ctlePeak : BitVec 8 := 0
  ctlePole : BitVec 8 := 0
  vgaGain  : BitVec 8 := 0
  /-- DFE1 to DFE4 -/
  dfe      : BitVec 32 := 0
  /-- CDR_BW -/
  cdrBw    : BitVec 8 := 0
  deriving DecidableEq, Repr, Inhabited

/-- What calibration and trim adapt on a lane (05 R134). -/
structure Calib where
  /-- receiver offset, per slicer -/
  offsets : List Int := []
  /-- clock-recovery phase and frequency -/
  phase   : Int := 0
  freq    : Int := 0
  deriving DecidableEq, Repr, Inhabited

/-- What a lane's transmitter does between the blocks it is told to send (05 R125, R127, R135, R136, R145). -/
inductive TxMode where
  /-- high impedance -/
  | hiZ
  /-- driven, with no signal: a spare, or electrical idle -/
  | quiet
  /-- TRAIN blocks of the step under way -/
  | train
  /-- PRBS31 or, in a loop, PRBS13Q -/
  | prbs31
  | prbs13q
  /-- data blocks and markers -/
  | data
  /-- the received symbols, in a far-end loop -/
  | echo
  deriving DecidableEq, Repr, Inhabited

/-- What a lane sent. -/
inductive Sent where
  /-- a block, some number of times in a row -/
  | block (header : BitVec 2) (payload : BitVec 128) (count : Nat)
  /-- the pattern 0303 in levels, by symbols (05 R136) -/
  | clock (symbols : Nat)
  /-- electrical idle begins (05 R135) -/
  | idle
  deriving DecidableEq, Repr, Inhabited

/-- What a lane's deskew buffer holds (05 R124). -/
inductive Deskewed where
  | data (payload : BitVec 128)
  /-- a marker, with its COUNT -/
  | marker (count : BitVec 24)
  deriving DecidableEq, Repr, Inhabited

structure Lane where
  /-- LANE_k of PORT_LANE_STATE (05 R125; reset 0 OFF) -/
  state       : BitVec 4 := 0
  /-- the alignment state machine (05 R121; reset HUNT) -/
  align       : AlignState := .hunt
  /-- the candidate position, 0 to 129 (05 R121; reset 0, log entry 1) -/
  position    : Nat := 0
  /-- validity of the last 64 headers, newest first (05 R121; reset none) -/
  window      : List Bool := []
  /-- the receive scrambler (05 R119; reset 0x1D_BFBC + logical lane 0, log entry 1) -/
  scrambler   : BitVec 23 := 0x1DBFBC
  /-- header errors counted (05 R118, R120; reset 0) -/
  headerErrors : Nat := 0
  /-- the last payload handed to the link level (05 R118; reset 0) -/
  lastPayload : BitVec 128 := 0
  /-- the marker count expected next (05 R123; reset 0) -/
  markerCount : BitVec 24 := 0
  /-- the logical lane and the EPOCH of the last good marker (05 R123, R124; reset none) -/
  rxLogical   : Option Nat := none
  rxEpoch     : Byte := 0
  /-- blocks held for deskew, oldest first, 64 at most (05 R124; reset none) -/
  fifo        : List Deskewed := []
  /-- the lane's deskew offset at the last marker row, in blocks (05 R124, R131, R135; reset 0) -/
  skew        : Nat := 0
  /-- in IDLE, no BURST has arrived since IDLE_ENTRY: header errors are ignored (05 R135; reset 0) -/
  deaf        : Bool := false
  /-- P and N are swapped on the receiver (02 R65, 05 R127; reset 0) -/
  swapped     : Bool := false
  /-- what the transmitter does (05 R125; reset high impedance) -/
  tx          : TxMode := .hiZ
  /-- the transmit scrambler (05 R119; reset 0x1D_BFBC + logical lane 0, log entry 1) -/
  txScrambler : BitVec 23 := 0x1DBFBC
  /-- what the lane sent when it last sent anything, oldest first (05 R117; reset none) -/
  sent        : List Sent := []
  /-- the PAM4 levels of the last block sent, first symbol first (05 R117; reset none) -/
  line        : List (BitVec 2) := []
  /-- the equaliser settings applied to the lane (05 R133; reset 0) -/
  txEq        : TxEq := {}
  rxEq        : RxEq := {}
  /-- receiver offset and clock recovery as last calibrated or trimmed (05 R134; reset none) -/
  calib       : Option Calib := none
  /-- found good at the last training and not FAILED since (05 R128, R138; reset 0) -/
  good        : Bool := false
  /-- calibration is held (05 R131, R135; reset 0) -/
  held        : Bool := false
  /-- CORR_SYMBOLS (05 PORT_LANE_ERR; reset 0) -/
  corrSymbols : BitVec 32 := 0
  /-- LOCK_LOSSES (05 PORT_LANE_ERR; reset 0) -/
  lockLosses  : BitVec 16 := 0
  /-- SWAP_FAILS (05 PORT_LANE_ERR, R142; reset 0) -/
  swapFails   : BitVec 8 := 0
  /-- ERR_BITS (05 PORT_LOOP_ERR; reset 0) -/
  loopErrBits : BitVec 32 := 0
  /-- CHECKER_LOCK (05 PORT_LOOP_ERR, R146; reset 0) -/
  checkerLock : Bool := false
  /-- CHECKED (05 PORT_LOOP_ERR; reset 0) -/
  checked     : BitVec 24 := 0
  /-- bits checked towards the next unit of CHECKED (05 R146; reset 0) -/
  chkCount    : Nat := 0
  /-- the checker's last 31 bits, and its error-free bits in a row (05 R146; reset 0) -/
  chkBits     : BitVec 31 := 0
  chkRun      : Nat := 0
  /-- the pattern generator's last 31 bits (05 R146; reset all ones, log entry 94) -/
  gen         : BitVec 31 := 0x7FFFFFFF
  /-- symbols corrected on the lane in the present 64 marker intervals, from decoded frames (05 R138; reset 0) -/
  winSymbols  : Nat := 0
  deriving DecidableEq, Repr, Inhabited

/-- The Deckle of a port (05 R126). -/
structure Deckle where
  /-- LOGL_PHYS of logical lane L; 0xF unused (05 PORT_DECKLE; reset 0xF) -/
  map   : Tab (BitVec 4) := []
  /-- SPARE_PHYS; 0xF none (05 PORT_DECKLE; reset 0xF) -/
  spare : BitVec 4 := 0xF
  /-- WIDTH: 0 DOWN, 1 ×2, 2 ×4, 3 ×8 (05 PORT_DECKLE; reset 0) -/
  width : BitVec 2 := 0
  /-- EPOCH (05 PORT_DECKLE; reset 0) -/
  epoch : Byte := 0
  deriving DecidableEq, Repr, Inhabited

/-- What a received TRAIN block says (05 R120). -/
structure TrainInfo where
  step  : Nat := 0
  /-- the partner's good-lane mask -/
  mask  : BitVec 9 := 0
  width : BitVec 2 := 0
  /-- the Deckle it proposes: physical lanes of the logical lanes, four bits each, and the spare -/
  map   : BitVec 32 := 0
  spare : BitVec 4 := 0
  deriving DecidableEq, Repr, Inhabited

/-- The bit stream of a port between its flits and its lanes (05 R123; 06 R149, R150). -/
structure Phy where
  /-- bytes of flits sent and not yet in a whole frame (06 R150; reset none) -/
  txBytes   : List Byte := []
  /-- rows sent since the last marker row (05 R123; reset 0) -/
  txRows    : Nat := 0
  /-- COUNT of the next marker row (05 R123; reset 0) -/
  txCount   : BitVec 24 := 0
  /-- rows received of the frame under way, oldest first, by logical lane (06 R149; reset none) -/
  rxRows    : List (List (BitVec 128)) := []
  /-- bytes received since the last whole flit, each with whether its codeword was bad (06 R150; reset none) -/
  rxBytes   : List (Byte × Bool) := []
  /-- flits received whole and not yet taken by FLIT_RECEIVED, oldest first (06 R154; reset none) -/
  arrived   : List (List Byte × Bool) := []
  /-- the last TRAIN block received in this attempt (05 R127; reset none) -/
  train     : Option TrainInfo := none
  deriving DecidableEq, Repr, Inhabited

/-- A training attempt under way (05 R127, R131). -/
structure Attempt where
  /-- step 1 to 6 -/
  step     : Nat
  /-- the retrain with held calibration of R131 -/
  held     : Bool := false
  /-- lanes with termination, then good on this side, then good on both sides -/
  lanes    : BitVec 9 := 0
  deriving DecidableEq, Repr, Inhabited

/-- Calibration and calender passes of a port (05 R140 to R144). -/
structure Cal where
  /-- TEMP (05 PORT_CAL; reset 0) -/
  temp        : BitVec 10 := 0
  /-- CAL_TEMP (05 PORT_CAL; reset 0) -/
  calTemp     : BitVec 10 := 0
  /-- CAL_STALE (05 PORT_CAL, R143; reset 0) -/
  stale       : Bool := false
  /-- PASS_ACTIVE and the pass's logical lane (05 PORT_CAL, R141; reset 0) -/
  pass        : Option Nat := none
  /-- the step of R141 the pass has reached (reset 0) -/
  step        : Nat := 0
  /-- the pass was begun by the partner (05 R141, R144; reset 0) -/
  peerPass    : Bool := false
  /-- PASS_DEFERRED (05 PORT_CAL, R144; reset 0) -/
  deferred    : Bool := false
  /-- a pass or a step waits for its retry after 1 s (05 R142, R144; reset 0) -/
  waiting     : Bool := false
  /-- a pass waits for its twin's pass to end (05 R144; reset 0) -/
  waitsTwin   : Bool := false
  /-- the pass under way swaps one lane with too many corrected symbols for the spare (05 R138; reset 0) -/
  repair      : Bool := false
  /-- the Deckle to return to while a pass without a spare has narrowed the port (05 R143; reset none) -/
  wide        : Option Deckle := none
  /-- the logical lane whose step 3 failed once and is to be retried (05 R142; reset none) -/
  retry       : Option Nat := none
  /-- PASS_COUNT (05 PORT_CAL; reset 0) -/
  passCount   : BitVec 16 := 0
  /-- NARROWED_US (05 PORT_CAL, R143; reset 0) -/
  narrowedUs  : BitVec 16 := 0
  /-- 10 ms readings since the last calibration while UP (05 R140; reset 0) -/
  sinceCal    : Nat := 0
  /-- the pass keeps the lanes active outside the throttle interval (05 R144; reset 0) -/
  forceActive : Bool := false
  deriving DecidableEq, Repr, Inhabited

/-! ### Link (06) -/

/-- A data flit held in a Broke store (06 R151, R161). -/
structure Flit where
  vcb  : Fin 8
  msgs : List Msg
  deriving DecidableEq, Repr, Inhabited

/-- A data flit in the receive buffer (06 R169). -/
structure RxFlit where
  vcb    : Fin 8
  /-- charged to the shared area rather than the VC buffer's reserve -/
  shared : Bool
  msgs   : List Msg
  /-- held behind the twin's older flits (06 R179, R181) -/
  onHold : Bool := false
  /-- one of the older flits that the twin's held flits wait for (06 R179, R181) -/
  older  : Bool := false
  deriving DecidableEq, Repr, Inhabited

/-- A control packet (06 R157, R158). -/
structure Ctrl where
  typ  : Byte
  part : Bool := false
  seq  : BitVec 16 := 0
  body : List Byte := []
  deriving DecidableEq, Repr, Inhabited

/-- Which input of an output port a message waits at (07 R204). -/
inductive TxInput where
  | port (n : PortNo)
  | own (p : PartNo)
  | steward
  deriving DecidableEq, Repr, Inhabited

/-- One turn of an output port's arbiter: a message, or a whole run (06 R210). -/
structure TxItem where
  vcb   : Fin 8
  input : TxInput
  msgs  : List Msg
  deriving DecidableEq, Repr, Inhabited

/-- A transit run whose continuations an output VC buffer still waits for (06 R210). -/
structure OpenTurn where
  /-- the input port -/
  input  : Nat := 0
  source : BitVec 32 := 0
  /-- bytes of the run still to come; 0 for no run -/
  left   : Nat := 0
  deriving DecidableEq, Repr, Inhabited

/-- The sender's half of a link. -/
structure Tx where
  /-- NEXT_TX (06 PORT_TX_COUNT, R159; reset 0) -/
  nextTx      : Count := 0
  /-- the Broke store, oldest flit first; OLDEST is NEXT_TX less its length (06 R161; reset empty) -/
  broke       : List Flit := []
  /-- flits of the Broke store still to be resent, as the count of the next one (06 R163; reset 0) -/
  resend      : Count := 0
  /-- messages waiting for a flit, oldest first (07 R204; reset none) -/
  queue       : List TxItem := []
  /-- what is left of the turn under way on each VC buffer (06 R210; reset none) -/
  current     : Tab (List Msg) := []
  /-- the input that turn came from (07 R204, 14 R389; reset none) -/
  curFrom     : Tab (Option TxInput) := []
  /-- the transit run each VC buffer is in the middle of (06 R210; reset none) -/
  openTurn    : Tab OpenTurn := []
  /-- partitions in the deficit round robin of each VC buffer, the current one first (14 R387; reset none) -/
  ring        : Tab (List Nat) := []
  /-- flits of a dead twin to be resent as new flits (06 R178 step 4; reset none) -/
  takeover    : List Flit := []
  /-- consecutive replay timeouts without progress (06 R164; reset 0) -/
  replayFails : Nat := 0
  /-- last class served by the VC arbiter (14 R388; reset 0, log entry 1) -/
  lastClass   : Nat := 0
  /-- the dateline set served last in each class (14 R388; reset 0, log entry 1) -/
  lastSet     : Tab Nat := []
  /-- weighted round robin position of each VC buffer over the 12 inputs (07 R204; reset 0, log entry 1) -/
  wrr         : Tab Nat := []
  /-- turns the input at that position has left (07 R204; reset 0, log entry 1) -/
  wrrLeft     : Tab Nat := []
  /-- partitions of each of the last 1,024 local-input flits of each VC buffer, 16 for the block's own, newest first (14
  R389; reset none) -/
  shareLog    : Tab (List (List Nat)) := []
  /-- deficits of partition p at VC buffer v, key 16v + p (14 R387; reset 0) -/
  deficit     : Tab Nat := []
  /-- the flits sent, newest first, as the last one put on the lanes (06 R151; reset none) -/
  lastFlit    : Option (List Byte) := none
  deriving DecidableEq, Repr, Inhabited

/-- The receiver's half of a link. -/
structure Rx where
  /-- EXPECTED (06 PORT_RX_COUNT, R159; reset 0) -/
  expected    : Count := 0
  /-- the running count (06 R162; reset 0) -/
  cur         : Count := 0
  /-- waiting for REPLAY_START (06 R162; reset 0) -/
  waiting     : Bool := false
  /-- the REASON of the NAK being waited on (06 R158; reset 0) -/
  nakReason   : Byte := 0
  /-- NAKs sent for the present count (06 R164; reset 0) -/
  naksForCount : Nat := 0
  /-- an acknowledgement is owed (06 R156; reset 0) -/
  ackOwed     : Bool := false
  /-- a null flit is ready for it or for an XOFF change (06 R156; reset 0) -/
  nullReady   : Bool := false
  /-- the receive buffer, oldest flit first (06 R169; reset empty) -/
  buf         : List RxFlit := []
  /-- PAUSED (06 PORT_LINK, R170; reset 0) -/
  paused      : Bool := false
  /-- XOFF_SENT (06 PORT_LINK, R170; reset 0) -/
  xoffSent    : Byte := 0
  /-- XOFF_RCVD (06 PORT_LINK, R171; reset 0) -/
  xoffRcvd    : Byte := 0
  /-- µs of the local clock at which each partner XOFF bit was first seen set (06 R173; reset none) -/
  xoffSince   : Tab Nat := []
  /-- µs at which each of our XOFF bits was first sent and held since (06 R182; reset none) -/
  xoffSentAt  : Tab Nat := []
  /-- arriving flits are held until the twin's older ones are taken (06 R179, R181; reset 0) -/
  hold        : Bool := false
  /-- the hold also waits for the partner's HANDBACK_MARK on the twin (06 R181; reset 0) -/
  awaitMark   : Bool := false
  /-- the port has left service since its link initialisation: the flit counts are frozen, and data
  arrivals and acknowledgements are discarded (06 R178, R183; reset 0) -/
  frozen      : Bool := false
  deriving DecidableEq, Repr, Inhabited

/-- The control packet channel (06 R167). -/
structure Ctl where
  /-- SEQ of the next packet to send (06 R167; reset 0) -/
  nextSeq     : BitVec 16 := 0
  /-- packets made and not yet given a place in the replay buffer (06 R167; reset none) -/
  queue       : List Ctrl := []
  /-- the 64-entry control replay buffer, oldest first (06 R167; reset empty) -/
  held        : List Ctrl := []
  /-- how many packets of `held` have been sent since the last rewind (06 R167; reset 0) -/
  sent        : Nat := 0
  /-- the expected SEQ (06 R167; reset 0) -/
  expected    : BitVec 16 := 0
  /-- a CNAK has been sent for the present gap (06 R167; reset 0) -/
  cnakSent    : Bool := false
  /-- processed packets waiting for their step, oldest first (reset none) -/
  inbox       : List Ctrl := []
  deriving DecidableEq, Repr, Inhabited

/-- A handover exchange of a dead port D (06 R178). -/
structure Handover where
  /-- this side has sent HANDOVER -/
  sent     : Bool := false
  /-- the partner's EXPECTED on D, once received -/
  peerExp  : Option Count := none
  /-- flits resent -/
  resent   : Nat := 0
  deriving DecidableEq, Repr, Inhabited

/-- Why a port leaves its state after a control packet (03 R74; 06 R173, R469). -/
inductive Leave where
  /-- PARK -/
  | park
  /-- RETRAIN_REQ, with FULL_CAL -/
  | retrain (full : Bool)
  /-- STUCK_NOTICE -/
  | stuck
  deriving DecidableEq, Repr, Inhabited

/-- Admission under way (16 R435). -/
structure Admission where
  /-- the partner's ADMIT_ID passed step 2 -/
  idOk       : Bool := false
  /-- own NONCE, once the root of trust gave it -/
  nonce      : Option (BitVec 192) := none
  /-- the partner's NONCE -/
  peerNonce  : Option (BitVec 192) := none
  /-- parts 0 and 1 of the partner's ADMIT_MAC -/
  mac0 : Option (BitVec 192) := none
  mac1 : Option (BitVec 192) := none
  /-- own verdict: ADMIT_RESULT accepted has been sent -/
  sentOk     : Bool := false
  /-- ADMIT_RESULT accepted has been received -/
  rcvdOk     : Bool := false
  /-- the root of trust failed; a restart in 1 s (16 R436) -/
  suspended  : Bool := false
  deriving DecidableEq, Repr, Inhabited

structure Port where
  /-- STATE (06 PORT_STATE, R174; reset 0) -/
  state       : BitVec 4 := 0
  /-- DOWN_CAUSE (06 PORT_STATE; reset 0) -/
  downCause   : Byte := 0
  /-- FENCE_CAUSE (06 PORT_STATE; reset 0) -/
  fenceCause  : Byte := 0
  /-- TWIN_CARRYING (06 PORT_STATE, R177; reset 0) -/
  twinCarrying : Bool := false
  /-- CARRYING_TWIN (06 PORT_STATE; reset 0) -/
  carryingTwin : Bool := false
  /-- the port was parked (03 R74; reset 0) -/
  parked      : Bool := false
  /-- transmitters at high impedance (02 R28, 03 R80; reset 1) -/
  txHiZ       : Bool := true
  /-- LANE_LOCK of PWR_CLK_STATUS (03; reset 0) -/
  pllLock     : Bool := false
  /-- far-end detect pulses may be sent: the lane circuits are powered (03 R79; reset 0) -/
  powered     : Bool := false
  /-- PORT_DECKLE (05) -/
  deckle      : Deckle := {}
  /-- the nine physical lanes (05 R125) -/
  lanes       : Tab Lane := []
  /-- the bit stream between flits and lanes (06 R149, R150) -/
  phy         : Phy := {}
  /-- PORT_CAL and the calender pass (05 R140) -/
  cal         : Cal := {}
  /-- the training attempt under way (05 R127; reset none) -/
  attempt     : Option Attempt := none
  /-- far-end detect has found the partner since phase 3 began (04 R111; reset 0) -/
  partnerSeen : Bool := false
  /-- consecutive failed attempts (05 R130; reset 0) -/
  attemptFails : Nat := 0
  /-- the next attempt's retry timer runs (05 R130; reset 0) -/
  retryArmed  : Bool := false
  /-- ms from the end of the failed attempt to the next (05 R130; reset 1,000) -/
  retryMs     : Nat := 1000
  /-- the retrain ordered is a full one; without an order, a held one (06 R469; reset 1) -/
  nextFull    : Bool := true
  /-- transmit lanes in electrical idle (03 R72; reset 0) -/
  txIdle      : Bool := false
  /-- receiver in electrical idle (05 R135; reset 0) -/
  rxIdle      : Bool := false
  /-- failed exits in a row (05 R137; reset 0) -/
  exitFails   : Nat := 0
  /-- BURST blocks seen since the receiver idled (05 R136; reset 0) -/
  bursts      : Nat := 0
  /-- in the port's active interval of the throttle window (03 R90; reset 1) -/
  inInterval  : Bool := true
  /-- MODE of PORT_LOOP_CTRL (05 R145; reset 0) -/
  loopMode    : BitVec 2 := 0
  /-- PATTERN (05 PORT_LOOP_CTRL; reset 0) -/
  loopPattern : Bool := false
  /-- LANES (05 PORT_LOOP_CTRL; reset 0) -/
  loopLanes   : BitVec 9 := 0
  /-- lanes on which the partner closed a far-end loop (05 R145; reset none) -/
  farLoop     : BitVec 9 := 0
  /-- RTT_FCLK (06 PORT_LINK, R176; reset 0) -/
  rttFclk     : BitVec 16 := 0
  /-- the smallest probe round trip measured and the partner's TURN_FCLK with it, if any (06 R176; reset none) -/
  rttBest     : Option (Nat × Nat) := none
  /-- RTT_ECHO packets received (06 R176; reset 0) -/
  echoes      : Nat := 0
  /-- the partner's LINK_INIT has passed its checks (06 R176; reset 0) -/
  initOk      : Bool := false
  /-- the partner's ENDPOINT and port number, from LINK_INIT (06 R158; reset 0) -/
  peerEndpoint : BitVec 32 := 0
  peerPort     : Byte := 0
  /-- the sending half -/
  tx          : Tx := {}
  /-- the receiving half -/
  rx          : Rx := {}
  /-- the control packet channel -/
  ctl         : Ctl := {}
  /-- a handover of this port as D (06 R178; reset none) -/
  hand        : Option Handover := none
  /-- streams wait for a HANDBACK (06 R181; reset 0) -/
  handback    : Bool := false
  /-- HANDBACK_MARK about this port has been queued on its twin (06 R181; reset 0) -/
  markMade    : Bool := false
  /-- the port leaves its state once the packet that announces it has been sent (03 R74; 06 R173, R469; reset none) -/
  leaveDue    : Option Leave := none
  /-- admission under way (16 R435; reset none) -/
  adm         : Option Admission := none
  /-- NAK_SENT, NAK_RCVD, REPLAY_TIMEOUTS, CNAK_SENT (06 PORT_REPLAY; reset 0) -/
  nakSent        : BitVec 16 := 0
  nakRcvd        : BitVec 16 := 0
  replayTimeouts : BitVec 16 := 0
  cnakSent       : BitVec 16 := 0
  /-- REPLAYED, DUP_DISCARDED (06 PORT_REPLAY_FLITS; reset 0) -/
  replayed     : BitVec 40 := 0
  dupDiscarded : BitVec 24 := 0
  /-- PAUSE_LIMIT (06 PORT_PAUSE, R173; reset 50) -/
  pauseLimit   : BitVec 13 := 50
  /-- LONGEST_XOFF, STUCK_COUNT (06 PORT_PAUSE; reset 0) -/
  longestXoff  : BitVec 16 := 0
  stuckCount   : BitVec 16 := 0
  /-- PAUSE_VIOL, MALFORMED, NAK_STORMS, LINK_LOSSES (06 PORT_MISBEHAVE; reset 0) -/
  pauseViol    : BitVec 16 := 0
  malformed    : BitVec 16 := 0
  nakStorms    : BitVec 16 := 0
  linkLosses   : BitVec 16 := 0
  /-- HANDOVERS, HANDOVER_FAILS, LAST_RESENT (06 PORT_HANDOVER; reset 0) -/
  handovers     : BitVec 16 := 0
  handoverFails : BitVec 16 := 0
  lastResent    : BitVec 11 := 0
  /-- LAST_PEER_EXPECTED (06 PORT_HANDOVER_EXP; reset 0) -/
  lastPeerExp   : Count := 0
  /-- pause violations, NAKs and malformed events in the present 1 s window (06 R182; reset 0) -/
  winViol      : Nat := 0
  winNaks      : Nat := 0
  winMalformed : Nat := 0
  /-- µs stamps of stuck declarations and of NAK storms (06 R182; reset none) -/
  stuckAt      : List Nat := []
  stormAt      : List Nat := []
  /-- halves of the partner's rank table digest (06 R158; reset none) -/
  digest0      : Option (BitVec 192) := none
  /-- the partner reported that it declared this port stuck (06 R173; reset 0) -/
  stuckNoticed : Bool := false
  /-- a fencing limit was reached in the step under way; none between steps (06 R182; a model field) -/
  fenceDue     : Option Byte := none
  /-- the link was lost in the step under way, with its DOWN_CAUSE; none between steps (06 R175; a
  model field) -/
  lossDue      : Option Byte := none
  deriving DecidableEq, Repr, Inhabited

/-! ### Routing (07) -/

/-- One end's latest report of a ring link (07 R196, R199); key 1,024 × dimension + 2 × link + end. -/
structure EndReport where
  known  : Bool := false
  broken : Bool := false
  origin : BitVec 32 := 0
  seq    : BitVec 16 := 0
  deriving DecidableEq, Repr, Inhabited

structure Routing where
  /-- LOCAL_WEIGHT (07 RTE_CTRL, R204; reset 1) -/
  localWeight : BitVec 3 := 1
  /-- the ends' reports behind RTE_BREAK_X, _Y, _Z (07 R196; reset none) -/
  reports     : Tab EndReport := []
  /-- SEQ of this endpoint's next route notice (07 R199; reset 0, log entry 1) -/
  noticeSeq   : BitVec 16 := 0
  /-- directions whose restore waits for its 1 s hold (07 R196; reset none) -/
  restoreHold : BitVec 6 := 0
  /-- RANK_GEN (07 RTE_RANK_GEN, R191; reset 0) -/
  rankGen     : BitVec 32 := 0
  /-- DIGEST_MISMATCHES (07 RTE_RANK_GEN, R192; reset 0) -/
  mismatches  : BitVec 16 := 0
  /-- DIGEST_BUSY (07 RTE_RANK_GEN, R191; reset 0) -/
  digestBusy  : Bool := false
  /-- RTE_RANK_DIGEST (07; reset 0) -/
  digest      : List Byte := []
  /-- the rank table, by rank (07 R188; reset 0, then the image) -/
  ranks       : Tab (BitVec 32) := []
  /-- TRANSIT_MSGS (07 RTE_COUNT_FWD; reset 0) -/
  transitMsgs : BitVec 48 := 0
  /-- TURNED, UNREACH_SENT, UNREACH_DROPS, CHECK_FAILS (07 RTE_COUNT_ROUTE; reset 0) -/
  turned       : BitVec 16 := 0
  unreachSent  : BitVec 16 := 0
  unreachDrops : BitVec 16 := 0
  checkFails   : BitVec 16 := 0
  deriving DecidableEq, Repr, Inhabited

/-! ### Memory port (02) -/

/-- MEM_n_REQ_OP (02). -/
inductive MemOp where
  | read | write | readLock | writeUnlock
  deriving DecidableEq, Repr, Inhabited

/-- The four points at which a status record is written (09 R265). -/
inductive StatusPoint where
  | start | progress | final | done
  deriving DecidableEq, Repr, Inhabited

/-- The operation that issued a memory access. -/
inductive MemOwner where
  /-- fetch of the descriptor of ring count `index` of queue `q` (09 R251) -/
  | descFetch (q : QueueNo) (index : BitVec 32)
  /-- read of a local source by transfer `x` of run `run` -/
  | xferRead (run x : Nat)
  /-- write of a local destination -/
  | xferWrite (run x : Nat)
  /-- a write of a status record (09 R265) -/
  | status (run : Nat) (point : StatusPoint)
  /-- read of the descriptor at DESC_VA (09 R270) -/
  | trigDesc (run : Nat)
  /-- zeroing of a failed SEALED_COPY's destination (09 R268) -/
  | zeroDst (run : Nat)
  /-- a fault record, by partition and its SEQ (10 R297) -/
  | faultRecord (p : PartNo) (seq : BitVec 32)
  /-- an inbound request being performed at this target (08 R212) -/
  | target (id : Nat)
  /-- the locked read and the unlock of an atomic unit (08 R221) -/
  | atomicLock (unit : Nat)
  | atomicUnlock (unit : Nat)
  /-- an aperture access to local memory -/
  | aperture (id : Nat)
  deriving DecidableEq, Repr, Inhabited

/-- An access issued on the memory port and not yet answered (02 R31 to R38). -/
structure MemReq where
  ch    : Fin 16
  tag   : Fin 512
  op    : MemOp
  /-- local physical address of the first byte -/
  addr  : Nat
  /-- bytes -/
  len   : Nat
  /-- offset of the first byte within the operation that issued it -/
  off   : Nat := 0
  /-- write data; empty for reads -/
  data  : List Byte := []
  /-- MEM_n_WR_STRB of a WRITE_UNLOCK; other writes enable exactly their own bytes (02 R37) -/
  strb  : BitVec 128 := 0
  /-- beats of read data received so far -/
  beats : Nat := 0
  /-- read data received so far, whole beats -/
  got   : List Byte := []
  /-- an error answer was received on an earlier beat -/
  bad   : Bool := false
  /-- the context and epoch whose use ends with this access (10 R289) -/
  use   : Option (CtxNo × BitVec 16) := none
  owner : MemOwner
  deriving DecidableEq, Repr, Inhabited

/-! ### Trackers, runs at a target, atomics (08) -/

/-- Who a request was issued for. -/
inductive ReqOwner where
  /-- transfer `x` of run `run` -/
  | xfer (run x : Nat)
  /-- aperture request `id`, span `span` -/
  | aperture (id span : Nat)
  deriving DecidableEq, Repr, Inhabited

/-- A record of one outstanding request (08 R223). -/
structure Tracker where
  index     : Nat
  gen       : BitVec 15
  ctx       : CtxNo
  part      : PartNo
  owner     : ReqOwner
  /-- the request as first sent, with its data, for a reissue -/
  msgs      : List Msg
  target    : BitVec 17
  reissued  : Bool := false
  /-- an UNREACHABLE for the original has been noted (08 R231) -/
  origNotDone : Bool := false
  /-- READ: the copy whose pieces are taken (08 R229) -/
  readInst : Option Bool := none
  /-- READ: pieces taken, by INDEX -/
  pieces    : Tab (List Byte) := []
  /-- reissued because its path was lost: it holds its stream (08 R230) -/
  lost      : Bool := false
  /-- µs at allocation or reissue -/
  since     : Nat := 0
  /-- RESP_TIMEOUT in force at allocation (08 R225) -/
  timeout   : Nat := 500
  deriving DecidableEq, Repr, Inhabited

/-- An open-run entry at a target (08 R211). -/
structure OpenRun where
  source : BitVec 32
  tag    : BitVec 32
  /-- local physical address of the run's first byte -/
  pa     : Nat
  length : Nat
  /-- bytes received -/
  got    : Nat
  /-- the INDEX expected next -/
  next   : Nat
  window : Nat
  /-- the inbound request that counts its outstanding writes -/
  op     : Nat
  deriving DecidableEq, Repr, Inhabited

/-- An access of an inbound request that waits for its turn (08 R214). -/
structure TargetPart where
  /-- local physical address -/
  addr : Nat
  len  : Nat
  /-- offset within the request -/
  off  : Nat
  /-- write data; empty for a read -/
  data : List Byte := []
  deriving DecidableEq, Repr, Inhabited

/-- What an inbound request asks for. -/
inductive TargetKind where
  | read | write | atomic
  deriving DecidableEq, Repr, Inhabited

/-- An inbound request being performed at this target's memory port (08 R212, R214). -/
structure TargetOp where
  id       : Nat
  /-- the request's header, for its response -/
  msg      : Msg
  kind     : TargetKind
  /-- local physical address of its first byte -/
  pa       : Nat
  length   : Nat := 0
  window   : Nat
  /-- accesses that wait for their turn, oldest first (08 R214) -/
  waiting  : List TargetPart := []
  /-- accesses issued and not answered; 1 for an atomic at its unit -/
  pending  : Nat := 0
  /-- all of the request has been issued (for a write run: its last continuation has come) -/
  complete : Bool := true
  /-- an access was answered 10 or 11 -/
  failed   : Bool := false
  /-- no ACK is sent: the run was closed incomplete -/
  silent   : Bool := false
  /-- read data, by offset -/
  got      : Tab (List Byte) := []
  deriving DecidableEq, Repr, Inhabited

/-- A replay table entry (08 R233). -/
structure ReplayEntry where
  source : BitVec 32
  tag    : BitVec 32
  old    : BitVec 128
  status : Byte
  /-- the result is stored; false while the atomic waits for its unit -/
  done   : Bool := false
  /-- copies of the atomic that arrived meanwhile and are to be answered too -/
  copies : List Msg := []
  deriving DecidableEq, Repr, Inhabited

/-- An atomic waiting at an atomic unit (08 R221). -/
structure AtomicOp where
  msg    : Msg
  /-- local physical address of the operand -/
  pa     : Nat
  /-- the inbound request it belongs to -/
  target : Option Nat := none
  /-- a SIGNAL or aperture atomic on local memory, with its owner -/
  localOwner : Option ReqOwner := none
  deriving DecidableEq, Repr, Inhabited

/-- One of the four atomic units (08 R221). -/
structure AtomicUnit where
  /-- the line held or asked for, as local physical address ÷ 128 -/
  line    : Option Nat := none
  /-- atomics applied whose WRITE_UNLOCK has not been answered -/
  applied : List AtomicOp := []
  /-- their old values, in order -/
  olds    : List Nat := []
  /-- the locked read reported an error (08 R222) -/
  lockBad : Bool := false
  /-- the line's data has returned and WRITE_UNLOCK is out -/
  unlocking : Bool := false
  /-- atomics waiting at the unit, oldest first -/
  waiting : List AtomicOp := []
  deriving DecidableEq, Repr, Inhabited

structure Trk where
  /-- RESP_TIMEOUT, ATOMIC_RETAIN (08 TRK_CTRL; reset 500, 50) -/
  respTimeout  : BitVec 16 := 500
  atomicRetain : BitVec 16 := 50
  /-- trackers held (08 R223; reset none); IN_USE is their number -/
  trackers     : List Tracker := []
  /-- GEN of each tracker (08 R224; reset 0) -/
  gens         : Tab (BitVec 15) := []
  /-- PEAK of TRK_STATUS (08; reset 0) -/
  peak         : Nat := 0
  /-- retired trackers (08 TRK_STATUS CAPACITY, 14 R392; reset none) -/
  retired      : List Nat := []
  /-- TIMEOUTS, REISSUES, AMBIGUOUS, LATE_DISCARDS (08 TRK_EVENTS; reset 0) -/
  timeouts     : BitVec 16 := 0
  reissues     : BitVec 16 := 0
  ambiguous    : BitVec 16 := 0
  lateDiscards : BitVec 16 := 0
  /-- the replay table (08 R233; reset empty); OCCUPIED is its length -/
  replay       : List ReplayEntry := []
  /-- PEAK of TRK_REPLAY (08; reset 0) -/
  replayPeak   : Nat := 0
  /-- µs stamp at which the table was last cleared (08 TRK_REPLAY SINCE_CLEAR, R235; reset 0) -/
  clearedAt    : Nat := 0
  /-- HITS, EXPIRIES, FULL_STALLS, AMBIG_SENT (08 TRK_REPLAY_EVENTS; reset 0) -/
  hits       : BitVec 16 := 0
  expiries   : BitVec 16 := 0
  fullStalls : BitVec 16 := 0
  ambigSent  : BitVec 16 := 0
  /-- EXECUTED, LOCK_DATA_ERRORS (08 TRK_ATOMIC; reset 0) -/
  executed   : BitVec 48 := 0
  lockDataErrors : BitVec 16 := 0
  /-- the open-run table (08 R211; reset empty); OPEN is its length -/
  openRuns   : List OpenRun := []
  /-- GAP_CLOSES, STRAY_CONTS, DATA_ERRORS_SENT (08 TRK_RUNS; reset 0) -/
  gapCloses  : BitVec 16 := 0
  strayConts : BitVec 16 := 0
  dataErrorsSent : BitVec 16 := 0
  /-- inbound requests being performed, oldest first (08 R214; reset none) -/
  targetOps  : List TargetOp := []
  /-- the four atomic units (08 R221; reset idle) -/
  units      : Tab AtomicUnit := []
  /-- atomics waiting in their VC buffer for a replay entry (08 R234; reset none) -/
  stalled    : List (Arrival × Msg) := []
  /-- requests held behind path-lost reissues, by tracker index, oldest first (08 R230; reset none) -/
  held       : List Nat := []
  /-- partitions in the deficit round robin of the tracker pool (14 R387, R392; reset none) -/
  ring       : List Nat := []
  /-- deficits at the tracker pool, by partition (14 R392; reset 0) -/
  deficit    : Tab Nat := []
  /-- the next id given to a target operation (a model field) -/
  nextId     : Nat := 0
  deriving DecidableEq, Repr, Inhabited

/-! ### The load/store aperture (08 R240) -/

/-- Where a translated address leads (10 R277). -/
inductive Place where
  /-- a local physical address -/
  | loc (pa : Nat)
  /-- a rank and an address in its target fabric address space -/
  | far (rank addr : Nat)
  deriving DecidableEq, Repr, Inhabited

inductive ApertureKind where
  | load | store | atomic | fence
  deriving DecidableEq, Repr, Inhabited

/-- One contiguous part of an aperture request: a store has one for each span (08 R471). -/
structure AperPart where
  /-- offset in the 64-byte block, and bytes -/
  lane   : Nat
  len    : Nat
  /-- it has been issued -/
  sent   : Bool := false
  /-- its final status -/
  status : Option Byte := none
  deriving DecidableEq, Repr, Inhabited

/-- An aperture request without its response. -/
structure Aperture where
  id      : Nat
  req     : LsaReq
  kind    : ApertureKind
  relaxed : Bool
  /-- the context's epoch under which its use is counted (10 R289) -/
  use     : Option (BitVec 16) := none
  /-- where its translation leads, once taken -/
  place   : Option Place := none
  /-- its parts, lowest address first -/
  parts   : List AperPart := []
  /-- it has been counted as waiting for a tracker (14 PAR_TRACKERS WAITS) -/
  waited  : Bool := false
  /-- data or old value gathered, by offset in the request -/
  got     : Tab (List Byte) := []
  deriving DecidableEq, Repr, Inhabited

/-- A range entry (10 R277). -/
structure Range where
  ctx         : CtxNo
  epoch       : BitVec 16
  /-- START, PAGES in 4 KiB units -/
  start       : Nat
  pages       : Nat
  rights      : BitVec 3
  remote      : Bool
  localPpn    : Nat
  rank        : Nat
  targetStart : Nat
  /-- kept under ADVISE KEEP (10 R302) -/
  keep        : Bool := false
  /-- to be replaced first, after ADVISE DONE (10 R302) -/
  first       : Bool := false
  /-- its word in the range cache has shown a corrected error (10 R280) -/
  shown       : Bool := false
  deriving DecidableEq, Repr, Inhabited

/-! ### Contexts, queues, counters (09) -/

structure Ctx where
  /-- STATE: 0 FREE, 1 OPEN, 2 CLOSING, 3 QUARANTINE (09 CTX_STATE, R245; reset 0) -/
  state    : BitVec 2 := 0
  /-- GEN (09 CTX_STATE; reset 0) -/
  gen      : BitVec 16 := 0
  /-- EPOCH (10 XLT_CTX, R290; reset 0) -/
  epoch    : BitVec 16 := 0
  /-- USES_OLD, USES_CUR (10 XLT_CTX, R289; reset 0) -/
  usesOld  : Nat := 0
  usesCur  : Nat := 0
  /-- sticky fault flag (10 XLT_STICKY, R298; reset 0) -/
  sticky   : Bool := false
  /-- the quarantine timer's value, µs (09 R246; reset 0) -/
  quarantineUs : Nat := 0
  deriving DecidableEq, Repr, Inhabited

/-- A translation held for a descriptor at queue time (10 R287). -/
structure HeldXlt where
  epoch  : BitVec 16
  ranges : List Range
  deriving DecidableEq, Repr, Inhabited

/-- A descriptor fetched and not started (09 R257). -/
structure Fetched where
  index : BitVec 32
  /-- its 64 bytes -/
  desc  : List Byte
  /-- the read was answered 10 or 11 (09 R251) -/
  bad   : Bool := false
  /-- entries that its queue-time translation has found, until it has them all (10 R287) -/
  taken : List Range := []
  held  : Option HeldXlt := none
  deriving DecidableEq, Repr, Inhabited

structure Queue where
  /-- RING_VA bits [63:12] (09 Q_RING; reset 0) -/
  ringVa      : BitVec 52 := 0
  /-- RING_LOG2, CHUNK_LOG2, MAX_INFLIGHT, SPREAD (09 Q_CONFIG; reset 6, 20, 4, 4) -/
  ringLog2    : BitVec 5 := 6
  chunkLog2   : BitVec 5 := 20
  maxInflight : BitVec 4 := 4
  spread      : BitVec 6 := 4
  /-- XLT_MODE, PERIODIC (09 Q_CONFIG; reset 0) -/
  xltMode     : Bool := false
  periodic    : Bool := false
  /-- STATE (09 Q_STATE, R250; reset 4 HALTED) -/
  state       : BitVec 3 := 4
  /-- BOUND, CONTEXT (09 Q_STATE; reset 0) -/
  bound       : Bool := false
  ctx         : CtxNo := 0
  /-- ERR_CAUSE (09 Q_STATE; reset 0) -/
  errCause    : BitVec 4 := 0
  /-- FAILED_INDEX (09 Q_STATE; reset 0) -/
  failedIndex : BitVec 32 := 0
  /-- HEAD, TAIL (09 Q_PTRS, R254; reset 0) -/
  head        : BitVec 32 := 0
  tail        : BitVec 32 := 0
  /-- ring count of the next descriptor to start (09 R258; reset 0) -/
  nextStart   : BitVec 32 := 0
  /-- ring count of the next descriptor to fetch (09 R257; reset 0) -/
  nextFetch   : BitVec 32 := 0
  /-- descriptors fetched and not started, in ring order (09 R257; reset none) -/
  fetched     : List Fetched := []
  /-- PERIOD_CCLK (09 Q_PERIOD, R272; reset 7,500) -/
  periodCclk  : BitVec 32 := 7500
  /-- PERIODS, LATE_COUNT, LATE_PERIODS (09 Q_PERIOD_STATUS; reset 0) -/
  periods     : BitVec 32 := 0
  lateCount   : BitVec 16 := 0
  latePeriods : BitVec 16 := 0
  /-- the period's release point (09 R272; reset 0) -/
  releasePt   : BitVec 32 := 0
  /-- µs at which the present period began (09 R272; reset 0) -/
  periodStart : Nat := 0
  /-- VECTOR (14 Q_IRQ; reset 0) -/
  vector      : BitVec 4 := 0
  /-- the ring fetch waits for a translation, or faulted (10 R294; reset 0) -/
  ringFault   : Bool := false
  /-- the drain is an abort (09 R253; reset 0) -/
  aborting    : Bool := false
  /-- ring counts of descriptors that are to complete LATE once they have been read (09 R273; reset none) -/
  lateOwed    : List (BitVec 32) := []
  deriving DecidableEq, Repr, Inhabited

/-- A command slot (09 CTX_CMD_STATUS). -/
structure CmdSlot where
  /-- CODE, LAST_CMD, SEQ (09 CTX_CMD_STATUS; reset 0) -/
  code    : Byte := 0
  lastCmd : Byte := 0
  seq     : BitVec 32 := 0
  deriving DecidableEq, Repr, Inhabited

/-- Where a transfer of a run stands. -/
inductive XferStage where
  /-- waiting for its source's data -/
  | reading
  /-- data in hand, waiting to be written -/
  | ready
  /-- written, waiting for write responses or an ACK -/
  | writing
  /-- acknowledged: final at the destination -/
  | done
  /-- path-lost or timed out, to be reissued with its chunk (08 R228) -/
  | lost
  /-- answered with an error: never final at the destination (09 R266) -/
  | failed
  deriving DecidableEq, Repr, Inhabited

/-- A piece of a descriptor's work of at most 4 KiB (09 R264). -/
structure Xfer where
  id      : Nat
  /-- number of its chunk -/
  chunk   : Nat := 0
  /-- offset from the start of the operation -/
  off     : Nat
  len     : Nat
  stage   : XferStage
  /-- the transfer that goes on where this one ends, and whose first bytes the same reads bring (02 R32) -/
  mate    : Option Nat := none
  /-- where its bytes come from; none for a FILL -/
  src     : Option Place := none
  /-- where its bytes go; none for a DIGEST -/
  dst     : Option Place := none
  /-- source bytes received, by offset within the transfer -/
  got     : Tab (List Byte) := []
  /-- memory accesses outstanding -/
  pending : Nat := 0
  /-- an access failed -/
  failed  : Bool := false
  deriving DecidableEq, Repr, Inhabited

/-- A chunk on a mover (09 R259, R266). -/
structure ChunkJob where
  mover  : Nat
  /-- number of the chunk -/
  no     : Nat
  /-- bytes of the chunk handed to transfers -/
  issued : Nat := 0
  len    : Nat
  /-- the context's epoch under which its use is counted (10 R289) -/
  use    : Option (BitVec 16) := none
  /-- entries taken for it (10 R289) -/
  ranges : List Range := []
  deriving DecidableEq, Repr, Inhabited

/-- Where a running descriptor stands (09 R265). -/
inductive RunPhase where
  /-- its first status record write is out -/
  | starting
  /-- its action runs -/
  | active
  /-- its WAIT, FENCE or TRIGGER holds the queue (09 R258) -/
  | holding
  /-- it waits for a root-of-trust answer -/
  | waitRot
  /-- the destination of a failed SEALED_COPY is being zeroed (09 R268) -/
  | zeroing
  /-- stopped by a translation fault (09 R251) -/
  | stopped
  /-- issues nothing more and waits for its requests (09 R247 step 3) -/
  | aborting
  /-- PROGRESS and RESULT are being written -/
  | ending
  /-- bytes 0 to 7 are being written -/
  | doneWrite
  deriving DecidableEq, Repr, Inhabited

/-- A running descriptor, of a queue or of a triggered operation. -/
structure Run where
  id        : Nat
  /-- its queue; `none` for a triggered operation -/
  queue     : Option QueueNo
  /-- the queue that gives the completion interrupt's vector (14 R382) -/
  irqQueue  : QueueNo
  ctx       : CtxNo
  part      : PartNo
  /-- its ring count -/
  index     : BitVec 32
  /-- the 64 bytes of the descriptor -/
  desc      : List Byte
  phase     : RunPhase := .starting
  /-- PROGRESS -/
  progress  : Nat := 0
  /-- RESULT -/
  resBytes  : List Byte := []
  status    : Byte := 0
  restarted : Bool := false
  /-- the fault met is this run's own, not another's of its queue (09 R253) -/
  faulted   : Bool := false
  /-- its queue has been switched out: it stops at its next chunk boundary (09 R251) -/
  stopping  : Bool := false
  /-- writes of its status record not yet answered -/
  statusPending : Nat := 0
  /-- a write of its status record that waits for a translation -/
  statusWait : Option StatusPoint := none
  /-- its status record cannot be written (09 R261) -/
  statusLost : Bool := false
  /-- entries held since queue time, for the range buffer of the mover that takes its first chunk (10 R287, R288) -/
  heldRanges : List Range := []
  /-- its period has ended: it counts no more among its queue's running descriptors (09 R273) -/
  detached  : Bool := false
  /-- local places that a SEALED_COPY has written, and their lengths (09 R268) -/
  wrote     : List (Nat × Nat) := []
  /-- the mover of a triggered operation (09 R270) -/
  mover     : Option Nat := none
  /-- its PREFETCH or ADVISE has a request outstanding (10 R301) -/
  walking   : Bool := false
  /-- number of the next chunk to be taken by a mover -/
  nextChunk : Nat := 0
  /-- chunks on movers -/
  chunks    : List ChunkJob := []
  /-- chunks complete beyond PROGRESS -/
  doneChunks : List Nat := []
  /-- its transfers, in ascending offset -/
  xfers     : List Xfer := []
  /-- the status that its requests have decided, once one has failed -/
  failed    : Option Byte := none
  /-- it waits for a tracker (14 PAR_TRACKERS WAITS) -/
  waitTrk   : Bool := false
  /-- partial watermark of a DIGEST, over complete chunks (12 R351) -/
  wm        : Word := 0
  /-- source bytes of a SHA-384 DIGEST so far -/
  shaBytes  : List Byte := []
  /-- the AES key, held in its movers' key registers (16 R443) -/
  key       : Option (List Byte) := none
  /-- PREFETCH and ADVISE: the next address not yet covered -/
  cover     : Nat := 0
  /-- the plan slot of a COLLECTIVE -/
  plan      : Option Nat := none
  /-- µs at which a WAIT began -/
  since     : Nat := 0
  /-- the epoch under which its present use is counted (10 R289) -/
  use       : Option (BitVec 16) := none
  /-- the completion waits for a chunk reissue (08 R228) -/
  fencing   : Bool := false
  deriving DecidableEq, Repr, Inhabited

/-- An armed triggered operation (09 R270). -/
structure Armed where
  id        : Nat
  ctx       : CtxNo
  part      : PartNo
  queue     : QueueNo
  counter   : Nat
  threshold : Word
  desc      : List Byte
  /-- its condition has held -/
  fired     : Bool := false
  deriving DecidableEq, Repr, Inhabited

structure Cq where
  /-- contexts (09 R245; reset FREE) -/
  ctxs      : Tab Ctx := []
  /-- queues (09 R250; reset HALTED, unbound) -/
  queues    : Tab Queue := []
  /-- command slots 0 to 16 (09 CTX_CMD_STATUS; reset 0) -/
  slots     : Tab CmdSlot := []
  /-- CNT_VALUE (09; reset 0) -/
  counters  : Tab Word := []
  /-- DOORBELL_IGNORED, DOORBELL_BAD, TRIG_WAITS, STATE_REFUSALS (09 Q_EVENTS; reset 0) -/
  ignored       : BitVec 16 := 0
  bad           : BitVec 16 := 0
  trigWaits     : BitVec 16 := 0
  stateRefusals : BitVec 16 := 0
  /-- armed triggered operations (09 R270; reset none); ARMED is their number -/
  armed     : List Armed := []
  /-- PEAK of TRIG_STATUS (09; reset 0) -/
  armedPeak : Nat := 0
  /-- running descriptors (09 R258; reset none) -/
  runs      : List Run := []
  /-- the next id given to a run, a transfer or an armed operation (a model field) -/
  nextId    : Nat := 0
  /-- deficits of the mover scheduler, by partition (14 R387; reset 0) -/
  deficit   : Tab Nat := []
  /-- partitions in that deficit round robin (14 R387; reset none) -/
  ring      : List Nat := []
  /-- queue served last by the movers, plus 1, by partition (14 R391; reset 0, log entry 1) -/
  lastQueue : Tab Nat := []
  deriving DecidableEq, Repr, Inhabited

/-! ### Translation (10) -/

/-- Who needs a translation (10 R294). -/
inductive XltNeed where
  /-- a chunk on a mover; without a mover, the action of a run before or without its movers -/
  | chunk (run : Nat) (mover : Option Nat)
  | startRec (q : QueueNo) (index : BitVec 32)
  | ring (q : QueueNo)
  | statusRec (run : Nat)
  | aperture (id : Nat)
  | headbox (run : Nat)
  | walk (run : Nat)
  | queueTime (q : QueueNo) (index : BitVec 32)
  deriving DecidableEq, Repr, Inhabited

/-- An outstanding miss request (10 R281, R283, R472). -/
structure Miss where
  tag     : Byte
  /-- 0 MISS, 1 PREFETCH, 2 ADVISE -/
  kind    : BitVec 2
  access  : BitVec 3
  retry   : Bool := false
  advice  : BitVec 4 := 0
  ctx     : CtxNo
  /-- GEN and epoch of the context when it was sent (10 R472) -/
  gen     : BitVec 16
  epoch   : BitVec 16
  vpn     : Nat
  limit   : Nat := 0
  /-- the address that missed -/
  addr    : Nat
  needs   : List XltNeed
  deriving DecidableEq, Repr, Inhabited

/-- An INVALIDATE slot (10 R290, R291). -/
structure InvSlot where
  /-- ADDR, LENGTH (10 XLT_INV_ADDR, XLT_INV_LEN; reset 0) -/
  addr    : Word := 0
  len     : BitVec 45 := 0
  /-- CODE, BUSY, DONE_SEQ (10 XLT_INV_STATUS; reset 0) -/
  code    : Byte := 0
  busy    : Bool := false
  doneSeq : BitVec 32 := 0
  /-- CONTEXT and IRQ of the command under way (10 XLT_INV_CMD; reset 0) -/
  ctx     : CtxNo := 0
  irq     : Bool := false
  deriving DecidableEq, Repr, Inhabited

/-- A partition's fault queue (10 R296). -/
structure FaultQueue where
  /-- BASE bits [47:6] (10 XLT_FQ_BASE; reset 0) -/
  base      : BitVec 42 := 0
  /-- FQ_LOG2 (10 XLT_FQ_CFG; reset 0) -/
  log2      : BitVec 5 := 0
  /-- HEAD, TAIL (10 XLT_FQ_PTRS; reset 0) -/
  head      : BitVec 32 := 0
  tail      : BitVec 32 := 0
  /-- OVERFLOW_COUNT, OVERFLOWED (10 XLT_FQ_OVF; reset 0) -/
  ovfCount  : BitVec 32 := 0
  overflowed : Bool := false
  /-- SEQ: faults of the partition since cold reset (10 R295; reset 0) -/
  seq       : BitVec 32 := 0
  /-- records whose write has not been answered: context and record, oldest first (10 R299; reset none) -/
  writing   : List (CtxNo × List Byte) := []
  deriving DecidableEq, Repr, Inhabited

/-- An import window (10 R303). -/
structure Window where
  /-- BASE bits [63:12] (10 XLT_WIN_BASE; reset 0) -/
  base         : BitVec 52 := 0
  /-- PAGES (10 XLT_WIN_SIZE; reset 0) -/
  pages        : BitVec 32 := 0
  /-- bits [47:0] of XLT_WIN_MAP: LOCAL_PPN in [47:12] or FIRST_COUNTER in [15:0] (10; reset 0) -/
  map          : BitVec 48 := 0
  /-- SRC_VALUE, SRC_MASK (10 XLT_WIN_SRC; reset 0) -/
  srcValue     : BitVec 17 := 0
  srcMask      : BitVec 17 := 0
  /-- STATE: 0 DISABLED, 1 ENABLED, 2 WITHDRAWING (10 XLT_WIN_CTRL; reset 0) -/
  state        : BitVec 2 := 0
  /-- RIGHTS, KIND (10 XLT_WIN_CTRL; reset 0) -/
  rights       : BitVec 3 := 0
  counter      : Bool := false
  deriving DecidableEq, Repr, Inhabited

structure Xlt where
  /-- XLT_TIMEOUT (10 XLT_CTRL, R284; reset 100) -/
  timeout      : BitVec 14 := 100
  /-- the range cache, most recently used first (10 R278; reset empty) -/
  cache        : List Range := []
  /-- the movers' range buffers, most recently used first, 32 entries each; key: mover (10 R278; reset empty) -/
  buffers      : Tab (List Range) := []
  /-- outstanding miss requests (10 R283; reset none); OUTSTANDING is their number -/
  misses       : List Miss := []
  /-- misses waiting for a tag, in R278's order of kinds (10 R283; reset none) -/
  waiting      : List Miss := []
  /-- tags set aside after a timeout, each with the place of its miss in R278's order (10 R283, R284; reset none) -/
  setAside     : List (Byte × Nat) := []
  /-- replied entries that wait for one without a range buffer who asked for them (10 R278; reset none) -/
  given        : List (XltNeed × Range) := []
  /-- CAPACITY lost to retirement (10 XLT_STATUS, R280; reset 0) -/
  capacityLost : Nat := 0
  /-- TRANSIENT, LASTING, STRAY_REPLIES, STALE_RETRANS (10 XLT_EVENTS; reset 0) -/
  transient    : BitVec 16 := 0
  lasting      : BitVec 16 := 0
  strayReplies : BitVec 16 := 0
  staleRetrans : BitVec 16 := 0
  /-- MISSES (10 XLT_MISSES; reset 0) -/
  missCount    : BitVec 48 := 0
  /-- PREFETCH_FAILS, RETIRED, REPLY_ERRORS (10 XLT_EVENTS2; reset 0) -/
  prefetchFails : BitVec 16 := 0
  retired       : BitVec 16 := 0
  replyErrors   : BitVec 16 := 0
  /-- INVALIDATE slots 0 to 16 (10; reset 0) -/
  inv          : Tab InvSlot := []
  /-- fault queues, by partition (10 R296; reset disabled) -/
  fq           : Tab FaultQueue := []
  /-- RANGE_CACHE_QUOTA lost to retirement, by partition (10 XLT_PAR QUOTA, R280; reset 0) -/
  quotaLost    : Tab Nat := []
  /-- import windows (10 R303; reset DISABLED) -/
  windows      : Tab Window := []
  deriving DecidableEq, Repr, Inhabited

/-! ### Collectives (11) -/

/-- An axis record of a plan (11 R308). -/
structure Axis where
  size  : Nat := 0
  pos   : Nat := 0
  plus  : BitVec 32 := 0
  minus : BitVec 32 := 0
  deriving DecidableEq, Repr, Inhabited

/-- A plan's fields (11 R308), with its COLLECTIVE's operands (11 R311). -/
structure PlanDef where
  collId     : BitVec 16 := 0
  kind       : Nat := 0
  dtype      : Nat := 0
  axes       : BitVec 8 := 0
  slotLog2   : Nat := 0
  slots      : Nat := 0
  depth      : Nat := 0
  cntBase    : Nat := 0
  chunkBytes : Nat := 0
  feltBase   : Nat := 0
  feltSize   : Nat := 0
  stepLimit  : Nat := 0
  axisX : Axis := {}
  axisY : Axis := {}
  axisZ : Axis := {}
  src    : Nat := 0
  dst    : Nat := 0
  length : Nat := 0
  round  : Byte := 0
  deriving DecidableEq, Repr, Inhabited

/-- A piece arriving in, or held in, an IN slot (11 R321, R325). -/
structure Piece where
  seq     : Nat
  /-- bytes of the piece -/
  size    : Nat := 0
  /-- the carried WATERMARK, from run 0 -/
  wm      : Word := 0
  /-- bytes landed of each run (key) -/
  runs    : Tab Nat := []
  /-- the port run 0 came by; 255 for none (15 R430, KIND 6) -/
  port    : Nat := 255
  /-- handed to the Beaters -/
  handed  : Bool := false
  /-- a Beater has finished it and every check has passed -/
  passed  : Bool := false
  /-- the Beater's result, until it is released (12 R337) -/
  out     : List Byte := []
  /-- its store to DST has been made, under this number -/
  store   : Option Nat := none
  deriving DecidableEq, Repr, Inhabited

/-- A piece sent, or ready to be sent, with the bytes of its source slot or buffer (11 R321). -/
structure OutPiece where
  seq   : Nat := 0
  wm    : Word := 0
  /-- sent in an allgather -/
  ag    : Bool := false
  bytes : List Byte := []
  deriving DecidableEq, Repr, Inhabited

/-- A slot of a LOCAL ring being staged from SRC, or held (11 R319). -/
structure LocalSlot where
  /-- number of the piece on the ring, from the start of the round -/
  idx   : Nat
  chunk : Nat
  /-- number of the piece within its chunk, in the order of use -/
  item  : Nat
  /-- number of its transfers -/
  job   : Nat
  va    : Nat
  size  : Nat
  ready : Bool := false
  /-- SEQ under which it was sent: it is kept until a credit covers it (11 R321) -/
  sent  : Option Nat := none
  /-- the watermark the mover computed as it staged the piece (12 R352) -/
  wm    : Word := 0
  deriving DecidableEq, Repr, Inhabited

/-- A store to DST under way (11 R314). -/
structure StoreOp where
  job   : Nat
  va    : Nat
  chunk : Nat
  /-- the sub-ring's r -/
  ring  : Nat
  bytes : List Byte
  deriving DecidableEq, Repr, Inhabited

/-- One sub-ring of one level (11 R314). -/
structure SubRing where
  /-- upstream and downstream endpoints, resolved at the start (11 R307) -/
  up        : BitVec 17 := 0
  down      : BitVec 17 := 0
  /-- position in the fixed order of R318 (11 R318; 0 at the start) -/
  op        : Nat := 0
  /-- the present operation has started -/
  started   : Bool := false
  /-- sends made and pieces consumed in the present operation -/
  sends     : Nat := 0
  takes     : Nat := 0
  /-- SEQ of the next piece to send, unbounded (11 R321) -/
  nextSend  : Nat := 0
  /-- credited LIMIT, 0 before the OPEN credit (11 R321, R322) -/
  limit     : Nat := 0
  /-- the OPEN credit of the round has come -/
  opened    : Bool := false
  /-- the oldest sent piece not covered by a credit -/
  oldest    : Nat := 0
  /-- SEQ of the next piece to consume -/
  nextTake  : Nat := 0
  /-- LIMIT given to the upstream member -/
  given     : Nat := 0
  /-- pieces arriving or held in IN slots -/
  pieces    : List Piece := []
  /-- pieces in OUT slots ready to send, in order -/
  ready     : List OutPiece := []
  /-- pieces sent and not covered by a credit -/
  unacked   : List OutPiece := []
  /-- the LOCAL ring (11 R319) -/
  locals    : List LocalSlot := []
  /-- the chunk, the piece within it and the piece of the round to be staged next -/
  stageChunk : Nat := 0
  stageItem  : Nat := 0
  stageIdx   : Nat := 0
  /-- chunks whose allgather at level 0 waits for its stores (11 R317) -/
  agWait    : List Nat := []
  /-- sends of pieces resent once already (11 R326) -/
  resent    : List Nat := []
  /-- µs at which the present wait began (11 R327) -/
  waitSince : Nat := 0
  deriving DecidableEq, Repr, Inhabited

/-- A plan slot (11 R307). -/
structure Plan where
  /-- STATE: 0 free, 1 opening, 2 running, 3 ending (11 HBX_PLAN; reset 0) -/
  state      : BitVec 3 := 0
  /-- COLL_ID, ROUND and the plan's own fields (11 HBX_PLAN; reset 0) -/
  defn       : PlanDef := {}
  /-- PARTITION, CONTEXT, QUEUE (11 HBX_PLAN; reset 0) -/
  part       : PartNo := 0
  ctx        : CtxNo := 0
  queue      : QueueNo := 0
  /-- its COLLECTIVE's run (reset 0) -/
  run        : Nat := 0
  /-- bases of the 32 counters at the start of the round (11 R317; reset none) -/
  bases      : Tab Word := []
  /-- sub-rings, key 4 × level + r (11 R314; reset none) -/
  rings      : Tab SubRing := []
  /-- bytes of DST final, key 4 × chunk + r (11 R317; reset none) -/
  written    : Tab Nat := []
  /-- chunks counted in WRITTEN (11 R317; reset 0) -/
  chunksDone : Nat := 0
  /-- PIECES consumed by this member's Beaters (11 R334; reset 0) -/
  pieces     : Nat := 0
  /-- RESENDS, RECOMPUTES (11 HBX_PLAN_CNT; reset 0) -/
  resends    : Nat := 0
  recomputes : Nat := 0
  /-- ABORT_CAUSE (11 R334; reset 0) -/
  abortCause : Byte := 0
  /-- pages of the fabric virtual address space whose staging or storing faulted (11 R330; reset none) -/
  faulted    : List Nat := []
  /-- stores to DST under way (11 R314; reset none) -/
  stores     : List StoreOp := []
  /-- the member's own finished pieces of a plan of one level, key 65,536 × (4 × chunk + r) + q (reset none) -/
  own        : Tab (List Byte) := []
  /-- uses begun for it, by epoch (10 R289; reset none) -/
  uses       : Tab Nat := []
  /-- the sub-ring whose piece a Beater took last, plus 1 (14 R393; reset 0) -/
  lastRing   : Nat := 0
  /-- COMPARE: watermarks of the parts of SRC digested so far (11 R332; reset none) -/
  parts      : List Word := []
  deriving DecidableEq, Repr, Inhabited

/-- A piece given to a Beater (12 R336). -/
structure BeatJob where
  plan   : Nat
  /-- key of the sub-ring, 4 × level + r -/
  ring   : Nat
  seq    : Nat
  /-- an addition, or a copy -/
  add    : Bool
  /-- 0 first attempt, 1 the repeat of R354 -/
  repeated : Bool := false
  /-- the check whose failure is being repeated -/
  failed : Option CheckKind := none
  /-- the Beater that the repeat avoids (12 R354) -/
  avoid  : Nat := 8
  /-- the failure being repeated was injected -/
  inj : Bool := false
  /-- the result of a piece whose sending watermark is computed again from the same bytes (12 R354) -/
  held : Option (List Byte) := none
  /-- the repeat is injected too (15 R430, KIND 5 with UNIT bit 7) -/
  spoil  : Bool := false
  deriving DecidableEq, Repr, Inhabited

structure Beater where
  /-- STATE: 0 gated, 1 in service, 2 failed self-test (12 BTR_UNIT; reset 0) -/
  state    : BitVec 2 := 0
  /-- GRANULES (12 BTR_UNIT; reset 0) -/
  granules : BitVec 48 := 0
  /-- the piece it works on (12 R336; reset none) -/
  job      : Option BeatJob := none
  deriving DecidableEq, Repr, Inhabited

structure Hbx where
  /-- the 16 plan slots (11 R307; reset free) -/
  plans      : Tab Plan := []
  /-- ARMED_PEAK (11 HBX_STATUS; reset 0) -/
  armedPeak  : Nat := 0
  /-- RESENDS, STALE, ABORTS_SENT, ABORTS_RCVD (11 HBX_EVENTS; reset 0) -/
  resends    : BitVec 16 := 0
  stale      : BitVec 16 := 0
  abortsSent : BitVec 16 := 0
  abortsRcvd : BitVec 16 := 0
  /-- MISMATCH, DUPLICATES, STEP_LIMITS, PLAN_REFUSED (11 HBX_EVENTS2; reset 0) -/
  mismatch    : BitVec 16 := 0
  duplicates  : BitVec 16 := 0
  stepLimits  : BitVec 16 := 0
  planRefused : BitVec 16 := 0
  deriving DecidableEq, Repr, Inhabited

structure Btr where
  /-- the eight Beaters (12 R335; reset gated) -/
  units      : Tab Beater := []
  /-- LICENSED, FAILED (12 BTR_STATUS; reset 0) -/
  licensed   : Byte := 0
  failed     : Byte := 0
  /-- WM_TRANSIENT, PL_TRANSIENT, TX_WM_TRANSIENT, LASTING (12 BTR_EVENTS; reset 0) -/
  wmTransient   : BitVec 16 := 0
  plTransient   : BitVec 16 := 0
  txWmTransient : BitVec 16 := 0
  lasting       : BitVec 16 := 0
  /-- ADD_GRANULES, COPY_GRANULES (12 BTR_WORK_ADD, _COPY; reset 0) -/
  addGranules  : BitVec 48 := 0
  copyGranules : BitVec 48 := 0
  /-- NAN_OUT, SATURATED, MX_NAN_BLOCKS, SCALE_CLAMPED (12 BTR_SPECIALS; reset 0) -/
  nanOut       : BitVec 16 := 0
  saturated    : BitVec 16 := 0
  mxNanBlocks  : BitVec 16 := 0
  scaleClamped : BitVec 16 := 0
  /-- BTR_LAST_FAIL (12; reset 0) -/
  lastFail     : Word := 0
  /-- BUSY, PASSED, LAST_US (12 BTR_SELFTEST; reset 0) -/
  busy   : Bool := false
  passed : Byte := 0
  lastUs : BitVec 16 := 0
  /-- pieces waiting for a Beater, oldest first (14 R393; reset none) -/
  queue  : List BeatJob := []
  /-- deficits by partition (14 R387; reset 0) -/
  deficit : Tab Nat := []
  /-- partitions in that deficit round robin (14 R387; reset none) -/
  ring    : List Nat := []
  /-- plan slot served last, plus 1, by partition (14 R393; reset 0) -/
  lastPlan : Tab Nat := []
  deriving DecidableEq, Repr, Inhabited

/-! ### The Vat (13) -/

/-- One of the two repair map entries (13 R359). -/
structure RepairEntry where
  logical : BitVec 6 := 0
  valid   : Bool := false
  /-- false: bank 48; true: bank 49 -/
  spare   : Bool := false
  deriving DecidableEq, Repr, Inhabited

structure Vat where
  /-- the bytes of the Vat; an unlisted address reads 0 (13 R358, R372; log entry 9) -/
  mem         : List Host.Cell := []
  /-- STATE: 0 active, 1 retention, 2 testing, 3 waking (13 VAT_STATUS; reset 2) -/
  state       : BitVec 2 := 2
  /-- VAT_REPAIR (13 R359; reset 0) -/
  map0        : RepairEntry := {}
  map1        : RepairEntry := {}
  spareFailed : BitVec 2 := 0
  /-- the spares have been tested, so SPARES_FREE counts them (13 VAT_STATUS; reset 0) -/
  tested      : Bool := false
  /-- FAILED (13 VAT_BANK_FAIL; reset 0) -/
  bankFail    : BitVec 50 := 0
  /-- CORRECTED, UNCORRECTABLE, SCRUB_PASSES (13 VAT_ECC; reset 0) -/
  corrected     : BitVec 32 := 0
  uncorrectable : BitVec 16 := 0
  scrubPasses   : BitVec 16 := 0
  /-- the row the scrubber reads next (13 R371; reset 0) -/
  scrubRow    : Nat := 0
  /-- VAT_ECC_LAST (13; reset 0) -/
  eccLast     : BitVec 23 := 0
  /-- words and bits corrected before, for R370's second time (13 R370; reset none) -/
  seenBits    : List (Nat × Nat × Nat × Nat) := []
  /-- MODE, BUSY, PASSED, LAST_US (13 VAT_MARCH; reset 0) -/
  mode     : Bool := false
  busy     : Bool := false
  passed   : Bool := false
  lastUs   : BitVec 16 := 0
  /-- the march under way preserves the contents (13 R374; reset 0) -/
  preserving : Bool := false
  /-- CONFLICT_CYCLES, by master (13 VAT_MASTER, R367; reset 0) -/
  conflicts  : Tab (BitVec 32) := []
  /-- VIOLATIONS, by master (13 VAT_MASTER, R365; reset 0) -/
  violations : Tab (BitVec 16) := []
  /-- ADDR bits [24:3] (13 VAT_WIN_ADDR; reset 0) -/
  winAddr    : BitVec 22 := 0
  deriving DecidableEq, Repr, Inhabited

/-! ### Partitions and interrupts (14) -/

structure Vector where
  /-- ADDR (14 IRQ_VEC_ADDR; reset 0) -/
  addr    : Word := 0
  /-- TAG, COUNT_THRESH, TIME_US, MASK (14 IRQ_VEC_CTRL; reset 0, 1, 0, 1) -/
  tag     : BitVec 16 := 0
  thresh  : BitVec 8 := 1
  timeUs  : BitVec 12 := 0
  mask    : Bool := true
  /-- PENDING, EVENTS (14 IRQ_VEC_STATUS; reset 0) -/
  pending : BitVec 32 := 0
  events  : BitVec 24 := 0
  /-- the causes of the pending events: `none` when none is pending, 0xF when mixed (14 R384) -/
  cause   : Option (BitVec 4) := none
  /-- the time limit of the oldest pending event has passed (14 R383; reset 0) -/
  due     : Bool := false
  deriving DecidableEq, Repr, Inhabited

structure Partition where
  /-- STATE: 0 ABSENT, 1 READY, 2 RESETTING (14 PAR_STATE; reset 0, then the image) -/
  state      : BitVec 2 := 0
  /-- STEP, LAST_CODE, RESETS (14 PAR_STATE; reset 0) -/
  step       : BitVec 4 := 0
  lastCode   : Byte := 0
  resets     : BitVec 16 := 0
  /-- TRACKER_QUOTA lost to retirement (14 PAR_TRACKERS QUOTA, R392; reset 0) -/
  quotaLost  : Nat := 0
  /-- WAITS (14 PAR_TRACKERS; reset 0) -/
  waits      : BitVec 16 := 0
  /-- LOCAL_FLITS (14 PAR_PORT_FLITS; reset 0) -/
  localFlits : BitVec 48 := 0
  /-- GRANULES (14 PAR_BEATER; reset 0) -/
  granules   : BitVec 48 := 0
  /-- FAULT_VEC, INV_VEC, ERROR_VEC, RESET_VEC (14 PAR_IRQ_MAP; reset 0) -/
  faultVec : BitVec 4 := 0
  invVec   : BitVec 4 := 0
  errorVec : BitVec 4 := 0
  resetVec : BitVec 4 := 0
  /-- SENT, DISCARDED, DISABLED_DROPS (14 PAR_IRQ_EVENTS; reset 0) -/
  sent      : BitVec 32 := 0
  discarded : BitVec 16 := 0
  drops     : BitVec 16 := 0
  deriving DecidableEq, Repr, Inhabited

structure Par where
  /-- the 16 partitions (14 R378; reset ABSENT) -/
  parts        : Tab Partition := []
  /-- vectors, key 16p + v (14 R383; reset as the registers) -/
  vectors      : Tab Vector := []
  /-- messages made and not transferred, oldest first (14 R385; reset none) -/
  messages     : List IrqMsg := []
  /-- ENGINE_BUSY, LAST_CODE, ENGINE_RESETS (14 PAR_CTRL; reset 0) -/
  engineBusy   : Bool := false
  lastCode     : BitVec 4 := 0
  engineResets : BitVec 16 := 0
  /-- the drain ordered during an engine-domain reset starts after it (15 R428; reset none) -/
  drainAfter   : Option (BitVec 4) := none
  deriving DecidableEq, Repr, Inhabited

/-! ### Errors, hangs, capture (15) -/

/-- ERR_COUNT_c (15). -/
structure ErrCount where
  events  : BitVec 32 := 0
  maxSev  : BitVec 3 := 0
  records : BitVec 24 := 0
  deriving DecidableEq, Repr, Inhabited

/-- An injection under way (15 R430). -/
structure Inject where
  kind  : BitVec 4
  unit  : Byte
  left  : Nat
  deriving DecidableEq, Repr, Inhabited

/-- A blocked queue as the hang detector saw it at its last scan (15 R413, R414). -/
structure Blocked where
  queue    : Nat
  index    : BitVec 32
  counter  : Nat
  value    : Word
  producer : Nat
  /-- positive scans in a row of the cycle it lies on -/
  positive : Nat := 0
  deriving DecidableEq, Repr, Inhabited

/-- A capture record's place (15 R421). -/
structure CapturePlace where
  seq   : BitVec 32
  first : Nat
  units : Nat
  deriving DecidableEq, Repr, Inhabited

/-- A word of an internal RAM or datapath that may hold flipped bits, beside the words of R430's groups and the Vat
(15 R410). -/
inductive RamWord where
  | openRun (source tag : BitVec 32)
  /-- an entry of a port's Broke store -/
  | broke (port : Nat)
  /-- what a port's transit datapath carries -/
  | transit (port : Nat)
  | rank (r : Nat)
  | tracker (i : Nat)
  /-- a word of the engine level that a run is held in -/
  | action (run : Nat)
  /-- the key registers of the movers that run a SEALED_COPY (16 R443) -/
  | key (run : Nat)
  /-- a word of steward memory -/
  | steward
  deriving DecidableEq, Repr, Inhabited

structure Err where
  /-- HANG_SCAN, INJECT_ENABLE, FAULT_STALL_MS (15 ERR_CTRL; reset 1, 0, 100) -/
  hangScan     : Bool := true
  injectEnable : Bool := false
  faultStallMs : BitVec 16 := 100
  /-- DRAIN_STATE, SUSPECT, SUSPECT_CAUSE, BANKS_MARKED, SUSPECT_SEQ (15 ERR_STATUS; reset 0) -/
  drainState   : BitVec 2 := 0
  suspect      : Bool := false
  suspectCause : BitVec 4 := 0
  banksMarked  : Bool := false
  suspectSeq   : BitVec 32 := 0
  /-- NEXT_SEQ, OVERWRITTEN (15 ERR_LOG_PTRS; reset 1, 0) -/
  nextSeq      : BitVec 32 := 1
  overwritten  : BitVec 16 := 0
  /-- records held in steward memory until phase 2 ends, oldest first (15 R406; reset none) -/
  heldRecs     : List (List Byte) := []
  /-- SCANS, POSITIVE, DECLARED, FAULT_STALLS (15 ERR_HANG; reset 0) -/
  scans       : BitVec 16 := 0
  positive    : BitVec 16 := 0
  declared    : BitVec 16 := 0
  faultStalls : BitVec 16 := 0
  /-- blocked queues at the last scan (15 R414; reset none) -/
  blocked     : List Blocked := []
  /-- LAST_SEQ, OVERWRITTEN (15 ERR_CAPTURE; reset 0) -/
  capSeq         : BitVec 32 := 0
  capOverwritten : BitVec 16 := 0
  /-- records in the capture area, oldest first; LAST_UNIT, LAST_UNITS are the last one's (15 R421; reset none) -/
  captures       : List CapturePlace := []
  /-- RESTARTS, HELD, RESTARTING, LAST_RESTART_MS (15 ERR_STEWARD; reset 0) -/
  restarts     : BitVec 16 := 0
  stewardHeld  : Bool := false
  restarting   : Bool := false
  lastRestart  : BitVec 32 := 0
  /-- µs stamps of watchdog firings (15 R420; reset none) -/
  firedAt      : List Nat := []
  /-- µs of the last heartbeat (15 R418; reset 0) -/
  heartbeatAt  : Nat := 0
  /-- KIND, UNIT, COUNT of ERR_INJECT as last written (15 ERR_INJECT, WO; reset 0) -/
  injectSet    : Inject := ⟨0, 0, 0⟩
  /-- KIND, UNIT, COUNT as armed; ACTIVE while present (15 ERR_INJECT; reset none) -/
  inject       : Option Inject := none
  /-- INJECTED (15 ERR_INJECT; reset 0) -/
  injected     : BitVec 16 := 0
  /-- LANES, TWINS, DETOURS, TRACKERS_RETIRED, CACHE_RETIRED (15 ERR_TAKEOVER; reset 0) -/
  takeLanes    : BitVec 8 := 0
  takeTwins    : BitVec 8 := 0
  takeDetours  : BitVec 8 := 0
  takeTrackers : BitVec 16 := 0
  takeCache    : BitVec 16 := 0
  /-- ERR_COUNT_c, c = 1 to 14 (15; reset 0) -/
  counts       : Tab ErrCount := []
  /-- class × 16 + UNIT_KIND of each severity-0 record of the present 1 s window, with its µs (15 R407; reset none) -/
  noteAt       : Tab Nat := []
  /-- µs stamps of uncorrectable engine errors (15 R425; reset none) -/
  uncorrAt     : List Nat := []
  /-- flipped bits of words of the internal RAMs and datapaths, among the 137 stored bits (02 R30, 15 R410; reset none; no
  command flips one, log entry 119) -/
  flips        : List (RamWord × List Nat) := []
  /-- words and bits corrected before (15 R410; reset none) -/
  shownBits    : List (RamWord × Nat) := []
  /-- a lasting failure under R354 happened in the step under way; false between steps (15 R425; a
  model field) -/
  suspectDue   : Bool := false
  deriving DecidableEq, Repr, Inhabited

/-! ### Trust, sideband, steward (16) -/

/-- OP_STATE of one source (16 R451). -/
structure OpState where
  seq    : BitVec 32 := 0
  cmd    : Byte := 0
  /-- 0 none, 1 running, 2 done -/
  state  : Byte := 0
  status : Byte := 0
  res    : Byte := 0
  deriving DecidableEq, Repr, Inhabited

/-- A measurement waiting for its turn (16 R438). -/
structure Measure where
  index  : BitVec 32
  kind   : Byte
  record : List Byte
  /-- the run that waits for it: a COLLECTIVE or a DIGEST -/
  run    : Option Nat := none
  deriving DecidableEq, Repr, Inhabited

structure Sec where
  /-- requests outstanding at the root of trust (16 R432; reset none); ROT_PENDING is their number -/
  rot          : List RotReq := []
  /-- requests that wait while 16 are outstanding, oldest first (16 R432; reset none) -/
  rotWaiting   : List RotReq := []
  /-- the next TAG for the root of trust (16 R431; reset 0, log entry 1) -/
  rotTag       : BitVec 16 := 0
  /-- POLICY, POLICY_SET (16 SEC_STATUS, R433; reset 0x3F, 0) -/
  policy       : BitVec 6 := 0x3F
  policySet    : Bool := false
  /-- NEXT_INDEX, MEAS_FAILED (16 SEC_MEAS; reset 0) -/
  measIndex    : BitVec 32 := 0
  measFailed   : BitVec 16 := 0
  /-- measurements not yet answered, oldest first; the first may be at the root of trust (16 R438; reset none) -/
  measures     : List Measure := []
  /-- the table of plan digests with their partitions, oldest first (16 R439; reset empty) -/
  planTable    : List (List Byte × Nat) := []
  /-- ADMITTED, ADMIT_FENCED, ROT_REPEATS, ROT_LASTING (16 SEC_EVENTS; reset 0) -/
  admitted    : BitVec 16 := 0
  admitFenced : BitVec 16 := 0
  rotRepeats  : BitVec 16 := 0
  rotLasting  : BitVec 16 := 0
  /-- KEY_RELEASES, KEY_REFUSED, TAG_FAILS (16 SEC_SEALED; reset 0) -/
  keyReleases : BitVec 16 := 0
  keyRefused  : BitVec 16 := 0
  tagFails    : BitVec 16 := 0
  /-- the report queue, oldest first (16 R452; reset empty) -/
  reports     : List (List Byte) := []
  /-- reports held back while the steward is down, oldest first (15 R408; reset none) -/
  backlog     : List (List Byte) := []
  /-- MGMT_EPOCH, LOST (16 STW_EPOCH; reset 0) -/
  mgmtEpoch   : BitVec 32 := 0
  lost        : BitVec 16 := 0
  /-- COMMANDS, PEC_ERRORS, BUS_RESETS, REFUSED (16 STW_SB_EVENTS; reset 0) -/
  commands  : BitVec 16 := 0
  pecErrors : BitVec 16 := 0
  busResets : BitVec 16 := 0
  refused   : BitVec 16 := 0
  /-- OP_STATE of the sideband and of the mailbox (16 R451; reset 0) -/
  opSb   : OpState := {}
  opMbox : OpState := {}
  /-- the long command under way: true for the mailbox's (16 R450; reset none) -/
  longFrom : Option Bool := none
  /-- the code and argument of the long command under way (reset 0) -/
  longCmd : Byte := 0
  longArg : BitVec 16 := 0
  /-- BUSY, STATUS, RESP_LENGTH, SEQ (16 STW_MBOX_STATUS; reset 0) -/
  mboxBusy   : Bool := false
  mboxStatus : Byte := 0
  mboxLen    : Byte := 0
  mboxSeq    : BitVec 32 := 0
  /-- STW_MBOX_DATA_0 to _31 (16; reset 0) -/
  mboxData   : Tab Word := []
  deriving DecidableEq, Repr, Inhabited

/-! ### The whole block -/

structure State where
  /-- commands that are waiting, first in first out -/
  pending  : List Instr := []
  /-- µs since cold reset, counted locally (00 R7, 15 R405 TIME, 16 UPTIME_MS; reset 0) -/
  nowUs    : Nat := 0
  /-- the model's own: how many free values have been taken (log entry 2; reset 0) -/
  freeCtr  : Nat := 0
  pins     : Pins := {}
  out      : Outputs := {}
  access   : AccessErr := {}
  power    : Power := {}
  fur      : Furnish := {}
  /-- ports 0 to 11 (00 R16, 06 R174; reset DOWN) -/
  ports    : Tab Port := []
  route    : Routing := {}
  /-- accesses issued on the memory port and not answered (02 R31; reset none) -/
  memReqs  : List MemReq := []
  /-- accesses that wait for a tag of their channel, or for ready (02 R31, R39; reset none) -/
  memWaiting : List MemReq := []
  /-- messages to the block's own endpoint, which use no port (07 R190; reset none) -/
  loopback : List Msg := []
  trk      : Trk := {}
  /-- aperture requests without their response (08 R242; reset none) -/
  aper     : List Aperture := []
  cq       : Cq := {}
  xlt      : Xlt := {}
  hbx      : Hbx := {}
  btr      : Btr := {}
  vat      : Vat := {}
  par      : Par := {}
  err      : Err := {}
  sec      : Sec := {}
  deriving DecidableEq, Repr, Inhabited

/-- The block while RST_COLD_N is held low, every field at the value its docstring gives. -/
def State.reset : State := {}

end Sys2Proof.Machine
end

