-- ==== Sys2Proof/Config.lean ====
section
/-! DEFINITION. What the spec leaves open: values that no rule fixes.  None has a body, so no
proof can see its value, and a claim that mentions one holds whatever it is (log entry 2). -/

namespace Sys2Proof.Config

/-- The state of the block after a rail has left its tolerance (02 R63: "every state of the
block, the Vat included, is undefined"), by the number of free values taken before. -/
opaque undefinedState : Nat → Machine.State

/-- The k-th byte of contents that the spec calls undefined (00 R13), by the number of free
values taken before. -/
opaque undefinedByte : Nat → Nat → Byte

/-- The power of a rail, in units of 10 mW, that the block estimates from its activity counters
while the rail cannot be read (02 R57), by rail and number of free values taken before. -/
opaque estimatedPower : Fin 3 → Nat → BitVec 16

/-- What a calibration or trim of a lane adapts its receiver offset and clock recovery to (05 R134), by number of free
values taken before. -/
opaque calibration : Nat → Machine.Calib

/-- TURN_FCLK of an RTT_ECHO: FCLK cycles between the probe's arrival and the echo (06 R158, R176),
by number of free values taken before. -/
opaque turnFclk : Nat → BitVec 32

end Sys2Proof.Config
end

