-- ==== Sys2Proof/Machine/Ops.lean ====
section
/-! DEFINITION. The operations that every meaning is built from: sparse tables, byte strings,
the bytes of the Vat, and the accessors of the arrays of the state. -/

namespace Sys2Proof.Machine

/-! ### Sparse tables -/

/-- What a sparse table holds at a key; the default where it lists nothing. -/
def tabGet {α : Type} (d : α) : Tab α → Nat → α
  | [], _ => d
  | (k, v) :: t, n => if k = n then v else tabGet d t n

/-- Set one key of a sparse table, keeping the keys rising and listing no default. -/
def tabSet {α : Type} [DecidableEq α] (d : α) (n : Nat) (v : α) (t : Tab α) : Tab α :=
  t.filter (fun e => decide (e.1 < n)) ++ (if v = d then [] else [(n, v)]) ++ t.filter (fun e => decide (n < e.1))

/-- Change what a sparse table holds at a key. -/
def tabMod {α : Type} [DecidableEq α] (d : α) (n : Nat) (f : α → α) (t : Tab α) : Tab α :=
  tabSet d n (f (tabGet d t n)) t

/-- The canonical form: every key above `lo`, keys rising, no entry equal to the default. -/
def tabWfFrom {α : Type} [DecidableEq α] (d : α) : Nat → Tab α → Bool
  | _, [] => true
  | lo, (k, v) :: t => decide (lo ≤ k) && decide (v ≠ d) && tabWfFrom d (k + 1) t

/-- The canonical form of a sparse table. -/
def tabWf {α : Type} [DecidableEq α] (d : α) (t : Tab α) : Bool := tabWfFrom d 0 t

/-- What a table that lists nothing below `a` holds at `a` and the `n` keys after it. -/
def tabFrom {α : Type} (d : α) : Nat → Nat → Tab α → List α
  | 0, _, _ => []
  | n + 1, a, [] => d :: tabFrom d n (a + 1) []
  | n + 1, a, (k, v) :: t => if k = a then v :: tabFrom d n (a + 1) t else d :: tabFrom d n (a + 1) ((k, v) :: t)

/-- What a table holds at `n` keys from `a` on. -/
def tabSlice {α : Type} (d : α) (t : Tab α) (a n : Nat) : List α :=
  tabFrom d n a (t.dropWhile (fun e => decide (e.1 < a)))

/-- The table that holds the values of a list, from key 0 on. -/
def tabOf {α : Type} [DecidableEq α] (d : α) (l : List α) : Tab α :=
  (l.zipIdx).filterMap (fun x => if x.1 = d then none else some (x.2, x.1))

/-! ### Byte strings (00 R9: little-endian) -/

/-- The low `n` bytes of a number, least significant first. -/
def leBytes : Nat → Nat → List Byte
  | 0, _ => []
  | n + 1, v => BitVec.ofNat 8 v :: leBytes n (v / 256)

/-- The number a little-endian byte string holds. -/
def leNat : List Byte → Nat
  | [] => 0
  | b :: bs => b.toNat + 256 * leNat bs

/-- `n` bytes of a string from an offset on. -/
def bytesAt (l : List Byte) (off n : Nat) : List Byte := (l.drop off).take n

/-- The number in `n` bytes of a string from an offset on. -/
def numAt (l : List Byte) (off n : Nat) : Nat := leNat (bytesAt l off n)

/-- A string cut or filled with zeros to `n` bytes. -/
def padTo (n : Nat) (l : List Byte) : List Byte := (l ++ List.replicate (n - l.length) 0).take n

/-- Bits [lo + w − 1 : lo] of a number. -/
def bitsOf (v lo w : Nat) : Nat := v / 2 ^ lo % 2 ^ w

/-- One bit of a number. -/
def bitOf (v k : Nat) : Bool := v / 2 ^ k % 2 == 1

/-- 1 or 0. -/
def b2n (b : Bool) : Nat := if b then 1 else 0

/-- A register's value from its fields: (lowest bit, width, value), each cut to its width. -/
def packFields (fs : List (Nat × Nat × Nat)) : Word :=
  BitVec.ofNat 64 (fs.foldl (fun a f => a + f.2.2 % 2 ^ f.2.1 * 2 ^ f.1) 0)

/-- `k` values of `f`, from 0. -/
def upTo (n : Nat) (f : Nat → α) : List α := (List.range n).map f

/-! ### The bytes of the Vat (13 R358) -/

namespace Memory

/-- The byte at an address; one that nothing has written reads 0 (log entry 9). -/
def read (m : List Host.Cell) (a : Nat) : Byte := tabGet 0 m a

/-- Write one byte. -/
def write (m : List Host.Cell) (a : Nat) (b : Byte) : List Host.Cell := tabSet 0 a b m

/-- `n` bytes from an address on. -/
def readBytes (m : List Host.Cell) (a n : Nat) : List Byte := upTo n (fun k => read m (a + k))

/-- Write bytes from an address on. -/
def writeBytes (m : List Host.Cell) (a : Nat) (bs : List Byte) : List Host.Cell :=
  m.filter (fun c => decide (c.1 < a)) ++ (bs.zipIdx a).filterMap (fun x => if x.1 = 0 then none else some (x.2, x.1)) ++
    m.filter (fun c => decide (a + bs.length ≤ c.1))

/-- Addresses strictly rising, no byte equal to what an unlisted address reads as. -/
def wf (m : List Host.Cell) : Bool := tabWf (0 : Byte) m

end Memory

/-! ### The arrays of the state -/

/-- Port n. -/
def portOf (s : State) (n : Nat) : Port := tabGet {} s.ports n

def setPort (n : Nat) (p : Port) (s : State) : State := { s with ports := tabSet {} n p s.ports }

def modPort (n : Nat) (f : Port → Port) (s : State) : State := setPort n (f (portOf s n)) s

/-- Physical lane k of a port. -/
def laneOf (p : Port) (k : Nat) : Lane := tabGet {} p.lanes k

def modLane (k : Nat) (f : Lane → Lane) (p : Port) : Port :=
  { p with lanes := tabMod {} k f p.lanes }

/-- Context c. -/
def ctxOf (s : State) (c : Nat) : Ctx := tabGet {} s.cq.ctxs c

def modCtx (c : Nat) (f : Ctx → Ctx) (s : State) : State :=
  { s with cq := { s.cq with ctxs := tabMod {} c f s.cq.ctxs } }

/-- Queue q. -/
def queueOf (s : State) (q : Nat) : Queue := tabGet {} s.cq.queues q

def modQueue (q : Nat) (f : Queue → Queue) (s : State) : State :=
  { s with cq := { s.cq with queues := tabMod {} q f s.cq.queues } }

/-- Counter k. -/
def cntOf (s : State) (k : Nat) : Word := tabGet 0 s.cq.counters k

/-- Partition p. -/
def partOf (s : State) (p : Nat) : Partition := tabGet {} s.par.parts p

def modPart (p : Nat) (f : Partition → Partition) (s : State) : State :=
  { s with par := { s.par with parts := tabMod {} p f s.par.parts } }

/-- A partition's record in the image (04 R96). -/
def partRec (s : State) (p : Nat) : PartRec := tabGet {} s.fur.image.partitions p

/-- Vector v of partition p. -/
def vecOf (s : State) (p v : Nat) : Vector := tabGet {} s.par.vectors (16 * p + v)

def modVec (p v : Nat) (f : Vector → Vector) (s : State) : State :=
  { s with par := { s.par with vectors := tabMod {} (16 * p + v) f s.par.vectors } }

/-- Plan slot k. -/
def planOf (s : State) (k : Nat) : Plan := tabGet {} s.hbx.plans k

def modPlan (k : Nat) (f : Plan → Plan) (s : State) : State :=
  { s with hbx := { s.hbx with plans := tabMod {} k f s.hbx.plans } }

/-- Beater b. -/
def beaterOf (s : State) (b : Nat) : Beater := tabGet {} s.btr.units b

def modBeater (b : Nat) (f : Beater → Beater) (s : State) : State :=
  { s with btr := { s.btr with units := tabMod {} b f s.btr.units } }

/-- Import window w. -/
def winOf (s : State) (w : Nat) : Window := tabGet {} s.xlt.windows w

def modWin (w : Nat) (f : Window → Window) (s : State) : State :=
  { s with xlt := { s.xlt with windows := tabMod {} w f s.xlt.windows } }

/-- Fault queue of partition p. -/
def fqOf (s : State) (p : Nat) : FaultQueue := tabGet {} s.xlt.fq p

def modFq (p : Nat) (f : FaultQueue → FaultQueue) (s : State) : State :=
  { s with xlt := { s.xlt with fq := tabMod {} p f s.xlt.fq } }

/-- A running descriptor. -/
def runOf (s : State) (id : Nat) : Option Run := s.cq.runs.find? (fun r => r.id == id)

def modRun (id : Nat) (f : Run → Run) (s : State) : State :=
  { s with cq := { s.cq with runs := s.cq.runs.map (fun r => if r.id = id then f r else r) } }

def dropRun (id : Nat) (s : State) : State :=
  { s with cq := { s.cq with runs := s.cq.runs.filter (fun r => r.id != id) } }

/-! ### Running or held -/

/-- The block acts on an input: out of cold reset, root PLL locked, and not stopped by a lost
lock (02 R28, R54).  CLK_LOCK falls with the lock and never returns before a cold reset. -/
def live (s : State) : Bool := s.pins.rstColdN && s.pins.clkLock

/-- Apply a change when a condition holds. -/
def onlyIf (c : Bool) (f : State → State) (s : State) : State := if c then f s else s

/-- Take the next free value: its number, and the state that has taken it (log entry 2). -/
def takeFree (s : State) : Nat × State := (s.freeCtr, { s with freeCtr := s.freeCtr + 1 })

/-- Apply a change for each element of a list in turn. -/
def forEach {α : Type} (l : List α) (f : α → State → State) (s : State) : State :=
  l.foldl (fun t a => f a t) s

end Sys2Proof.Machine
end

