-- ==== Sys2Proof/Machine/Fp.lean ====
section
/-! DEFINITION. The number formats of atomics and reductions, and their addition (08 R220, 12 R338
to R348). -/

namespace Sys2Proof.Machine

/-- A floating-point format: exponent and fraction widths, the code of the largest finite magnitude,
the code of infinity where there is one, and the canonical NaN (12 R342). -/
structure Fmt where
  eb     : Nat
  mb     : Nat
  maxFin : Nat
  inf    : Option Nat := none
  nan    : Nat := 0
  deriving DecidableEq, Repr, Inhabited

def fmtFp32 : Fmt := { eb := 8, mb := 23, maxFin := 0x7F7FFFFF, inf := some 0x7F800000, nan := 0x7FC00000 }
def fmtBf16 : Fmt := { eb := 8, mb := 7, maxFin := 0x7F7F, inf := some 0x7F80, nan := 0x7FC0 }
def fmtFp16 : Fmt := { eb := 5, mb := 10, maxFin := 0x7BFF, inf := some 0x7C00, nan := 0x7E00 }
def fmtE4M3 : Fmt := { eb := 4, mb := 3, maxFin := 0x7E, nan := 0x7F }
def fmtE5M2 : Fmt := { eb := 5, mb := 2, maxFin := 0x7B, inf := some 0x7C, nan := 0x7E }
def fmtE2M3 : Fmt := { eb := 2, mb := 3, maxFin := 0x1F }
def fmtE3M2 : Fmt := { eb := 3, mb := 2, maxFin := 0x1F }
def fmtE2M1 : Fmt := { eb := 2, mb := 1, maxFin := 0x7 }

/-- Bits of an element. -/
def Fmt.width (f : Fmt) : Nat := 1 + f.eb + f.mb
def Fmt.bias (f : Fmt) : Nat := 2 ^ (f.eb - 1) - 1

/-- The code without its sign, and the sign. -/
def Fmt.mag (f : Fmt) (v : Nat) : Nat := v % 2 ^ (f.eb + f.mb)
def Fmt.neg (f : Fmt) (v : Nat) : Bool := bitOf v (f.eb + f.mb)

def Fmt.isInf (f : Fmt) (v : Nat) : Bool := match f.inf with | some i => f.mag v == i | none => false
def Fmt.isNan (f : Fmt) (v : Nat) : Bool :=
  match f.inf with | some i => decide (i < f.mag v) | none => decide (f.maxFin < f.mag v)

/-- A finite magnitude, counted in the format's smallest subnormal. -/
def Fmt.units (f : Fmt) (v : Nat) : Nat :=
  let ex := f.mag v / 2 ^ f.mb
  let fr := f.mag v % 2 ^ f.mb
  if ex = 0 then fr else (2 ^ f.mb + fr) * 2 ^ (ex - 1)

/-- A signed finite value in those units. -/
def Fmt.value (f : Fmt) (v : Nat) : Int := if f.neg v then -(f.units v : Int) else (f.units v : Int)

/-- n ÷ 2^s, rounded to nearest with ties to even. -/
def rne (n s : Nat) : Nat :=
  let q := n / 2 ^ s
  let r := n % 2 ^ s
  let half := 2 ^ s / 2
  if s = 0 then n
  else if half < r then q + 1
  else if r = half then q + q % 2
  else q

/-- The code of a magnitude n ÷ 2^k units, rounded once, with no upper limit (12 R342, R347). -/
def Fmt.round (f : Fmt) (n k : Nat) : Nat :=
  let sh := max k (n.log2 - f.mb)
  (sh - k) * 2 ^ f.mb + rne n sh

/-- The sign bit in place. -/
def Fmt.sign (f : Fmt) (neg : Bool) : Nat := if neg then 2 ^ (f.eb + f.mb) else 0

/-- The rounded result of a magnitude, and whether it saturated: beyond the largest finite one it
gives infinity where the format has it and saturation is not asked for (12 R342, R347). -/
def Fmt.finish (f : Fmt) (sat : Bool) (neg : Bool) (n k : Nat) : Nat × Bool :=
  let c := f.round n k
  if c ≤ f.maxFin then (f.sign neg + c, false)
  else match f.inf, sat with
    | some i, false => (f.sign neg + i, false)
    | _, _ => (f.sign neg + f.maxFin, true)

/-- a + b in an element format, and whether it saturated (08 R220, 12 R342, R343). -/
def Fmt.add (f : Fmt) (a b : Nat) : Nat × Bool :=
  if f.isNan a || f.isNan b then (f.nan, false)
  else if f.isInf a then (if f.isInf b && f.neg a != f.neg b then f.nan else f.sign (f.neg a) + f.inf.getD 0, false)
  else if f.isInf b then (f.sign (f.neg b) + f.inf.getD 0, false)
  else
    let s := f.value a + f.value b
    if s = 0 then (f.sign (f.neg a && f.neg b), false)
    else f.finish false (decide (s < 0)) s.natAbs 0

/-! ### Granules (12 R338 to R347) -/

/-- What a Beater counts beside its result (12 BTR_SPECIALS). -/
structure Specials where
  nans    : Nat := 0
  sats    : Nat := 0
  mxNans  : Nat := 0
  clamps  : Nat := 0
  deriving DecidableEq, Repr, Inhabited

def Specials.plus (a b : Specials) : Specials :=
  { nans := a.nans + b.nans, sats := a.sats + b.sats, mxNans := a.mxNans + b.mxNans, clamps := a.clamps + b.clamps }

/-- Two lists of equal-sized elements, added one by one. -/
def addElems (f : Fmt) : List (Nat × Nat) → List Nat × Specials
  | [] => ([], {})
  | (a, b) :: rest =>
    let (y, sat) := f.add a b
    let (ys, sp) := addElems f rest
    (y :: ys, sp.plus { nans := b2n (f.isNan y), sats := b2n sat })

/-- The elements of `n` bytes each in a byte string. -/
def elemsOf (n : Nat) (count : Nat) (bs : List Byte) : List Nat := upTo count (fun i => numAt bs (n * i) n)

/-- Element i of a block of w-bit elements (12 R340). -/
def mxElem (w : Nat) (block : List Byte) (i : Nat) : Nat := bitsOf (leNat block) (w * i) w

/-- A block format: its element format, blocks per granule, element bytes per block and emax (12
R339, R346). -/
structure MxFmt where
  f      : Fmt
  blocks : Nat
  bytes  : Nat
  emax   : Nat
  deriving DecidableEq, Repr, Inhabited

/-- The block formats by DTYPE (11 R309, 12 R339, R346). -/
def mxFmt (dtype : Nat) : Option MxFmt :=
  if dtype = 6 then some { f := fmtE4M3, blocks := 7, bytes := 32, emax := 8 }
  else if dtype = 7 then some { f := fmtE5M2, blocks := 7, bytes := 32, emax := 15 }
  else if dtype = 8 then some { f := fmtE2M3, blocks := 10, bytes := 24, emax := 2 }
  else if dtype = 9 then some { f := fmtE3M2, blocks := 10, bytes := 24, emax := 4 }
  else if dtype = 10 then some { f := fmtE2M1, blocks := 15, bytes := 16, emax := 2 }
  else none

/-- An operand block is NaN (12 R345). -/
def mxNan (m : MxFmt) (scale : Nat) (es : List Nat) : Bool :=
  scale == 0xFF || es.any (fun e => m.f.isNan e || m.f.isInf e)

/-- The sum of two blocks: the scale, the elements and what is counted (12 R345 to R347). -/
def addBlock (m : MxFmt) (xa xb : Nat) (ea eb : List Nat) : Nat × List Nat × Specials :=
  if mxNan m xa ea || mxNan m xb eb then (0xFF, ea.map (fun _ => 0), { mxNans := 1 })
  else
    let f := m.f
    let x0 := min xa xb
    let pairs := ea.zip eb
    let ss := pairs.map (fun p => f.value p.1 * 2 ^ (xa - x0) + f.value p.2 * 2 ^ (xb - x0))
    let top := (ss.map Int.natAbs).foldl max 0
    let raw : Int := (top.log2 : Int) + (x0 : Int) + 1 - (f.bias : Int) - (f.mb : Int) - (m.emax : Int)
    let xy : Nat := if top = 0 then 0 else (min 254 (max 0 raw)).toNat
    let clamp := decide (top ≠ 0) && (decide (raw < 0) || decide (254 < raw))
    let ys := (pairs.zip ss).map (fun q =>
      if q.2 = 0 then (f.sign (f.neg q.1.1 && f.neg q.1.2), false)
      else f.finish true (decide (q.2 < 0)) (q.2.natAbs * 2 ^ (x0 - xy)) (xy - x0))
    (xy, ys.map (·.1), { sats := (ys.filter (·.2)).length, clamps := b2n clamp })

/-- The elements of a block as its bytes (12 R340). -/
def packBlock (w bytes : Nat) (es : List Nat) : List Byte :=
  leBytes bytes (es.zipIdx.foldl (fun a e => a + e.1 % 2 ^ w * 2 ^ (w * e.2)) 0)

/-- The sum of two granules of a block format; the padding is zero (12 R339, R341). -/
def addMx (m : MxFmt) (a b : List Byte) : List Byte × Specials :=
  let w := m.f.width
  let base := m.blocks * m.bytes
  let outs := upTo m.blocks (fun k =>
    let ea := upTo 32 (mxElem w (bytesAt a (k * m.bytes) m.bytes))
    let eb := upTo 32 (mxElem w (bytesAt b (k * m.bytes) m.bytes))
    addBlock m (numAt a (base + k) 1) (numAt b (base + k) 1) ea eb)
  (padTo 256 (outs.flatMap (fun o => packBlock w m.bytes o.2.1) ++ outs.map (fun o => BitVec.ofNat 8 o.1)),
    outs.foldl (fun sp o => sp.plus o.2.2) {})

/-- The sum of two granules of integers of `n` bytes (12 R344). -/
def addInts (n : Nat) (a b : List Byte) : List Byte :=
  (upTo (256 / n) (fun i => leBytes n (numAt a (n * i) n + numAt b (n * i) n))).flatten

/-- The sum of two granules of an element format of `n` bytes. -/
def addFloats (f : Fmt) (n : Nat) (a b : List Byte) : List Byte × Specials :=
  let (ys, sp) := addElems f ((elemsOf n (256 / n) a).zip (elemsOf n (256 / n) b))
  (ys.flatMap (leBytes n), sp)

/-- The sum of two granules of 256 bytes in a DTYPE, the arriving one first (11 R309, R315; 12 R342
to R347). -/
def addGranule (dtype : Nat) (a b : List Byte) : List Byte × Specials :=
  match mxFmt dtype with
  | some m => addMx m a b
  | none =>
    if dtype = 1 then addFloats fmtFp32 4 a b
    else if dtype = 2 then addFloats fmtBf16 2 a b
    else if dtype = 3 then addFloats fmtFp16 2 a b
    else if dtype = 4 then addFloats fmtE4M3 1 a b
    else if dtype = 5 then addFloats fmtE5M2 1 a b
    else if dtype = 11 then (addInts 4 a b, {})
    else (addInts 8 a b, {})

/-- The sum of two pieces, granule by granule. -/
def addPieces (dtype : Nat) : Nat → List Byte → List Byte → List Byte × Specials
  | 0, _, _ => ([], {})
  | n + 1, a, b =>
    let (y, sp) := addGranule dtype (padTo 256 a) (padTo 256 b)
    let (ys, sp') := addPieces dtype n (a.drop 256) (b.drop 256)
    (y ++ ys, sp.plus sp')

/-! ### Plausibility checks (12 R349) -/

/-- The first check that an output y of a + b fails in an element format. An infinity counts more units than every finite
magnitude. -/
def Fmt.check (f : Fmt) (a b y : Nat) : Option CheckKind :=
  let finite (v : Nat) : Bool := !f.isNan v && !f.isInf v
  let m := max (f.units a) (f.units b)
  if f.isNan y != f.isNan (f.add a b).1 || (f.isInf y && decide (2 * m < f.units f.maxFin)) then some .special
  else if finite y && decide (2 * m < f.units y) then some .magnitude
  else if finite a && finite b && f.units a != 0 && f.units b != 0 && f.neg a == f.neg b &&
      (f.neg y != f.neg a || decide (f.units y < m)) then some .sign
  else if finite y && f.units y == 0 && f.value a + f.value b != 0 then some .zero
  else none

/-- The residue check of an output of `n` bytes: a carry out of the top bit lowers the remainder by 1. -/
def intCheck (n a b y : Nat) : Option CheckKind :=
  if y % 3 = (a % 3 + b % 3 + 3 - (a + b) / 2 ^ (8 * n)) % 3 then none else some .residue

/-- The first check that an output block fails. -/
def blockCheck (m : MxFmt) (xa xb xy : Nat) (ea eb ey : List Nat) : Option CheckKind :=
  let f := m.f
  if mxNan m xa ea || mxNan m xb eb then
    if xy = 0xFF ∧ ey.all (fun y => f.units y == 0) then none else some .special
  else if mxNan m xy ey then some .special
  else if max xa xb + 1 < xy then some .mxScale
  else if ((ea.zip eb).zip ey).any (fun q => f.units q.1.1 != 0 && f.units q.1.2 != 0 &&
      f.neg q.1.1 == f.neg q.1.2 && f.neg q.2 != f.neg q.1.1) then some .sign
  else none

/-- The first check that an output granule fails, in the order of its elements or blocks. -/
def granuleCheck (dtype : Nat) (a b y : List Byte) : Option CheckKind :=
  let elems (n : Nat) (f : Nat → Nat → Nat → Option CheckKind) : Option CheckKind :=
    (List.range (256 / n)).findSome? (fun i => f (numAt a (n * i) n) (numAt b (n * i) n) (numAt y (n * i) n))
  match mxFmt dtype with
  | some m =>
    let base := m.blocks * m.bytes
    let es (g : List Byte) (k : Nat) : List Nat := upTo 32 (mxElem m.f.width (bytesAt g (k * m.bytes) m.bytes))
    (List.range m.blocks).findSome? (fun k => blockCheck m (numAt a (base + k) 1) (numAt b (base + k) 1)
      (numAt y (base + k) 1) (es a k) (es b k) (es y k))
  | none =>
    if dtype = 1 then elems 4 fmtFp32.check
    else if dtype = 2 then elems 2 fmtBf16.check
    else if dtype = 3 then elems 2 fmtFp16.check
    else if dtype = 4 then elems 1 fmtE4M3.check
    else if dtype = 5 then elems 1 fmtE5M2.check
    else if dtype = 11 then elems 4 (intCheck 4)
    else elems 8 (intCheck 8)

/-- The first check that an output of `n` granules fails. -/
def pieceCheck (dtype : Nat) : Nat → List Byte → List Byte → List Byte → Option CheckKind
  | 0, _, _, _ => none
  | n + 1, a, b, y =>
    (granuleCheck dtype (padTo 256 a) (padTo 256 b) (padTo 256 y)).orElse
      (fun _ => pieceCheck dtype n (a.drop 256) (b.drop 256) (y.drop 256))

/-! ### Watermarks (12 R351) -/

/-- The sum of the words of a byte string whose first word has number `i`. -/
def wmWords : Nat → Nat → List Byte → Word
  | 0, _, _ => 0
  | fuel + 1, i, bs =>
    if bs.isEmpty then 0
    else (BitVec.ofNat 64 (numAt bs 0 8)).rotateLeft (i % 64) * BitVec.ofNat 64 (2 * i + 1) + wmWords fuel (i + 1) (bs.drop 8)

/-- The watermark of a byte string (12 R351). -/
def watermark (bs : List Byte) : Word :=
  BitVec.ofNat 64 bs.length * 0x9E3779B97F4A7C15 + wmWords (bs.length / 8 + 1) 0 bs

end Sys2Proof.Machine
end

