-- ==== Sys2Proof/Machine/Flags.lean ====
section
/-! DEFINITION. Counters that saturate or wrap, and how a write changes a register's fields. -/

namespace Sys2Proof.Machine

/-- Add to a counter that stops at its greatest value. -/
def satAdd {n : Nat} (c : BitVec n) (k : Nat) : BitVec n :=
  BitVec.ofNat n (min (c.toNat + k) (2 ^ n - 1))

/-- Count one event in a counter that saturates. -/
def satInc {n : Nat} (c : BitVec n) : BitVec n := satAdd c 1

/-- The bits that a set of byte enables selects (17 R458). -/
def beMask (be : BitVec 8) : Word :=
  packFields (upTo 8 (fun k => (8 * k, 8, if be.getLsbD k then 255 else 0)))

/-- A register after a write of its enabled bytes (17 R458). -/
def mergeBytes (old new : Word) (be : BitVec 8) : Word :=
  (new &&& beMask be) ||| (old &&& ~~~beMask be)

/-- Every byte that holds part of bits [lo + w − 1 : lo] is enabled (17 R458, WO fields). -/
def fieldEnabled (be : BitVec 8) (lo w : Nat) : Bool :=
  (List.range 8).all (fun k => be.getLsbD k || !(decide (lo < 8 * k + 8) && decide (8 * k < lo + w)))

/-- A byte that holds part of bits [lo + w − 1 : lo] is enabled (00 R467). -/
def fieldTouched (be : BitVec 8) (lo w : Nat) : Bool :=
  (List.range 8).any (fun k => be.getLsbD k && (decide (lo < 8 * k + 8) && decide (8 * k < lo + w)))

/-- Bits [lo + w − 1 : lo] of a register. -/
def fld (r : Word) (lo w : Nat) : Nat := bitsOf r.toNat lo w

/-- The answers of the command port (02, CMD_RSP_ERR). -/
def rspDone : BitVec 2 := 0
def rspRefused : BitVec 2 := 1
def rspUnmapped : BitVec 2 := 2

/-! ### Completion status codes (09 R244) -/

def stOk : Byte := 0x00
def stLate : Byte := 0x01
def stAmbiguous : Byte := 0x02
def stRights : Byte := 0x03
def stFault : Byte := 0x04
def stUnreachable : Byte := 0x05
def stTimeout : Byte := 0x06
def stDataError : Byte := 0x07
def stStateRefused : Byte := 0x08
def stMalformed : Byte := 0x09
def stAborted : Byte := 0x0A
def stPlausibility : Byte := 0x0B
def stWatermark : Byte := 0x0C
def stSealed : Byte := 0x0D
def stUnlicensed : Byte := 0x0E

end Sys2Proof.Machine
end

