-- ==== Sys2Proof/Machine/Operands.lean ====
section
/-! DEFINITION. The forms that operands take on the wire: messages and their headers (08 R206 to
R208, 11 R324), flits (06 R151 to R155) and control packets (06 R157, R158). -/

namespace Sys2Proof.Machine

/-! ### Message opcodes (08 R208, 11 R324) -/

def opRead : Byte := 0x01
def opWrite : Byte := 0x02
def opFill : Byte := 0x03
def opAtomic : Byte := 0x04
def opCont : Byte := 0x05
def opAck : Byte := 0x11
def opReadData : Byte := 0x12
def opAtomicResult : Byte := 0x13
def opRelease : Byte := 0x14
def opCollOpen : Byte := 0x20
def opCollCont : Byte := 0x21
def opCollCredit : Byte := 0x22
def opCollAbort : Byte := 0x23

/-- The message begins with a full header (08 R208, 11 R324). -/
def isFull (op : Byte) : Bool :=
  op == opRead || op == opWrite || op == opFill || op == opAtomic || op == opCollOpen

/-- A request of VC0 other than a continuation: it is answered (08 R208). -/
def isRequest (op : Byte) : Bool := op == opRead || op == opWrite || op == opFill || op == opAtomic

/-- The traffic class of an opcode: 0 requests, 1 responses, 2 collective, 3 management (08 R208).
An opcode that R208 reserves is taken as a request (log entry 14). -/
def vcOf (op : Byte) : Nat :=
  if op.toNat / 16 = 1 then 1 else if op.toNat / 16 = 2 then 2 else if op.toNat / 16 = 3 then 3 else 0

/-- CLASS, TURNED and REISSUE of FLAGS (08 R206). -/
def classOf (flags : Byte) : Nat := flags.toNat % 4
def turnedOf (flags : Byte) : Bool := flags.getLsbD 2
def reissueOf (flags : Byte) : Bool := flags.getLsbD 3

/-- FLAGS with TURNED set as given (07 R197). -/
def withTurned (flags : Byte) (t : Bool) : Byte := if t then flags ||| 0x04 else flags &&& 0xFB

/-- The slots a message fills (08 R206, R207). -/
def msgSlots (m : Msg) : Nat := (if isFull m.opcode then 2 else 1) + m.dslots.toNat

/-- The endpoints of a header, bits [16:0] (08 R206). -/
def srcEp (m : Msg) : Nat := m.source.toNat % 2 ^ 17
def dstEp (m : Msg) : Nat := m.target.toNat % 2 ^ 17

/-- The bytes of a message (08 R206, R207). -/
def msgBytes (m : Msg) : List Byte :=
  (if isFull m.opcode then
    [m.opcode, m.flags] ++ leBytes 2 m.pkey.toNat ++ leBytes 4 m.source.toNat ++
    leBytes 4 m.target.toNat ++ leBytes 4 m.tag.toNat ++ leBytes 8 m.addr.toNat ++
    leBytes 2 m.length.toNat ++ [m.attr, m.dslots] ++ leBytes 4 m.tail.toNat
  else
    [m.opcode, m.flags, m.aux, m.dslots] ++ leBytes 4 m.source.toNat ++
    leBytes 4 m.target.toNat ++ leBytes 4 m.tag.toNat) ++
  padTo (16 * m.dslots.toNat) m.data

/-- The message at the start of a string, if one starts there and ends inside it (06 R155). -/
def parseMsg (bs : List Byte) : Option (Msg × List Byte) :=
  let op := bs.headD 0
  if op = 0 then none
  else
    let full := isFull op
    let ds := numAt bs (if full then 27 else 3) 1
    let h := if full then 32 else 16
    if bs.length < h + 16 * ds then none
    else
      let m : Msg :=
        { opcode := op
          flags := bs.getD 1 0
          aux := if full then 0 else bs.getD 2 0
          pkey := if full then BitVec.ofNat 16 (numAt bs 2 2) else 0
          dslots := BitVec.ofNat 8 ds
          source := BitVec.ofNat 32 (numAt bs 4 4)
          target := BitVec.ofNat 32 (numAt bs 8 4)
          tag := BitVec.ofNat 32 (numAt bs 12 4)
          addr := if full then BitVec.ofNat 64 (numAt bs 16 8) else 0
          length := if full then BitVec.ofNat 16 (numAt bs 24 2) else 0
          attr := if full then bs.getD 26 0 else 0
          tail := if full then BitVec.ofNat 32 (numAt bs 28 4) else 0
          data := bytesAt bs h (16 * ds) }
      some (m, bs.drop (h + 16 * ds))

/-- The messages of a flit's payload, and whether its slots were well filled (06 R155). -/
def parseMsgs : Nat → List Byte → List Msg × Bool
  | 0, _ => ([], true)
  | fuel + 1, bs =>
    if bs.isEmpty || bs.headD 0 = 0 then ([], true)
    else match parseMsg bs with
      | none => ([], false)
      | some (m, rest) =>
        let (ms, ok) := parseMsgs fuel rest
        (m :: ms, ok)

/-! ### Control packets (06 R157, R158) -/

def tyLinkInit : Byte := 0x01
def tyRttProbe : Byte := 0x02
def tyRttEcho : Byte := 0x03
def tyNak : Byte := 0x04
def tyReplayStart : Byte := 0x05
def tyCnak : Byte := 0x06
def tyAdmitId : Byte := 0x10
def tyAdmitNonce : Byte := 0x11
def tyAdmitMac : Byte := 0x12
def tyAdmitResult : Byte := 0x13
def tyRankDigest : Byte := 0x18
def tyHandover : Byte := 0x20
def tyHandoverDone : Byte := 0x21
def tyHandbackMark : Byte := 0x22
def tyPark : Byte := 0x30
def tyRetrainReq : Byte := 0x31
def tyFenceNotice : Byte := 0x32
def tyStuckNotice : Byte := 0x33
def tyRouteBreak : Byte := 0x40

/-- Every type that is not reserved (06 R158, 07 R199). -/
def ctrlTypes : List Byte :=
  [0x01, 0x02, 0x03, 0x04, 0x05, 0x06, 0x10, 0x11, 0x12, 0x13, 0x18, 0x20, 0x21, 0x22, 0x30, 0x31,
   0x32, 0x33, 0x40]

/-- Types not allowed in ADMISSION and FENCED (06 R158, last column). -/
def ctrlServiceOnly : List Byte := [0x04, 0x05, 0x18, 0x20, 0x21, 0x22, 0x33, 0x40]

/-- The 32 bytes of a control packet (06 R157). -/
def ctrlBytes (c : Ctrl) : List Byte :=
  let b := [c.typ, if c.part then 1 else 0] ++ leBytes 2 c.seq.toNat ++ padTo 24 c.body
  b ++ leBytes 4 (crc32 b)

/-- The packet that 32 bytes spell, when its CRC-32 is good (06 R157). -/
def parseCtrl (bs : List Byte) : Option Ctrl :=
  if leNat (bytesAt bs 28 4) = crc32 (bs.take 28) then
    some { typ := bs.getD 0 0, part := (bs.getD 1 0).getLsbD 0,
           seq := BitVec.ofNat 16 (numAt bs 2 2), body := bytesAt bs 4 24 }
  else none

/-! ### Flits (06 R151, R152) -/

/-- A flit header. -/
structure FlitHdr where
  kind    : Nat
  replay  : Bool
  /-- VCB of a data flit, COUNT of a control flit -/
  vcb     : Nat
  xoff    : Byte
  ackLow  : BitVec 16
  cack    : BitVec 16
  rsv     : Nat := 0
  deriving DecidableEq, Repr, Inhabited

def hdrBytes (h : FlitHdr) : List Byte :=
  leBytes 8 (h.kind % 4 + b2n h.replay * 4 + h.vcb % 8 * 8 + h.xoff.toNat * 2 ^ 6 +
    h.ackLow.toNat * 2 ^ 14 + h.cack.toNat * 2 ^ 30 + h.rsv * 2 ^ 46)

def parseHdr (bs : List Byte) : FlitHdr :=
  let v := numAt bs 0 8
  { kind := bitsOf v 0 2, replay := bitOf v 2, vcb := bitsOf v 3 3, xoff := BitVec.ofNat 8 (bitsOf v 6 8),
    ackLow := BitVec.ofNat 16 (bitsOf v 14 16), cack := BitVec.ofNat 16 (bitsOf v 30 16),
    rsv := bitsOf v 46 18 }

/-- The 256 bytes of a flit (06 R151, R153). -/
def flitBytes (h : FlitHdr) (payload : List Byte) : List Byte :=
  let b := hdrBytes h ++ padTo 240 payload
  b ++ leBytes 8 (crc64 b)

/-- The CRC-64 of a flit is good (06 R153). -/
def flitCrcOk (bs : List Byte) : Bool :=
  bs.length == 256 && leNat (bs.drop 248) == crc64 (bs.take 248)

end Sys2Proof.Machine
end

