-- ==== Sys2Proof/Machine/Coding.lean ====
section
/-! DEFINITION. The codes of the lanes and of the internal words: PAM4 symbols (05 R117), the scrambler (05 R119), ordered
sets (05 R120, R123), test patterns (05 R146), the FEC and its frames (06 R148 to R150), and SEC-DED (02 R30). -/

namespace Sys2Proof.Machine

/-! ### Blocks and PAM4 symbols (05 R117) -/

/-- The 130 bits of a block as a number, the first bit sent in bit 0. -/
def blockNat (header : BitVec 2) (payload : BitVec 128) : Nat := header.toNat + 4 * payload.toNat

/-- The level of a pair of bits, the first in bit 0 and the more significant: 00, 01, 11, 10 are levels 0 to 3. -/
def pamLevel (pair : Nat) : BitVec 2 := match pair % 4 with | 0 => 0 | 2 => 1 | 3 => 2 | _ => 3

/-- The pair of bits of a level, the first in bit 0. -/
def pairOf (l : BitVec 2) : Nat := match l with | 0 => 0 | 1 => 2 | 2 => 3 | 3 => 1

/-- `n` PAM4 levels of a bit string, first bit first. -/
def pamLevels : Nat → Nat → List (BitVec 2)
  | 0, _ => []
  | n + 1, v => pamLevel v :: pamLevels n (v / 4)

/-- The bit string of PAM4 levels. -/
def bitsOfLevels : List (BitVec 2) → Nat
  | [] => 0
  | l :: ls => pairOf l + 4 * bitsOfLevels ls

/-- Swapping P and N turns level l into level 3 − l, on each of a block's 65 symbols (05 R127; log entry 92). -/
def swapPolarity (v : Nat) : Nat := bitsOfLevels ((pamLevels 65 v).map (fun l => 3 - l))

/-- A byte as a receiver sees it over swapped wires. -/
def swappedByte (b : Nat) : Nat := Nat.xor b 0x55

/-! ### The scrambler (05 R119) -/

/-- One step of the scrambler: its next state, and the bit it gives (log entry 28). -/
def scrambleStep (v : BitVec 23) : BitVec 23 × Bool :=
  let out := v.getLsbD 22
  (if out then v <<< 1 ^^^ 0x210125 else v <<< 1, out)

/-- Scramble or descramble a payload, first bit first; the scrambler's next state and the result. -/
def scramble : Nat → BitVec 23 → BitVec 128 → BitVec 23 × BitVec 128
  | 0, v, d => (v, d)
  | k + 1, v, d =>
    let (v', out) := scrambleStep v
    let d' := if out then d ^^^ (1 : BitVec 128) else d
    scramble k v' (d'.rotateRight 1)

/-- What both ends set a lane's scrambler to after a marker of logical lane l. -/
def scramblerSeed (l : Nat) : BitVec 23 := 0x1DBFBC + BitVec.ofNat 23 l

/-! ### Ordered sets (05 R120, R123; log entry 93 for the bytes that the spec leaves open) -/

/-- The payload that bytes spell, byte 0 in the low bits. -/
def payloadOf (bs : List Byte) : BitVec 128 := BitVec.ofNat 128 (leNat (padTo 16 bs))

/-- The known types of ordered-set blocks (05 R120). -/
def orderedTypes : List Nat := [0x4D, 0x54, 0x42, 0x49, 0x43, 0x4C]

/-- MARKER (05 R123): bytes 8 to 15 invert bytes 0 to 7. -/
def markerPayload (logical : Nat) (epoch : Byte) (width : BitVec 2) (port : Nat) (count : BitVec 24) : BitVec 128 :=
  let v := leNat ([0x4D] ++ leBytes 1 logical ++ [epoch] ++ leBytes 1 width.toNat ++ leBytes 1 port ++ leBytes 3 count.toNat)
  BitVec.ofNat 128 (v + (2 ^ 64 - 1 - v) * 2 ^ 64)

/-- TRAIN: step, good-lane mask, width and the Deckle proposed. -/
def trainPayload (step : Nat) (mask : BitVec 9) (d : Deckle) : BitVec 128 :=
  payloadOf ([0x54] ++ leBytes 1 step ++ leBytes 2 mask.toNat ++ leBytes 1 d.width.toNat ++
    leBytes 4 ((List.range 8).foldl (fun a l => a + (tabGet 0xF d.map l).toNat * 16 ^ l) 0) ++ leBytes 1 d.spare.toNat)

/-- What a TRAIN block's bytes say. -/
def parseTrain (payload : BitVec 128) : TrainInfo :=
  let v := payload.toNat
  { step := bitsOf v 8 8
    mask := BitVec.ofNat 9 (bitsOf v 16 16)
    width := BitVec.ofNat 2 (bitsOf v 32 8)
    map := BitVec.ofNat 32 (bitsOf v 40 32)
    spare := BitVec.ofNat 4 (bitsOf v 72 8) }

/-- CALENDER: logical lane, spare and new epoch. -/
def calenderPayload (logical spare : Nat) (epoch : Byte) : BitVec 128 :=
  payloadOf ([0x43] ++ leBytes 1 logical ++ leBytes 1 spare ++ [epoch])

/-- LOOP_REQ: close or open, and the lanes. -/
def loopReqPayload (close : Bool) (lanes : BitVec 9) : BitVec 128 :=
  payloadOf ([0x4C, if close then 1 else 0] ++ leBytes 2 lanes.toNat)

/-- BURST and IDLE_ENTRY. -/
def burstPayload : BitVec 128 := payloadOf [0x42]
def idleEntryPayload : BitVec 128 := payloadOf [0x49]

/-! ### Test patterns (05 R146) -/

/-- The next bit of PRBS31 (x^31 + x^28 + 1), or of the PRBS13 behind PRBS13Q (log entry 94), from the bits before it,
the last one in bit 0. -/
def prbsNext (q31 : Bool) (h : BitVec 31) : Bool :=
  if q31 then h.getLsbD 30 != h.getLsbD 27
  else (h.getLsbD 0 != h.getLsbD 1) != (h.getLsbD 11 != h.getLsbD 12)

/-- Shift a bit into the bits before. -/
def shiftIn (h : BitVec 31) (b : Bool) : BitVec 31 := h <<< 1 ||| (if b then 1 else 0)

/-- `n` bits of a generator, first in bit 0, and the generator after them. -/
def prbsBits (q31 : Bool) : Nat → BitVec 31 → Nat × BitVec 31
  | 0, h => (0, h)
  | n + 1, h =>
    let b := prbsNext q31 h
    let (v, h') := prbsBits q31 n (shiftIn h b)
    (b2n b + 2 * v, h')

/-- One bit at a lane's checker: it locks after 64 error-free bits, and then counts against its own pattern. -/
def checkBit (q31 : Bool) (b : Bool) (x : Lane) : Lane :=
  let want := prbsNext q31 x.chkBits
  if x.checkerLock then
    let x := { x with
      chkBits := shiftIn x.chkBits want
      loopErrBits := if b != want then satAdd x.loopErrBits 1 else x.loopErrBits
      chkCount := x.chkCount + 1 }
    if x.chkCount < 2 ^ 20 then x else { x with chkCount := 0, checked := satAdd x.checked 1 }
  else
    let run := if b == want && x.chkBits != 0 then x.chkRun + 1 else 0
    { x with chkBits := shiftIn x.chkBits b, chkRun := run, checkerLock := decide (64 ≤ run) }

/-- `n` bits at a lane's checker, first in bit 0. -/
def checkBits (q31 : Bool) : Nat → Nat → Lane → Lane
  | 0, _, x => x
  | n + 1, v, x => checkBits q31 n (v / 2) (checkBit q31 (v % 2 == 1) x)

/-! ### RS(544,514) over 10-bit symbols (06 R148; the field and generator of IEEE 802.3 clause 119, log entry 95) -/

/-- Twice a symbol, modulo x^10 + x^3 + 1. -/
def gfTwice (a : Nat) : Nat := if 512 ≤ a then Nat.xor (2 * a) 0x409 else 2 * a

/-- The product of two symbols. -/
def gfMul (a b : Nat) : Nat :=
  (List.range 10).foldl (fun r i => let r := gfTwice r; if bitOf b (9 - i) then Nat.xor r a else r) 0

/-- The power α^k, k below 1,023. -/
def gfPow : Nat → Nat
  | 0 => 1
  | k + 1 => gfTwice (gfPow k)

/-- 1/a = a^1022 of a symbol that is not 0. -/
def gfInv (a : Nat) : Nat :=
  ((List.range 9).foldl (fun (x : Nat × Nat) _ => let sq := gfMul x.1 x.1; (sq, gfMul x.2 sq)) (a, 1)).2

/-- The value of a polynomial, lowest coefficient first. -/
def polyEval (p : List Nat) (x : Nat) : Nat := p.foldr (fun c a => Nat.xor c (gfMul a x)) 0

/-- Sum of two polynomials. -/
def polyAdd : List Nat → List Nat → List Nat
  | [], q => q
  | p, [] => p
  | a :: p, b :: q => Nat.xor a b :: polyAdd p q

/-- Product of two polynomials. -/
def polyMul : List Nat → List Nat → List Nat
  | [], _ => []
  | a :: p, q => polyAdd (q.map (gfMul a)) (0 :: polyMul p q)

/-- The generator: the product of x + α^i for i = 0 to 29, lowest coefficient first. -/
def rsGenerator : List Nat := (List.range 30).foldl (fun g i => polyMul g [gfPow i, 1]) [1]

/-- The 30 parity symbols of a message, in the order they are sent. -/
def rsParity (msg : List Nat) : List Nat :=
  let taps := (rsGenerator.take 30).reverse
  msg.foldl (fun (reg : List Nat) (m : Nat) =>
    let f := Nat.xor m (reg.headD 0)
    ((reg.drop 1 ++ [0]).zip taps).map (fun (x : Nat × Nat) => Nat.xor x.1 (gfMul f x.2))) (List.replicate 30 0)

/-- The 30 syndromes of a received codeword, first symbol of highest power. -/
def rsSyndromes (cw : List Nat) : List Nat :=
  upTo 30 (fun i => let a := gfPow i; cw.foldl (fun r c => Nat.xor (gfMul r a) c) 0)

/-- Where the search for the shortest error locator stands (Berlekamp and Massey). -/
structure LocatorSearch where
  /-- the locator, lowest coefficient first, and its length -/
  loc  : List Nat := [1]
  len  : Nat := 0
  /-- the locator before its last change of length, its discrepancy, and the steps since -/
  prev : List Nat := [1]
  disc : Nat := 1
  gap  : Nat := 1

/-- One syndrome more. -/
def locatorStep (synd : List Nat) (n : Nat) (q : LocatorSearch) : LocatorSearch :=
  let d := (List.range (q.len + 1)).foldl (fun a i => Nat.xor a (gfMul (q.loc.getD i 0) (if i ≤ n then synd.getD (n - i) 0 else 0))) 0
  if d = 0 then { q with gap := q.gap + 1 }
  else
    let f := gfMul d (gfInv q.disc)
    let loc := polyAdd q.loc (List.replicate q.gap 0 ++ q.prev.map (gfMul f))
    if 2 * q.len ≤ n then { loc := loc, len := n + 1 - q.len, prev := q.loc, disc := d, gap := 1 }
    else { q with loc := loc, gap := q.gap + 1 }

/-- The coefficients of odd powers, each one power lower: the derivative over this field. -/
def polyDeriv (p : List Nat) : List Nat := (p.zipIdx.drop 1).map (fun x => if x.2 % 2 = 1 then x.1 else 0)

/-- Positions of a codeword, from its first symbol, at which a locator has a root. -/
def locatorRoots (loc : List Nat) : List Nat :=
  (List.range 544).filter (fun j => polyEval loc (gfPow ((1023 - (543 - j)) % 1023)) == 0)

/-- The symbol error at position j (Forney). -/
def errorValue (loc omega : List Nat) (j : Nat) : Nat :=
  let xi := gfPow ((1023 - (543 - j)) % 1023)
  gfMul (gfPow (543 - j)) (gfMul (polyEval omega xi) (gfInv (polyEval (polyDeriv loc) xi)))

/-- Correct a codeword of 544 symbols: the corrected symbols and the positions that were wrong, or nothing when more
than 15 symbols are (06 R148). -/
def rsDecode (cw : List Nat) : Option (List Nat × List Nat) :=
  let synd := rsSyndromes cw
  if synd.all (· == 0) then some (cw, [])
  else
    let q := (List.range 30).foldl (fun q n => locatorStep synd n q) {}
    let at_ := locatorRoots q.loc
    if 15 < q.len ∨ at_.length ≠ q.len then none
    else
      let omega := (polyMul synd q.loc).take 30
      let fixed := cw.zipIdx.map (fun x => if at_.contains x.2 then Nat.xor x.1 (errorValue q.loc omega x.2) else x.1)
      if (rsSyndromes fixed).all (· == 0) then some (fixed, at_) else none

/-! ### Frames (06 R149, R150) -/

/-- `n` 10-bit symbols of a bit string, the first bit of each its bit 0. -/
def symbolsOf : Nat → Nat → List Nat
  | 0, _ => []
  | n + 1, v => v % 1024 :: symbolsOf n (v / 1024)

/-- The bit string of 10-bit symbols. -/
def bitsOfSymbols : List Nat → Nat
  | [] => 0
  | a :: as => a + 1024 * bitsOfSymbols as

/-- Codewords of a frame on W active lanes. -/
def frameWords (w : Nat) : Nat := 2 * w

/-- Message bytes of a frame: 514 symbols of each codeword. -/
def frameBytes (w : Nat) : Nat := 1285 * w

/-- The bits of a frame: each codeword's 514 message symbols and 30 parity symbols (06 R148, R149). -/
def encodeFrame (w : Nat) (bytes : List Byte) : Nat :=
  let v := leNat (padTo (frameBytes w) bytes)
  (List.range (frameWords w)).foldr (fun c a =>
    let msg := symbolsOf 514 (v / 2 ^ (5140 * c))
    bitsOfSymbols (msg ++ rsParity msg) + 2 ^ 5440 * a) 0

/-- The payloads of row r of a frame, by logical lane (06 R149). -/
def frameRow (w frame r : Nat) : List (BitVec 128) :=
  upTo w (fun l => BitVec.ofNat 128 (bitsOf frame (128 * (w * r + l)) 128))

/-- What a received frame gives. -/
structure FrameOut where
  /-- its message bytes, each with whether it has a bit in a codeword that could not be corrected -/
  bytes : List (Byte × Bool) := []
  /-- for each corrected symbol, the logical lanes that carried its bits (06 R149) -/
  lanes : List (List Nat) := []

/-- The logical lanes that carry symbol i of codeword c. -/
def symbolLanes (w c i : Nat) : List Nat :=
  let a := 5440 * c + 10 * i
  [(a / 128) % w, ((a + 9) / 128) % w].eraseDups

/-- Decode the rows of a frame, first row first, each by logical lane (06 R148, R149, R154). -/
def decodeFrame (w : Nat) (rows : List (List (BitVec 128))) : FrameOut :=
  let frame := (rows.flatten).foldr (fun b a => b.toNat + 2 ^ 128 * a) 0
  let words := upTo (frameWords w) (fun c =>
    let cw := symbolsOf 544 (frame / 2 ^ (5440 * c))
    (cw, rsDecode cw))
  let v := words.foldr (fun x a =>
    bitsOfSymbols ((match x.2 with | some (m, _) => m | none => x.1).take 514) + 2 ^ 5140 * a) 0
  let bad (k : Nat) : Bool := match words[k / 5140]? with | some (_, none) => true | _ => false
  { bytes := (leBytes (frameBytes w) v).zipIdx.map (fun x => (x.1, bad (8 * x.2) || bad (8 * x.2 + 7)))
    lanes := words.zipIdx.flatMap (fun x => match x.1.2 with
      | some (_, at_) => at_.map (symbolLanes w x.2)
      | none => []) }

/-- Cut a received byte stream into whole flits, each with whether a codeword under it was bad; and what is left. -/
def cutFlits : Nat → List (Byte × Bool) → List (List Byte × Bool) × List (Byte × Bool)
  | 0, bs => ([], bs)
  | n + 1, bs =>
    if bs.length < 256 then ([], bs)
    else
      let f := bs.take 256
      let (fs, rest) := cutFlits n (bs.drop 256)
      ((f.map (·.1), f.any (·.2)) :: fs, rest)

/-! ### SEC-DED (137,128) (02 R30; log entry 96 for the arrangement of the check bits) -/

/-- Where the 128 data bits stand: bit 0 is the overall parity bit, and the bits numbered 1, 2, 4 to 128 are the
Hamming code's. -/
def dataPlaces : List Nat := (List.range 137).filter (fun k => Nat.land k (k - 1) != 0)

/-- The numbers of a word's set bits, added without carry. -/
def wordSyndrome (v : Nat) : Nat := (List.range 137).foldl (fun a k => if bitOf v k then Nat.xor a k else a) 0

/-- The word has an odd number of set bits. -/
def wordOdd (v : Nat) : Bool := (List.range 137).foldl (fun a k => a != bitOf v k) false

/-- 128 bits of data with their nine check bits. -/
def encodeWord (d : Nat) : Nat :=
  let v := (dataPlaces.zipIdx).foldl (fun a x => if bitOf d x.2 then a + 2 ^ x.1 else a) 0
  let c := wordSyndrome v
  let v := (List.range 8).foldl (fun a i => if bitOf c i then a + 2 ^ 2 ^ i else a) v
  if wordOdd v then v + 1 else v

/-- The data bits of a word. -/
def wordData (v : Nat) : Nat :=
  (dataPlaces.zipIdx).foldl (fun a x => if bitOf v x.1 then a + 2 ^ x.2 else a) 0

/-- What reading a word with flipped bits finds: nothing wrong, a bit to correct, or an error that cannot be
corrected. -/
inductive WordCheck where
  | clean
  | corrected (bit : Nat)
  | uncorrectable
  deriving DecidableEq, Repr, Inhabited

/-- Check a stored word: any single wrong bit is found and any two are detected (02 R30). -/
def checkWord (v : Nat) : WordCheck :=
  let k := wordSyndrome v
  if wordOdd v then (if k < 137 then .corrected k else .uncorrectable)
  else if k = 0 then .clean else .uncorrectable

/-- The bits of a word that are flipped, as a word. -/
def flipWord (flips : List Nat) : Nat := flips.foldl (fun a k => Nat.xor a (2 ^ (k % 137))) 0

/-- Read data whose word has had bits flipped since it was written. -/
def readWord (d : Nat) (flips : List Nat) : WordCheck × Nat :=
  let v := Nat.xor (encodeWord d) (flipWord flips)
  match checkWord v with
  | .corrected k => (.corrected k, wordData (Nat.xor v (2 ^ k)))
  | c => (c, wordData v)

end Sys2Proof.Machine
end

