-- ==== Sys2Proof/Machine/Phy.lean ====
section
/-! DEFINITION. The bit stream of a port between its flits and its lanes: lane states and the Deckle's map (05 R125, R126),
rows and markers sent (05 R117, R119, R123), deskew (05 R124) and FEC frames (06 R149, R150). -/

namespace Sys2Proof.Machine

/-! ### Lanes and the Deckle (05 R125, R126) -/

/-- Physical lanes of a port. -/
def allLanes : List Nat := List.range 9

def setLanes (f : Nat → Lane → Lane) (p : Port) : Port :=
  allLanes.foldl (fun q k => modLane k (f k) q) p

def lsOff : BitVec 4 := 0
def lsDetect : BitVec 4 := 1
def lsCal : BitVec 4 := 2
def lsAlign : BitVec 4 := 3
def lsActive : BitVec 4 := 4
def lsSpare : BitVec 4 := 5
def lsTrim : BitVec 4 := 6
def lsMirror : BitVec 4 := 7
def lsIdle : BitVec 4 := 8
def lsFailed : BitVec 4 := 9
def lsLoop : BitVec 4 := 0xA

/-- Logical lanes at a width. -/
def widthLanes (w : BitVec 2) : Nat := if w = 3 then 8 else if w = 2 then 4 else if w = 1 then 2 else 0

/-- The physical lane of logical lane L; 0xF unused. -/
def physOf (d : Deckle) (l : Nat) : BitVec 4 := tabGet 0xF d.map l

/-- The logical lane that a physical lane carries. -/
def logicalOf (d : Deckle) (k : Nat) : Option Nat :=
  (List.range (widthLanes d.width)).find? (fun l => (physOf d l).toNat == k)

/-! ### Sending (05 R117, R119, R123) -/

/-- The logical lane whose blocks lane k sends: its own, or the one it mirrors (05 R123, R141). -/
def carries (p : Port) (k : Nat) : Option Nat :=
  match logicalOf p.deckle k with
  | some l => some l
  | none => if (laneOf p k).state = lsMirror then p.cal.pass else none

/-- A lane sends a block some number of times in a row. -/
def sendBlocks (header : BitVec 2) (payload : BitVec 128) (count : Nat) (x : Lane) : Lane :=
  { x with sent := x.sent ++ [.block header payload count], line := pamLevels 65 (blockNat header payload) }

/-- A lane sends an ordered set, which is not scrambled (05 R119). -/
def sendOrdered (payload : BitVec 128) (x : Lane) : Lane := sendBlocks 1 payload 1 x

/-- A lane sends a data block, scrambled (05 R118, R119). -/
def sendScrambled (payload : BitVec 128) (x : Lane) : Lane :=
  let (v, d) := scramble 128 x.txScrambler payload
  sendBlocks 2 d 1 { x with txScrambler := v }

/-- What the lanes sent before is no longer the last they sent. -/
def newSending (p : Port) : Port := setLanes (fun _ x => { x with sent := [] }) p

/-- The EPOCH that lane k's marker carries: from the step 4 of a swap on, the new one on both lanes (05 R141). -/
def markerEpoch (p : Port) (k : Nat) : Byte :=
  if p.cal.step = 4 ∧ p.cal.pass.isSome = true ∧ carries p k = p.cal.pass then p.deckle.epoch + 1 else p.deckle.epoch

/-- A marker row leaves on all lanes at once, and the scramblers start again (05 R119, R123). -/
def sendMarkers (n : Nat) (p : Port) : Port :=
  let q := setLanes (fun k x => match carries p k with
    | some l => { sendOrdered (markerPayload l (markerEpoch p k) p.deckle.width n p.phy.txCount) x with txScrambler := scramblerSeed l }
    | none => x) p
  { q with phy := { q.phy with txRows := 0, txCount := q.phy.txCount + 1 } }

/-- A row of data blocks leaves, and a marker row after every 16,383 (05 R123). -/
def sendRow (n : Nat) (row : List (BitVec 128)) (p : Port) : Port :=
  let q := setLanes (fun k x => match carries p k with
    | some l => sendScrambled (row.getD l 0) x
    | none => x) p
  let q := { q with phy := { q.phy with txRows := q.phy.txRows + 1 } }
  if 16383 ≤ q.phy.txRows then sendMarkers n q else q

/-- A whole frame of the stream leaves on the lanes (06 R148 to R150). -/
def sendFrame (n : Nat) (p : Port) : Port :=
  let w := widthLanes p.deckle.width
  let f := encodeFrame w (p.phy.txBytes.take (frameBytes w))
  let p := newSending { p with phy := { p.phy with txBytes := p.phy.txBytes.drop (frameBytes w) } }
  (List.range 85).foldl (fun q r => sendRow n (frameRow w f r) q) p

/-- A flit joins the stream; a frame leaves when it is full (06 R150). -/
def streamFlit (n : Nat) (bytes : List Byte) (p : Port) : Port :=
  let w := widthLanes p.deckle.width
  if w = 0 then p
  else
    let p := { p with phy := { p.phy with txBytes := p.phy.txBytes ++ bytes } }
    if frameBytes w ≤ p.phy.txBytes.length then sendFrame n p else p

/-- The frame under way is filled with zero bits and leaves (06 R150). -/
def padFrame (n : Nat) (p : Port) : Port :=
  if p.phy.txBytes.isEmpty || p.deckle.width == 0 then newSending p else sendFrame n p

/-- The transmit lanes enter electrical idle: at the end of a frame, after one IDLE_ENTRY block on each active lane
(05 R135, 06 R150). -/
def idleEnter (n : Nat) (p : Port) : Port :=
  if p.txIdle then p
  else
    let q := setLanes (fun k x =>
      if (logicalOf p.deckle k).isSome then
        let y := sendOrdered idleEntryPayload x
        { y with sent := y.sent ++ [.idle], tx := .quiet }
      else x) (padFrame n p)
    { q with txIdle := true }

/-- What leads a lane out of electrical idle: 200 ns of the pattern 0303, 22,500 symbols, then 96 BURST blocks (05 R136). -/
def exitBurst (x : Lane) : Lane :=
  sendBlocks 1 burstPayload 96 { x with sent := x.sent ++ [.clock 22500], tx := .data }

/-- The transmit lanes leave electrical idle, with one MARKER of the same epoch last (05 R136). -/
def idleExit (n : Nat) (p : Port) : Port :=
  if !p.txIdle then p
  else
    let q := setLanes (fun k x => if (logicalOf p.deckle k).isSome then exitBurst x else x) (newSending p)
    { sendMarkers n q with txIdle := false }

/-- Both directions of the stream start again at the next frame (06 R149; log entry 97 for a change of width). -/
def restartStream (p : Port) : Port :=
  { p with phy := { p.phy with txBytes := [], rxRows := [], rxBytes := [] } }

/-! ### Receiving (05 R124; 06 R148 to R150) -/

/-- A block joins a lane's deskew buffer, once a marker has shown where the lane stands; 64 are held, and one more is
lost (05 R124; log entry 97). -/
def pushDeskew (e : Deskewed) (x : Lane) : Lane :=
  if x.rxLogical.isSome && decide (x.fifo.length < 64) then { x with fifo := x.fifo ++ [e] } else x

/-- The physical lane that the markers say carries logical lane l (05 R124). -/
def laneOfLogical (p : Port) (l : Nat) : Option Nat :=
  allLanes.find? (fun k => (logicalOf p.deckle k).isSome && (laneOf p k).rxLogical == some l)

/-- The oldest block held on each logical lane, when every lane holds one. -/
def deskewHeads (p : Port) : Option (List Deskewed) :=
  (List.range (widthLanes p.deckle.width)).mapM (fun l =>
    (laneOfLogical p l).bind (fun k => (laneOf p k).fifo.head?))

/-- Drop the oldest block of the lanes that hold one satisfying a test. -/
def dropHeads (f : Deskewed → Bool) (p : Port) : Port :=
  setLanes (fun _ x => match x.fifo with
    | e :: es => if f e then { x with fifo := es } else x
    | [] => x) p

/-- When a marker row is whole, each lane's lead over the last one is its deskew offset (05 R124, R131, R135). -/
def holdSkew (p : Port) : Port :=
  setLanes (fun k x => if (logicalOf p.deckle k).isSome then { x with skew := x.fifo.length - 1 } else x) p

/-- Symbols corrected in a frame count against every lane that carried one of their bits (06 R149, 05 R138). -/
def countSymbols (hit : List (List Nat)) (p : Port) : Port :=
  setLanes (fun k x => match logicalOf p.deckle k with
    | some l =>
      let c := (hit.filter (·.contains l)).length
      { x with corrSymbols := satAdd x.corrSymbols c, winSymbols := x.winSymbols + c }
    | none => x) p

/-- A row of the frame under way; the 85th ends the frame, which is decoded and cut into flits (06 R149, R150, R154). -/
def takeRow (row : List (BitVec 128)) (p : Port) : Port :=
  let rows := p.phy.rxRows ++ [row]
  if rows.length < 85 then { p with phy := { p.phy with rxRows := rows } }
  else
    let o := decodeFrame (widthLanes p.deckle.width) rows
    let bs := p.phy.rxBytes ++ o.bytes
    let (fs, rest) := cutFlits (bs.length / 256) bs
    countSymbols o.lanes { p with phy := { p.phy with rxRows := [], rxBytes := rest, arrived := p.phy.arrived ++ fs } }

def markerNo (e : Deskewed) : Nat := match e with | .marker c => c.toNat | _ => 0
def isMarker (e : Deskewed) : Bool := match e with | .marker _ => true | _ => false
def dataOf (e : Deskewed) : Option (BitVec 128) := match e with | .data d => some d | _ => none

/-- Align the lanes by their markers and take what stands in one row (05 R124); marker rows belong to no frame (06 R149).
A lane that lags behind a marker of the others gives up its blocks. -/
def deskew : Nat → Port → Port
  | 0, p => p
  | fuel + 1, p =>
    match deskewHeads p with
    | none => p
    | some [] => p
    | some hs =>
      match hs.mapM dataOf with
      | some row => deskew fuel (takeRow row (dropHeads (fun _ => true) p))
      | none =>
        if hs.all (fun e => isMarker e && markerNo e == markerNo (hs.headD default)) then
          deskew fuel (dropHeads (fun _ => true) (holdSkew p))
        else
          let top := (hs.filter isMarker).foldl (fun a e => max a (markerNo e)) 0
          deskew fuel (dropHeads (fun e => !(isMarker e && markerNo e == top)) p)

/-- A block is taken on lane k, and whole rows leave the deskew buffers. -/
def takeBlock (k : Nat) (e : Deskewed) (p : Port) : Port :=
  deskew 600 (modLane k (pushDeskew e) p)

end Sys2Proof.Machine
end

