-- ==== Sys2Proof/Machine/Irq.lean ====
section
/-! DEFINITION. Interrupt events, coalescing and messages (14 R382 to R386). -/

namespace Sys2Proof.Machine

/-- The causes of an interrupt (14 R382). -/
def causeCompletion : BitVec 4 := 0
def causeFault : BitVec 4 := 1
def causeInvalidate : BitVec 4 := 2
def causeError : BitVec 4 := 3
def causeResetDone : BitVec 4 := 4

/-- The codes of a partition's state (14 R378). -/
def partAbsent : BitVec 2 := 0
def partReady : BitVec 2 := 1
def partResetting : BitVec 2 := 2

/-- A message of vector v of partition p that has been made and not transferred (14 R385). -/
def msgHeld (s : State) (p v : Nat) : Bool :=
  s.par.messages.any (fun m => m.par.toNat == p && m.vec.val == v)

/-- IRQ_DATA of a message (14 R384). -/
def irqData (vec : Vector) (v : Nat) : BitVec 32 :=
  BitVec.ofNat 32 (vec.tag.toNat + (vec.cause.getD 0).toNat * 2 ^ 16 + v % 16 * 2 ^ 20 +
    min vec.pending.toNat 255 * 2 ^ 24)

/-- A vector's conditions of R383 hold: not masked, and the count or the time reached. -/
def vecReady (vec : Vector) : Bool :=
  !vec.mask && vec.addr != 0 &&
    (decide (max 1 vec.thresh.toNat ≤ vec.pending.toNat) || (vec.due && vec.pending != 0))

/-- Make the vector's message when R383 lets it and none is held (14 R383, R385). -/
def tryMessage (p v : PartNo) (s : State) : State :=
  let vec := vecOf s p v
  if vecReady vec && !msgHeld s p v then
    let m : IrqMsg := { addr := vec.addr, data := irqData vec v, par := BitVec.ofNat 4 p, vec := v,
                        events := vec.pending.toNat }
    let s := { s with par := { s.par with messages := s.par.messages ++ [m] } }
    modVec p v (fun w => { w with pending := 0, cause := none, due := false }) s
  else s

/-- Raise one event of a cause on vector v of partition p (14 R383, R386). -/
def irqEvent (p v : PartNo) (cause : BitVec 4) (s : State) : State :=
  if (vecOf s p v).addr = 0 then
    modPart p (fun q => { q with drops := satInc q.drops })
      (modVec p v (fun w => { w with events := satInc w.events }) s)
  else
    tryMessage p v
      (modVec p v (fun w =>
        { w with
          pending := satInc w.pending
          events := satInc w.events
          cause := match w.cause with
            | none => some cause
            | some c => some (if c = cause then c else 0xF) }) s)

/-- Raise a cause on the vector that PAR_IRQ_MAP gives it (14 R382). -/
def irqMapped (p : PartNo) (cause : BitVec 4) (s : State) : State :=
  let q := partOf s p
  let v := if cause = causeFault then q.faultVec
    else if cause = causeInvalidate then q.invVec
    else if cause = causeError then q.errorVec
    else q.resetVec
  irqEvent p ⟨v.toNat, v.isLt⟩ cause s

/-- Every partition number. -/
def allParts : List PartNo := List.finRange 16

/-- Raise ERROR on every present partition (15 R408). -/
def errorAll (s : State) : State :=
  forEach allParts (fun p t => onlyIf (decide ((partOf t p).state ≠ partAbsent)) (irqMapped p causeError) t) s

/-- Discard what a partition's reset finds held or pending (14 R386, R399 step 9). -/
def discardIrqs (p : PartNo) (s : State) : State :=
  let pend := (List.range 16).foldl (fun a v => a + (vecOf s p v).pending.toNat) 0
  let mine := s.par.messages.filter (fun m => m.par.toNat == p.val)
  let s := { s with par := { s.par with messages := s.par.messages.filter (fun m => m.par.toNat != p.val) } }
  let s := forEach (List.range 16) (fun v =>
    modVec p v (fun w => { w with pending := 0, cause := none, due := false })) s
  modPart p (fun q => { q with discarded := satAdd q.discarded (pend + mine.length) }) s

/-- The oldest message of a partition that is not RESETTING transfers (14 R385, R399 step 1). -/
def doInterruptTransfer (s : State) : State :=
  match s.par.messages.find? (fun m => (partOf s m.par.toNat).state != partResetting) with
  | none => s
  | some m =>
    let s := { s with
      par := { s.par with messages := s.par.messages.erase m }
      out := { s.out with irq := some m } }
    let p : PartNo := ⟨m.par.toNat, m.par.isLt⟩
    tryMessage p m.vec (modPart p (fun q => { q with sent := satInc q.sent }) s)

/-- TIME_US has passed since the oldest pending event (14 R383). -/
def doInterruptTimeLimit (p v : PartNo) (s : State) : State :=
  let vec := vecOf s p v
  if vec.pending = 0 ∨ vec.timeUs = 0 then s
  else tryMessage p v (modVec p v (fun w => { w with due := true }) s)

end Sys2Proof.Machine
end

