-- ==== Sys2Proof/Machine/Rot.lean ====
section
/-! DEFINITION. Requests to the root of trust, and measurements (16 R431, R432, R437, R438). -/

namespace Sys2Proof.Machine

/-- Request types (16 R432). -/
def rotVerifyImage : Byte := 0x01
def rotVerifyLicence : Byte := 0x02
def rotDieIdentity : Byte := 0x03
def rotNonce : Byte := 0x04
def rotAdmitMac : Byte := 0x05
def rotMeasure : Byte := 0x06
def rotKeyRequest : Byte := 0x07
def rotNotice : Byte := 0x08

/-- Give a request its TAG and send it, or keep it while 16 are outstanding (16 R432). -/
def rotPut (r : RotReq) (s : State) : State :=
  if s.sec.rot.length < 16 then
    { s with sec := { s.sec with rot := s.sec.rot ++ [{ r with tag := s.sec.rotTag }], rotTag := s.sec.rotTag + 1 } }
  else { s with sec := { s.sec with rotWaiting := s.sec.rotWaiting ++ [r] } }

/-- Send a request to the root of trust (16 R432). -/
def rotSend (typ : Byte) (body : List Byte) (owner : RotOwner) (s : State) : State :=
  rotPut { tag := 0, typ := typ, body := body, owner := owner } s

/-- Requests that waited are sent when others have been answered (16 R432). -/
def rotPump (s : State) : State :=
  forEach s.sec.rotWaiting rotPut { s with sec := { s.sec with rotWaiting := [] } }

/-! ### Measurements (16 R437, R438) -/

/-- Kinds of measurement. -/
def measFurnish : Byte := 1
def measFirmware : Byte := 2
def measOverride : Byte := 3
def measStart : Byte := 4
def measPlan : Byte := 5
def measRange : Byte := 6

/-- The 80 bytes of a measurement record (16 R437). -/
def measBytes (index : BitVec 32) (kind : Byte) (part ctx : Nat) (info digest : List Byte) : List Byte :=
  leBytes 4 index.toNat ++ [kind] ++ leBytes 1 part ++ leBytes 2 ctx ++ padTo 24 info ++ padTo 48 digest

/-- Send the oldest measurement that has not been answered (16 R438). -/
def sendMeasure (s : State) : State :=
  match s.sec.measures with
  | [] => s
  | m :: _ => rotSend rotMeasure m.record (.measure m.index) s

/-- Make a measurement: it takes the next INDEX, and is sent after those before it (16 R438). -/
def measure (kind : Byte) (part ctx : Nat) (info digest : List Byte) (run : Option Nat) (s : State) : State :=
  let m : Measure := { index := s.sec.measIndex, kind := kind, run := run
                       record := measBytes s.sec.measIndex kind part ctx info digest }
  let first := s.sec.measures.isEmpty
  let s := { s with sec := { s.sec with measIndex := s.sec.measIndex + 1, measures := s.sec.measures ++ [m] } }
  if first then sendMeasure s else s

end Sys2Proof.Machine
end

