-- ==== Sys2Proof/Machine/Errors.lean ====
section
/-! DEFINITION. The error log, its counters and its reports (15 R403 to R408, 16 R452). -/

namespace Sys2Proof.Machine

/-- An error event, with the fields of its record (15 R405). -/
structure Evt where
  /-- CLASS (15 R403) -/
  cls       : Nat
  /-- SEVERITY (15 R404) -/
  sev       : Nat
  injected  : Bool := false
  lasting   : Bool := false
  transient : Bool := false
  port      : Nat := 0xFF
  part      : Nat := 0xFF
  unitKind  : Nat := 0
  unitIndex : Nat := 0
  ctx       : Nat := 0xFFFF
  queue     : Nat := 0xFFFF
  addr      : Nat := 0
  cause     : Nat := 0
  remain    : Nat := 0
  capture   : Nat := 0
  detail    : List Byte := []
  deriving DecidableEq, Repr, Inhabited

/-- The codes of R403. -/
def clsLink : Nat := 1
def clsLane : Nat := 2
def clsPartner : Nat := 3
def clsMemory : Nat := 4
def clsInternal : Nat := 5
def clsTranslation : Nat := 6
def clsReduction : Nat := 7
def clsTransaction : Nat := 8
def clsHang : Nat := 9
def clsSteward : Nat := 10
def clsTakeover : Nat := 11
def clsPower : Nat := 12
def clsStart : Nat := 13
def clsSuspect : Nat := 14

/-- The 64 bytes of a record (15 R405). -/
def recordBytes (e : Evt) (seq time : Nat) : List Byte :=
  leBytes 1 e.cls ++ leBytes 1 e.sev ++
  leBytes 1 (b2n e.injected + 2 * b2n e.lasting + 4 * b2n e.transient) ++ leBytes 1 e.port ++
  leBytes 4 seq ++ leBytes 8 time ++
  leBytes 1 e.part ++ leBytes 1 e.unitKind ++ leBytes 2 e.unitIndex ++
  leBytes 2 e.ctx ++ leBytes 2 e.queue ++ leBytes 8 e.addr ++
  leBytes 2 e.cause ++ leBytes 2 0 ++ leBytes 4 e.remain ++ leBytes 4 e.capture ++ leBytes 4 0 ++
  padTo 16 e.detail

/-- First byte of the error log in the Vat (15 R405). -/
def logBase : Nat := 0x1700000

/-- Write bytes into the Vat at an address. -/
def vatWrite (a : Nat) (bs : List Byte) (s : State) : State :=
  { s with vat := { s.vat with mem := Memory.writeBytes s.vat.mem a bs } }

/-- Put a record into its slot of the ring (15 R405). -/
def placeRecord (bytes : List Byte) (s : State) : State :=
  vatWrite (logBase + numAt bytes 4 4 % 1024 * 64) bytes s

/-- Started firmware runs: not stopped, restarting or held in its boot stage (04 R97, 15 R419,
R420). -/
def stewardUp (s : State) : Bool := s.fur.fwStarted && !s.err.restarting && !s.err.stewardHeld

/-- MGMT_EPOCH advances by 1 (16 R456). -/
def bumpEpoch (s : State) : State := { s with sec := { s.sec with mgmtEpoch := s.sec.mgmtEpoch + 1 } }

/-- A record joins the report queue, or is counted in LOST (16 R452, R456). -/
def pushReport (bytes : List Byte) (s : State) : State :=
  if s.sec.reports.length < 256 then
    bumpEpoch { s with sec := { s.sec with reports := s.sec.reports ++ [bytes] } }
  else { s with sec := { s.sec with lost := satInc s.sec.lost } }

/-- Firmware reports a record, or will once it runs (15 R406, R408). -/
def report (bytes : List Byte) (s : State) : State :=
  if stewardUp s then pushReport bytes s
  else { s with sec := { s.sec with backlog := s.sec.backlog ++ [bytes] } }

/-- The reports held while firmware did not run are made (15 R406, R419). -/
def flushReports (s : State) : State :=
  forEach s.sec.backlog pushReport { s with sec := { s.sec with backlog := [] } }

/-- The 1 s window a moment lies in, numbered from 1 (15 R407). -/
def secondOf (s : State) : Nat := s.nowUs / 1000000 + 1

/-- An event makes a record: every one of severity 1 or more, and the first of severity 0 of its
class and UNIT_KIND in the window (15 R407). -/
def makesRecord (e : Evt) (s : State) : Bool :=
  decide (1 ≤ e.sev) || tabGet 0 s.err.noteAt (16 * e.cls + e.unitKind) != secondOf s

/-- Count an event in ERR_COUNT of its class. -/
def countEvent (e : Evt) (mk : Bool) (s : State) : State :=
  { s with err := { s.err with counts := tabMod {} e.cls (fun c =>
      { c with
        events := satInc c.events
        maxSev := if c.maxSev.toNat < e.sev then BitVec.ofNat 3 e.sev else c.maxSev
        records := if mk then satInc c.records else c.records }) s.err.counts } }

/-- Phase 2 has not ended: the log area of the Vat is not in use (15 R406). -/
def beforeVat (s : State) : Bool :=
  decide (s.fur.phase.toNat < 2) || (decide (s.fur.phase = 2) && decide (s.fur.outcome ≠ 2))

/-- Make a record: into the log, or into steward memory until phase 2 has ended (15 R405,
R406). -/
def makeRecord (bytes : List Byte) (s : State) : State :=
  let s := { s with err := { s.err with nextSeq := s.err.nextSeq + 1 } }
  if beforeVat s then
    if s.err.heldRecs.length < 64 then
      { s with err := { s.err with heldRecs := s.err.heldRecs ++ [bytes] } }
    else { s with err := { s.err with overwritten := satInc s.err.overwritten } }
  else
    placeRecord bytes
      (onlyIf (decide (1024 < numAt bytes 4 4))
        (fun s => { s with err := { s.err with overwritten := satInc s.err.overwritten } }) s)

/-- The ERROR cause that a record of severity 3 or 4 raises (15 R408). -/
def raiseError (e : Evt) (s : State) : State :=
  if e.sev = 4 then errorAll s
  else if h : e.sev = 3 ∧ e.part < 16 then irqMapped ⟨e.part, h.2⟩ causeError s
  else s

/-- A record of severity 3 or 4 in class PARTNER, START or SUSPECT goes to the root of trust as a
NOTICE (16 R432). -/
def noticeRecord (e : Evt) (bytes : List Byte) (s : State) : State :=
  if 3 ≤ e.sev ∧ (e.cls = clsPartner ∨ e.cls = clsStart ∨ e.cls = clsSuspect) then
    rotSend rotNotice bytes .notice s
  else s

/-- An error event: counted, recorded, reported and raised as R407 and R408 say. -/
def logErr (e : Evt) (s : State) : State :=
  let mk := makesRecord e s
  let seq := s.err.nextSeq.toNat
  let bytes := recordBytes e seq s.nowUs
  let s := countEvent e mk s
  let s := onlyIf (decide (e.sev = 0)) (fun s => { s with err := { s.err with
    noteAt := tabSet 0 (16 * e.cls + e.unitKind) (secondOf s) s.err.noteAt } }) s
  let s := onlyIf mk (makeRecord bytes) s
  let s := onlyIf (decide (1 ≤ e.sev)) (report bytes) s
  let s := noticeRecord e bytes s
  raiseError e s

/-- The records of steward memory go into the log when phase 2 ends (15 R406). -/
def releaseHeld (s : State) : State :=
  forEach s.err.heldRecs placeRecord { s with err := { s.err with heldRecs := [] } }

/-- A fail-operational take-over: severity 1, or 3 when nothing remains (15 R411). -/
def logTakeover (e : Evt) (remain : Nat) (s : State) : State :=
  logErr { e with cls := clsTakeover, sev := if remain = 0 then 3 else 1, remain := remain } s

/-- An uncorrectable error of the engine-level RAMs and datapaths (15 R425). -/
def noteUncorr (s : State) : State :=
  { s with err := { s.err with uncorrAt := s.nowUs :: s.err.uncorrAt } }

end Sys2Proof.Machine
end

