-- ==== Sys2Proof/Machine/VatOps.lean ====
section
/-! DEFINITION. The Vat: areas, masters, error correction, march tests, repair and the register
window (13). -/

namespace Sys2Proof.Machine

/-- The codes of STATE in VAT_STATUS. -/
def vatActive : BitVec 2 := 0
def vatRetention : BitVec 2 := 1
def vatTesting : BitVec 2 := 2
def vatWaking : BitVec 2 := 3

/-- Bytes of the Vat (13 R358). -/
def vatSize : Nat := 0x1800000

/-- The bit of ALLOW that an address's area has, for requests of partition `part` (13 R361,
R364): bit 0 for the partition's own region, bit 6 for another's. -/
def areaMask (s : State) (part : Option Nat) (a n : Nat) : Nat :=
  let e := a + n
  let inArea (lo size : Nat) : Bool := decide (lo ≤ a) && decide (e ≤ lo + size)
  let own : Bool := match part with
    | none => false
    | some p =>
      let r := partRec s p
      inArea (r.vatBase * 0x10000) (r.vatSize * 0x10000)
  let any : Bool := (List.range 16).any (fun p =>
    let r := partRec s p
    inArea (r.vatBase * 0x10000) (r.vatSize * 0x10000))
  b2n own + 2 * b2n (inArea 0x1400000 0x100000) + 4 * b2n (inArea 0x1500000 0x80000) +
    8 * b2n (inArea 0x1580000 0x100000) + 16 * b2n (inArea 0x1680000 0x80000) +
    32 * b2n (inArea 0x1700000 0x100000) + 64 * b2n any

/-- ALLOW of a master now (13 R364). -/
def allowOf (s : State) (m : Nat) : Nat :=
  if m ≤ 3 then 0x01
  else if m = 4 then 0x0E
  else if m = 5 then 0x20
  else if m = 6 then (if s.fur.directed then 0x7F else 0x30)
  else if m = 7 then 0x01
  else if m = 8 then (if s.fur.directed then 0x7F else 0x61)
  else 0x7F

/-- A master may make an access of `n` bytes at an address (13 R364, R365).  Outside directed
mode master 8 only reads the capture area. -/
def vatAllowed (s : State) (m : Nat) (part : Option Nat) (a n : Nat) (wr : Bool) : Bool :=
  let area := areaMask s part a n
  let allow := if m = 8 && wr && !s.fur.directed then 0x41 else allowOf s m
  (List.range 7).any (fun k => bitOf area k && bitOf allow k)

/-- A blocked access: counted and logged (13 R365).  CAUSE holds the master (log entry 12). -/
def vatViolation (m : Nat) (part : Option Nat) (a : Nat) (s : State) : State :=
  let s := { s with vat := { s.vat with violations := tabMod 0 m satInc s.vat.violations } }
  logErr { cls := clsInternal, sev := 2, unitKind := 10, part := part.getD 0xFF, addr := a, cause := m } s

/-! ### Errors in the arrays (13 R370, R371) -/

/-- The physical bank that serves a logical bank (13 R359). -/
def physBank (v : Vat) (b : Nat) : Nat :=
  if v.map0.valid && v.map0.logical.toNat == b then 48 + b2n v.map0.spare
  else if v.map1.valid && v.map1.logical.toNat == b then 48 + b2n v.map1.spare
  else b

/-- The logical bank that a physical bank serves, if any. -/
def logicalBank (v : Vat) (k : Nat) : Option Nat :=
  (List.range 48).find? (fun b => physBank v b == k)

/-- Address of a word (13 R358). -/
def wordAddr (b row w : Nat) : Nat := (row * 48 + b) * 64 + 16 * w

/-- The bytes of an uncorrectable word are undefined (13 R370, 00 R13). -/
def loseWord (a : Nat) (s : State) : State :=
  let (n, s) := takeFree s
  vatWrite a (upTo 16 (fun k => Config.undefinedByte n k)) s

/-- VAT_ECC_LAST after an error (13). -/
def noteEcc (row : Nat) (e : VatErr) (uncorrectable lasting : Bool) (s : State) : State :=
  { s with vat := { s.vat with
    eccLast := BitVec.ofNat 23 (e.bank % 64 + row % 8192 * 2 ^ 6 + e.word.val * 2 ^ 19 + b2n uncorrectable * 2 ^ 21 +
      b2n lasting * 2 ^ 22) } }

/-- A word with flipped bits is read: what its check bits find decides whether its corrected data is written back or it is
lost (02 R30; 13 R370; 15 R409, R410). -/
def vatError (inj : Bool) (row : Nat) (e : VatErr) (s : State) : State :=
  match logicalBank s.vat e.bank with
  | none => s
  | some b =>
    let a := wordAddr b row e.word
    match readWord (leNat (Memory.readBytes s.vat.mem a 16)) e.flips with
    | (.clean, _) => s
    | (.corrected k, d) =>
      let lasting := s.vat.seenBits.contains (e.bank, row, e.word.val, k)
      let s := noteEcc row e false lasting (vatWrite a (leBytes 16 d) s)
      let s := { s with vat := { s.vat with
        corrected := satInc s.vat.corrected
        seenBits := if lasting then s.vat.seenBits else (e.bank, row, e.word.val, k) :: s.vat.seenBits } }
      let s := onlyIf lasting (fun s => { s with err := { s.err with banksMarked := true } }) s
      logErr { cls := clsInternal, sev := if lasting then 1 else 0, injected := inj, lasting := lasting, unitKind := 10,
               unitIndex := e.bank, addr := a } s
    | (.uncorrectable, _) =>
      let s := noteEcc row e true false s
      let s := { s with vat := { s.vat with uncorrectable := satInc s.vat.uncorrectable } }
      let s := loseWord a s
      let s := onlyIf (decide (0x1400000 ≤ a)) noteUncorr s
      logErr { cls := clsInternal, sev := 2, injected := inj, unitKind := 10, unitIndex := e.bank, addr := a,
               detail := leBytes 2 b ++ leBytes 2 e.bank ++ leBytes 4 row ++ leBytes 1 e.word } s

/-- One row of each bank in service is read and corrected, but not in P3 nor during a march test (13 R371). -/
def doScrubRow (errs : List VatErr) (s : State) : State :=
  if s.vat.state ≠ vatActive ∨ s.vat.busy = true then s
  else
    let row := s.vat.scrubRow
    let s := forEach errs (vatError false row) s
    let wrap := decide (8191 ≤ row)
    { s with vat := { s.vat with
      scrubRow := if wrap then 0 else row + 1
      scrubPasses := if wrap then s.vat.scrubPasses + 1 else s.vat.scrubPasses } }

/-! ### Repair (13 R372 to R374) -/

/-- The banks named by a mask. -/
def banksIn (m : BitVec 50) : List Nat := (List.range 50).filter (fun k => m.getLsbD k)

/-- Passing spares not mapped (13 VAT_STATUS SPARES_FREE). -/
def freeSpares (v : Vat) : List Nat :=
  [48, 49].filter (fun k => v.tested && !v.spareFailed.getLsbD (k - 48) && (logicalBank v k).isNone)

/-- Map a logical bank to a spare in the first free entry of the repair map (13 R359). -/
def mapBank (b sp : Nat) (v : Vat) : Vat :=
  let e : RepairEntry := { logical := BitVec.ofNat 6 b, valid := true, spare := decide (sp = 49) }
  if !v.map0.valid then { v with map0 := e } else if !v.map1.valid then { v with map1 := e } else v

/-- Repair one failing bank with the lowest free spare and report it (13 R373, 15 R411). -/
def repairBank (b : Nat) (s : State) : State :=
  match freeSpares s.vat with
  | [] => s
  | sp :: rest =>
    let s := { s with vat := mapBank b sp s.vat }
    logTakeover { cls := 0, sev := 0, unitKind := 10, unitIndex := b } rest.length s

/-- The result of a destructive march test: the repair map made anew, lowest-numbered failing
bank first, and every byte zero (13 R372, R373). -/
def destructiveResult (failed : BitVec 50) (s : State) : State :=
  let s := { s with vat := { s.vat with
    mem := [], tested := true, bankFail := failed, map0 := {}, map1 := {}, seenBits := []
    spareFailed := BitVec.ofNat 2 (b2n (failed.getLsbD 48) + 2 * b2n (failed.getLsbD 49)) } }
  if 3 ≤ (banksIn failed).length then s
  else forEach ((banksIn failed).filter (· < 48)) repairBank s

/-- A spare that serves a logical bank has failed: its entry of the repair map takes the other spare, which is reported as
a repair is (13 R374). -/
def replaceSpare (k b : Nat) (s : State) : State :=
  match freeSpares s.vat with
  | [] => s
  | sp :: rest =>
    let e : RepairEntry := { logical := BitVec.ofNat 6 b, valid := true, spare := decide (sp = 49) }
    let v := s.vat
    let v := if v.map0.valid && v.map0.logical.toNat == b then { v with map0 := e } else { v with map1 := e }
    logTakeover { cls := 0, sev := 0, unitKind := 10, unitIndex := b } rest.length
      { s with vat := { v with spareFailed := v.spareFailed ||| BitVec.twoPow 2 (k - 48) } }

/-- The physical bank that served a logical bank has failed its march (13 R374 step 5). -/
def failServing (k : Nat) (s : State) : State :=
  match logicalBank s.vat k with
  | none => s
  | some b => if k < 48 then repairBank b s else replaceSpare k b s

/-- The result of a preserving march test, bank by bank in the order of the logical banks (13 R374, 15 R410). -/
def preservingResult (failed : BitVec 50) (s : State) : State :=
  let s := { s with
    vat := { s.vat with bankFail := failed }
    err := { s.err with banksMarked := false } }
  forEach (((List.range 48).map (physBank s.vat)).filter (fun k => failed.getLsbD k)) failServing s

/-- The queues of the engines stand still: nothing runs and no queue is scheduled (13 R374). -/
def enginesIdle (s : State) : Bool :=
  s.cq.runs.isEmpty && (List.range 16).all (fun k => (planOf s k).state == 0) &&
    s.cq.queues.all (fun q => q.2.state != 1 && q.2.state != 2)

/-- The march test may start (13 R372, R374, VAT_MARCH): directed mode, none under way, and for
the preserving test idle engines and a free spare. -/
def marchAllowed (preserving : Bool) (s : State) : Bool :=
  s.fur.directed && !s.vat.busy && s.vat.state == vatActive &&
    (!preserving || (enginesIdle s && !(freeSpares s.vat).isEmpty))

/-- Start a march test (13 VAT_MARCH). -/
def startMarch (preserving : Bool) (s : State) : State :=
  { s with vat := { s.vat with
    busy := true, preserving := preserving
    state := if preserving then s.vat.state else vatTesting } }

/-- A march test finishes (13 R373, R374). -/
def doMarchComplete (failed : BitVec 50) (us : BitVec 16) (s : State) : State :=
  if !s.vat.busy then s
  else
    let s := if s.vat.preserving then preservingResult failed s else destructiveResult failed s
    { s with vat := { s.vat with
      busy := false, preserving := false, passed := failed == 0, lastUs := us, state := vatActive } }

/-! ### Zeroing and retention -/

/-- Every byte from `lo` up to `hi` reads zero (13 R376). -/
def vatZero (lo hi : Nat) (s : State) : State :=
  { s with vat := { s.vat with mem := s.vat.mem.filter (fun c => decide (c.1 < lo) || decide (hi ≤ c.1)) } }

/-- A partition's region reads zero (13 R376, 14 R399 step 7). -/
def zeroRegion (p : Nat) (s : State) : State :=
  let r := partRec s p
  vatZero (r.vatBase * 0x10000) ((r.vatBase + r.vatSize) * 0x10000) s

/-- The steward scratch is cleared (13 R363). -/
def clearScratch (s : State) : State := vatZero 0x1680000 0x1700000 s

/-- On entry to P3 (13 R375). -/
def vatSleep (s : State) : State := { s with vat := { s.vat with state := vatRetention } }

/-- On leaving P3: a full scrub pass starts (13 R375). -/
def vatWake (s : State) : State := { s with vat := { s.vat with state := vatActive, scrubRow := 0 } }

/-! ### The register window (13 R377) -/

/-- The window address. -/
def winAddrOf (s : State) : Nat := s.vat.winAddr.toNat * 8

/-- The window access of a requester is allowed: master 7 for a partition, master 8 for 0x1F
(13 R364, R377); no access in retention or waking (13 R375). -/
def winAllowed (par : Nat) (wr : Bool) (s : State) : Bool :=
  (s.vat.state == vatActive || s.vat.state == vatTesting) &&
    vatAllowed s (if par = 0x1F then 8 else 7) (if par < 16 then some par else none) (winAddrOf s) 8 wr

/-- An address lies in the trigger table, the Headbox table or the hold area while the engines keep entries there, whose
layout the spec does not give (13 R361; log entry 81). -/
def tableInUse (s : State) (a : Nat) : Bool :=
  if a < 0x1400000 then false
  else if a < 0x1500000 then !s.cq.armed.isEmpty
  else if a < 0x1580000 then (List.range 16).any (fun k => (planOf s k).state != 0)
  else if a < 0x1680000 then s.cq.queues.any (fun q => q.2.fetched.any (fun f => f.held.isSome))
  else false

/-- The bytes at the window address are not known: a march test rewrites them, or the engines do (13 R361, R374). -/
def winUnknown (s : State) : Bool := s.vat.state == vatTesting || tableInUse s (winAddrOf s)

/-- Move 8 bytes at the window address and advance it (13 R377); the value read. -/
def winAccess (wr : Bool) (value : Word) (be : BitVec 8) (s : State) : Word × State :=
  let a := winAddrOf s
  let old := BitVec.ofNat 64 (leNat (Memory.readBytes s.vat.mem a 8))
  let next (s : State) : State := { s with vat := { s.vat with winAddr := s.vat.winAddr + 1 } }
  if wr then (0, next (vatWrite a (leBytes 8 (mergeBytes old value be).toNat) s))
  else if winUnknown s then
    let (n, s) := takeFree s
    (BitVec.ofNat 64 (leNat (upTo 8 (fun k => Config.undefinedByte n k))), next s)
  else (old, next s)

end Sys2Proof.Machine
end

