-- ==== Sys2Proof/Machine/Sched.lean ====
section
/-! DEFINITION. Deficit round robin (14 R387, R395), the pool's shares, and error injection
(15 R430). -/

namespace Sys2Proof.Machine

/-- The ring of a resource: those that left are dropped, those that arrived join at the end
(14 R387). -/
def ringUpdate (ring waiting : List Nat) : List Nat :=
  ring.filter (fun p => waiting.contains p) ++ waiting.filter (fun p => !ring.contains p)

/-- A partition outside the ring has a deficit of 0 (14 R387). -/
def deficitUpdate (key : Nat → Nat) (ring : List Nat) (d : Tab Nat) : Tab Nat :=
  (List.range 16).foldl (fun d p => if ring.contains p then d else tabSet 0 (key p) 0 d) d

/-- drr_pick of R387: the partition picked, the ring with it as the current one, and the
deficits. -/
def drrPick (cost weight : Nat → Nat) (quantum : Nat) (key : Nat → Nat) :
    Nat → List Nat → Tab Nat → Option (Nat × List Nat × Tab Nat)
  | 0, _, _ => none
  | _ + 1, [], _ => none
  | fuel + 1, p :: ring, d =>
    let have_ := tabGet 0 d (key p)
    if cost p ≤ have_ then some (p, p :: ring, tabSet 0 (key p) (have_ - cost p) d)
    else drrPick cost weight quantum key fuel (ring ++ [p])
      (tabSet 0 (key p) (have_ + quantum * weight p) d)

/-- Turns enough for a pick: every weight is at least 1 (04 R96), so each round of the ring adds
at least one quantum to every deficit. -/
def drrFuel (ring : List Nat) (maxCost quantum : Nat) : Nat := ring.length * (maxCost / quantum + 2)

/-- A partition may take turns (14 R395). -/
def takesTurns (s : State) (p : Nat) : Bool := (partOf s p).state == partReady

/-- The weights of a partition (04 R96). -/
def portWeight (s : State) (p : Nat) : Nat := max 1 (partRec s p).portWeight.toNat
def beaterWeight (s : State) (p : Nat) : Nat := max 1 (partRec s p).beaterWeight.toNat
def trackerWeight (s : State) (p : Nat) : Nat := max 1 (partRec s p).trackerWeight.toNat

/-! ### Injection (15 R430) -/

/-- The next event of this kind at this unit is injected. -/
def injecting (kind unit : Nat) (s : State) : Bool :=
  match s.err.inject with
  | none => false
  | some i => i.kind.toNat == kind && i.unit.toNat % 128 == unit && decide (0 < i.left)

/-- One injected event has happened. -/
def injectOne (s : State) : State :=
  match s.err.inject with
  | none => s
  | some i => { s with err := { s.err with
      inject := if i.left ≤ 1 then none else some { i with left := i.left - 1 }
      injected := satInc s.err.injected } }

/-- A single-bit error injected into a write of a RAM group, corrected when the word is read
(15 R407, R430). -/
def injectCorrected (group : Nat) (unitKind : Nat) (s : State) : State :=
  if injecting 3 group s then
    logErr { cls := clsInternal, sev := 0, injected := true, unitKind := unitKind } (injectOne s)
  else s

/-! ### Flipped bits in other RAMs and datapaths (02 R30; 08 R237; 15 R410) -/

/-- The word stays where it is after it has been read with an error that cannot be corrected. -/
def wordStays (w : RamWord) : Bool := match w with | .broke _ | .rank _ => true | _ => false

/-- A word is written anew, or no longer used: no bit of it is flipped. -/
def freshWord (w : RamWord) (s : State) : State :=
  { s with err := { s.err with flips := s.err.flips.filter (fun x => x.1 != w) } }

/-- The word holds an error that cannot be corrected. -/
def wordLost (w : RamWord) (s : State) : Bool :=
  s.err.flips.any (fun x => x.1 == w && checkWord (flipWord x.2) == .uncorrectable)

/-- The word holds a corrected error that is lasting: the same bit has shown before (15 R409). -/
def wordLasting (w : RamWord) (s : State) : Bool :=
  s.err.flips.any (fun x => x.1 == w && match checkWord (flipWord x.2) with | .corrected k => s.err.shownBits.contains (w, k) | _ => false)

/-- A word is read: the answer says whether it is lost. A corrected error is written back, and is a lasting one when the same
bit has shown before. -/
def readRam (w : RamWord) (e : Evt) (s : State) : Bool × State :=
  match s.err.flips.find? (fun x => x.1 == w) with
  | none => (false, s)
  | some (_, flips) =>
    match checkWord (flipWord flips) with
    | .clean => (false, freshWord w s)
    | .corrected k =>
      let again := s.err.shownBits.contains (w, k)
      let s := { s with err := { s.err with shownBits := if again then s.err.shownBits else (w, k) :: s.err.shownBits } }
      (false, logErr { e with cls := clsInternal, sev := if again then 1 else 0, lasting := again } (freshWord w s))
    | .uncorrectable =>
      (true, logErr { e with cls := clsInternal, sev := max 2 e.sev } (noteUncorr (if wordStays w then s else freshWord w s)))

/-- An error injected into a write of the Vat, found in the word at this address (15 R430, group 2);
the answer says whether the word is lost. -/
def vatInject (a : Nat) (s : State) : Bool × State :=
  let e (flips : List Nat) : VatErr :=
    { bank := physBank s.vat (a / 64 % 48), word := ⟨a / 16 % 4, Nat.mod_lt _ (by decide)⟩, flips := flips }
  if injecting 4 2 s then (true, vatError true (a / 64 / 48) (e [0, 1]) (injectOne s))
  else if injecting 3 2 s then (false, vatError true (a / 64 / 48) (e [0]) (injectOne s))
  else (false, s)

end Sys2Proof.Machine
end

