-- ==== Sys2Proof/Machine/Link.lean ====
section
/-! DEFINITION. One port's link level: counts and the Broke store, control packets, pause, and
the sending and taking of flits (06 R148 to R176).  What a lost link or a fence leads to is in
Ports. -/

namespace Sys2Proof.Machine

/-! ### Port states (06 R174) -/

def psDown : BitVec 4 := 0
def psDetect : BitVec 4 := 1
def psTraining : BitVec 4 := 2
def psAdmission : BitVec 4 := 3
def psUp : BitVec 4 := 4
def psDegraded : BitVec 4 := 5
def psFenced : BitVec 4 := 6
def psTest : BitVec 4 := 7

/-- UP or DEGRADED: the port carries data flits (06 R174). -/
def inService (p : Port) : Bool := p.state == psUp || p.state == psDegraded

/-- Step 6 of a training attempt: link initialisation (05 R127, 06 R176). -/
def inLinkInit (p : Port) : Bool :=
  p.state == psTraining && (match p.attempt with | some a => a.step == 6 | none => false)

/-- The link is up: control packets pass (06 R174, R183). -/
def linkUp (p : Port) : Bool :=
  !p.txHiZ && (inLinkInit p || p.state == psAdmission || inService p || p.state == psFenced)

/-- The twin of a port (00 R16). -/
def twinOf (n : Nat) : Nat := if n % 2 = 0 then n + 1 else n - 1

/-- The block has a 6-port licence: port names of twin A only (01 R21). -/
def sixPort (s : State) : Bool := s.fur.capsSet && !s.fur.features.getLsbD 0

/-! ### Counts (06 R159, R160) -/

/-- `c` lies below `e` within the window. -/
def belowInWindow (c e : Count) : Bool := decide (1 ≤ (e - c).toNat) && decide ((e - c).toNat ≤ 1024)

/-- OLDEST: the oldest count in the Broke store (06 R160). -/
def oldestOf (t : Tx) : Count := t.nextTx - BitVec.ofNat 40 t.broke.length

/-- How far a count lies from OLDEST, when it lies from OLDEST to NEXT_TX. -/
def fromOldest (t : Tx) (c : Count) : Option Nat :=
  let d := (c - oldestOf t).toNat
  if d ≤ t.broke.length then some d else none

/-- The count that ACK_LOW stands for, as a distance from OLDEST (06 R160). -/
def expandAck (t : Tx) (low : BitVec 16) : Option Nat :=
  let d := (low - (oldestOf t).setWidth 16).toNat
  if d ≤ t.broke.length then some d else none

/-- The `d` oldest flits are acknowledged and freed (06 R160, R161). -/
def freeAcked (d : Nat) (t : Tx) : Tx :=
  let t' := { t with broke := t.broke.drop d, replayFails := if d = 0 then t.replayFails else 0 }
  { t' with resend := if (t'.nextTx - t'.resend).toNat ≤ t'.broke.length then t'.resend else oldestOf t' }

/-! ### Misbehaviour (06 R182) -/

/-- A malformed event of port n: counted, logged, and a fence at the limit. -/
def malformedAt (n : Nat) (s : State) : State :=
  let s := modPort n (fun p =>
    { p with
      malformed := satInc p.malformed
      winMalformed := p.winMalformed + 1
      fenceDue := if 64 ≤ p.winMalformed + 1 && inService p then some 0x08 else p.fenceDue }) s
  logErr { cls := clsPartner, sev := 0, port := n, unitKind := 3 } s

/-- A pause violation of the partner at port n (06 R172, R182). -/
def pauseViolAt (n : Nat) (s : State) : State :=
  let s := modPort n (fun p =>
    { p with
      pauseViol := satInc p.pauseViol
      winViol := p.winViol + 1
      fenceDue := if 16 ≤ p.winViol + 1 && inService p then some 0x06 else p.fenceDue }) s
  logErr { cls := clsPartner, sev := 0, port := n, unitKind := 3 } s

/-- The link of port n is lost in this step, with its DOWN_CAUSE (06 R175). -/
def loseLink (n : Nat) (cause : Byte) (s : State) : State :=
  modPort n (fun p => { p with lossDue := some (p.lossDue.getD cause) }) s

/-- An impossible count: malformed, and the link is lost (06 R182). -/
def impossibleCount (n : Nat) (s : State) : State := loseLink n 0x05 (malformedAt n s)

/-! ### Control packets (06 R157, R158, R167) -/

/-- The port's state allows a packet of this type (06 R158). -/
def ctrlAllowed (p : Port) (typ : Byte) : Bool :=
  ctrlTypes.contains typ &&
    (if p.state == psTraining then typ == tyLinkInit || typ == tyRttProbe || typ == tyRttEcho || typ == tyFenceNotice
     else if p.state == psAdmission || p.state == psFenced then !ctrlServiceOnly.contains typ
     else inService p)

/-- Queue a control packet for sending. -/
def sendCtrl (typ : Byte) (body : List Byte) (part : Bool) (p : Port) : Port :=
  { p with ctl := { p.ctl with queue := p.ctl.queue ++ [{ typ := typ, part := part, body := padTo 24 body }] } }

/-- Queue a control packet on port n when its link is up and its state allows the type (06 R158). -/
def sendCtrlAt (n : Nat) (typ : Byte) (body : List Byte) (part : Bool := false) (s : State) : State :=
  modPort n (fun p => if linkUp p && ctrlAllowed p typ then sendCtrl typ body part p else p) s

/-- Packets waiting for a place get their SEQ and join the replay buffer while it holds fewer than
64 (06 R167). -/
def fillHeld (c : Ctl) : Ctl :=
  let room := 64 - c.held.length
  let new := (c.queue.take room).zipIdx.map (fun x => { x.1 with seq := c.nextSeq + BitVec.ofNat 16 x.2 })
  { c with held := c.held ++ new, queue := c.queue.drop room, nextSeq := c.nextSeq + BitVec.ofNat 16 new.length }

/-- A packet of this type has been made and has no place in the replay buffer yet (06 R167). -/
def ctrlStalled (typ : Byte) (c : Ctl) : Bool := (fillHeld c).queue.any (·.typ == typ)

/-- A packet of this type has been made and not sent. -/
def ctrlUnsent (typ : Byte) (c : Ctl) : Bool := (c.held.drop c.sent ++ c.queue).any (·.typ == typ)

/-- A packet is ready to send. -/
def ctrlReady (c : Ctl) : Bool := decide (c.sent < (fillHeld c).held.length)

/-- CACK acknowledges every packet below it (06 R167). -/
def takeCack (cack : BitVec 16) (c : Ctl) : Ctl :=
  match c.held with
  | [] => c
  | h :: _ =>
    let k := (cack - h.seq).toNat
    if k ≤ c.held.length then { c with held := c.held.drop k, sent := c.sent - k } else c

/-- Resend from a packet on (06 R167). -/
def ctrlRewind (c : Ctl) : Ctl := { c with sent := 0 }

/-- One received control packet: processed into the inbox, discarded, or discarded with a CNAK
(06 R167); a type that is reserved or that the state forbids is malformed (06 R158).  A packet behind others that wait
for their step is judged when its turn comes, for they may change the state (log entry 11). -/
def recvPacket (n : Nat) (bs : List Byte) (s : State) : State :=
  match parseCtrl bs with
  | none => malformedAt n s
  | some c =>
    let p := portOf s n
    if c.seq = p.ctl.expected then
      let s := modPort n (fun p => { p with ctl := { p.ctl with expected := p.ctl.expected + 1, cnakSent := false } }) s
      if ctrlAllowed p c.typ || (ctrlTypes.contains c.typ && !p.ctl.inbox.isEmpty) then
        modPort n (fun p => { p with ctl := { p.ctl with inbox := p.ctl.inbox ++ [c] } }) s
      else malformedAt n s
    else if 1 ≤ (p.ctl.expected - c.seq).toNat ∧ (p.ctl.expected - c.seq).toNat ≤ 64 then s
    else if p.ctl.cnakSent || !ctrlAllowed p tyCnak then s
    else
      modPort n (fun p =>
        let p := sendCtrl tyCnak (leBytes 2 p.ctl.expected.toNat) false p
        { p with cnakSent := satInc p.cnakSent, ctl := { p.ctl with cnakSent := true } }) s

/-- A packet of the inbox equals the one a command carries, whatever its SEQ. -/
def sameCtrl (typ : Byte) (part : Bool) (body : List Byte) (c : Ctrl) : Bool :=
  c.typ == typ && c.part == part && c.body == padTo 24 body

/-- The block without a control packet, taken out of the inbox of its port where it waits there. -/
def fromInbox (n : Nat) (typ : Byte) (part : Bool) (body : List Byte) (s : State) : State :=
  if (portOf s n).ctl.inbox.any (sameCtrl typ part body) then
    modPort n (fun p => { p with ctl := { p.ctl with inbox := p.ctl.inbox.eraseP (sameCtrl typ part body) } }) s
  else s

/-- Act on a control packet: taken from the inbox where it waits there, and otherwise judged
against the port's state first (06 R158; log entry 11). -/
def onPacket (n : Nat) (typ : Byte) (part : Bool) (body : List Byte) (f : State → State) (s : State) : State :=
  let u := fromInbox n typ part body s
  if ctrlAllowed (portOf s n) typ then f u
  else if linkUp (portOf s n) then malformedAt n u
  else u

/-! ### Pause (06 R168 to R173) -/

/-- Flits charged to the shared area. -/
def sharedUsed (r : Rx) : Nat := (r.buf.filter (·.shared)).length

/-- Flits a VC buffer holds. -/
def vcbUsed (r : Rx) (v : Nat) : Nat := (r.buf.filter (fun f => f.vcb.val == v)).length

/-- Flits of a VC buffer charged to its reserve. -/
def reserveUsed (r : Rx) (v : Nat) : Nat := (r.buf.filter (fun f => f.vcb.val == v && !f.shared)).length

/-- The XOFF bits a receiver sends, as occupancy sets and clears them (06 R170). -/
def xoffBits (paused : Bool) (r : Rx) : Byte :=
  BitVec.ofNat 8 ((List.range 8).foldl (fun a v =>
    a + (if paused && (if r.xoffSent.getLsbD v then decide (8 ≤ vcbUsed r v) else decide (16 ≤ vcbUsed r v))
         then 2 ^ v else 0)) 0)

/-- Enter or leave pause mode and set or clear XOFF bits (06 R170, R156). -/
def updatePause (r : Rx) : Rx :=
  let n := sharedUsed r
  let paused := if r.paused then decide (512 ≤ n) else decide (640 ≤ n)
  let x := xoffBits paused r
  { r with
    paused := paused
    xoffSent := x
    nullReady := r.nullReady || x != r.xoffSent
    xoffSentAt := r.xoffSentAt.filter (fun e => x.getLsbD e.1) }

/-- The partner's XOFF bits as a good header carries them (06 R171, R173). -/
def takeXoff (now : Nat) (x : Byte) (p : Port) : Port :=
  let held := (List.range 8).filter (fun v => p.rx.xoffRcvd.getLsbD v && !x.getLsbD v)
  let longest := held.foldl (fun a v => max a (now - tabGet now p.rx.xoffSince v)) p.longestXoff.toNat
  let since := (List.range 8).filterMap (fun v =>
    if x.getLsbD v then some (v, if p.rx.xoffRcvd.getLsbD v then tabGet now p.rx.xoffSince v else now) else none)
  { p with
    longestXoff := BitVec.ofNat 16 (min longest 65535)
    rx := { p.rx with xoffRcvd := x, xoffSince := since } }

/-- The header of a good flit: acknowledgement, pause and control acknowledgement (06 R152, R160,
R167, R171). -/
def takeHeader (n : Nat) (h : FlitHdr) (s : State) : State :=
  let p := portOf s n
  let now := s.nowUs
  match (if p.rx.frozen then some 0 else expandAck p.tx h.ackLow) with
  | none => impossibleCount n s
  | some d =>
    modPort n (fun p =>
      let p := takeXoff now h.xoff p
      { p with tx := freeAcked d p.tx, ctl := takeCack h.cack p.ctl }) s

/-! ### Taking flits (06 R154, R162, R165, R172) -/

/-- Send NAK with EXPECTED and wait for REPLAY_START (06 R162). -/
def sendNak (reason : Byte) (p : Port) : Port :=
  let p := sendCtrl tyNak (leBytes 5 p.rx.expected.toNat ++ [reason]) false p
  { p with
    nakSent := satInc p.nakSent
    rx := { p.rx with waiting := true, nakReason := reason, naksForCount := p.rx.naksForCount + 1 } }

/-- A flit that arrives in service and cannot be taken (06 R162, R172).  After four NAKs for one count the receiver only
waits (06 R164; log entry 98). -/
def refuseFlit (n : Nat) (reason : Byte) (s : State) : State :=
  let r := (portOf s n).rx
  if r.waiting then s
  else
    logErr { cls := clsLink, sev := 0, transient := true, port := n, unitKind := 2,
             detail := leBytes 5 r.expected.toNat }
      (modPort n (if r.naksForCount < 4 then sendNak reason
        else fun p => { p with rx := { p.rx with waiting := true, nakReason := reason } }) s)

/-- A data flit came after its VC buffer's XOFF had been held for RTT_FCLK plus 1,500 FCLK cycles
(06 R182, ignoring pause). -/
def ignoresPause (now : Nat) (v : Nat) (p : Port) : Bool :=
  p.rx.xoffSentAt.any (fun e => e.1 == v && decide (p.rttFclk.toNat + 1500 < (now - e.2) * 1500))

/-- Accept a good data flit in order (06 R162, R169, R170).  Of a flit with a message that runs past its last slot, the
messages before that one are kept and a malformed event is counted (log entry 91). -/
def acceptFlit (n : Nat) (v : Fin 8) (payload : List Byte) (s : State) : State :=
  let (msgs, ok) := parseMsgs 15 payload
  let lost := injecting 4 4 s
  let late := ignoresPause s.nowUs v (portOf s n)
  let s := modPort n (fun p =>
    let shared := decide (32 ≤ vcbUsed p.rx v)
    let f : RxFlit := { vcb := v, shared := shared, msgs := msgs, onHold := p.rx.hold }
    let r := { p.rx with
      buf := if msgs.isEmpty || lost then p.rx.buf else p.rx.buf ++ [f]
      cur := p.rx.cur + 1, expected := p.rx.expected + 1
      naksForCount := 0, ackOwed := true }
    { p with rx := updatePause r }) s
  let s := onlyIf lost (fun s =>
    logErr { cls := clsInternal, sev := 2, injected := true, port := n, unitKind := 3 } (noteUncorr (injectOne s))) s
  let s := onlyIf (!lost) (injectCorrected 4 3) s
  let s := onlyIf late (pauseViolAt n) s
  onlyIf (!ok) (malformedAt n) s

/-- A good data flit in service (06 R162 to R165, R172). -/
def takeData (n : Nat) (h : FlitHdr) (payload : List Byte) (s : State) : State :=
  if (portOf s n).rx.waiting then s
  else
    let s := takeHeader n h s
    let p := portOf s n
    let v : Fin 8 := ⟨h.vcb % 8, Nat.mod_lt _ (by decide)⟩
    if p.lossDue.isSome then s
    else if belowInWindow p.rx.cur p.rx.expected then
      modPort n (fun p => { p with
        dupDiscarded := satInc p.dupDiscarded
        rx := { p.rx with cur := p.rx.cur + 1, ackOwed := true } }) s
    else if 32 ≤ vcbUsed p.rx v ∧ 1792 ≤ sharedUsed p.rx then
      pauseViolAt n (refuseFlit n 2 s)
    else acceptFlit n v payload s

/-- The packets of a good control flit (06 R151, R167). -/
def takePackets (n count : Nat) (payload : List Byte) (s : State) : State :=
  forEach (List.range count) (fun k => recvPacket n (bytesAt payload (32 * k) 32)) s

/-- A flit that the lanes delivered is taken from where it waits (06 R150; log entry 31). -/
def takeArrived (n : Nat) (bytes : List Byte) (bad : Bool) (s : State) : State :=
  modPort n (fun p => { p with phy := { p.phy with arrived := p.phy.arrived.erase (bytes, bad) } }) s

/-- A flit arrives (06 R154, R162, R174): bad ones are NAKed in service, control flits are taken
whenever the link is up, data flits only in service. -/
def recvFlit (n : Nat) (bytes : List Byte) (badCodeword : Bool) (s : State) : State :=
  let p := portOf s n
  let s := takeArrived n bytes badCodeword s
  if !linkUp p then s
  else
    let h := parseHdr bytes
    let good := !badCodeword && flitCrcOk bytes
    let payload := bytesAt bytes 8 240
    if !good then onlyIf (inService p) (refuseFlit n 1) s
    else if !(h.kind == 1 || h.kind == 2) || h.rsv != 0 then
      onlyIf (inService p) (refuseFlit n 3) (malformedAt n s)
    else if h.kind = 2 then
      let s := takeHeader n h s
      if (portOf s n).lossDue.isSome then s else takePackets n h.vcb payload s
    else if inService p then takeData n h payload s
    else s

/-! ### Taking messages out of the receive buffer (06 R169) -/

/-- Where a message stands in the receive buffer, among flits not held back. -/
def hasMsg (v : Fin 8) (m : Msg) (held : Bool) (f : RxFlit) : Bool :=
  f.vcb == v && f.onHold == held && f.msgs.contains m

/-- Remove one message; a flit leaves with its last message (06 R169). -/
def dropMsg (v : Fin 8) (m : Msg) : List RxFlit → List RxFlit
  | [] => []
  | f :: fs =>
    if hasMsg v m false f then
      let ms := f.msgs.erase m
      if ms.isEmpty then fs else { f with msgs := ms } :: fs
    else f :: dropMsg v m fs

/-- Another message waits in the VC buffer for a replay entry, and nothing behind it may be taken (08 R234). -/
def vcbClosed (s : State) (n : Nat) (v : Fin 8) (m : Msg) : Bool :=
  s.trk.stalled.any (fun e => match e.1 with
    | .port k w => k.val == n && w == v && e.2 != m
    | .self => false)

/-- The port level takes a message (06 R169, R170): out of the buffer that holds its flit, which was received good and
accepted.  A message that is still held behind its twin cannot be taken (06 R179, R181). -/
def takeMsg (n : Nat) (v : Fin 8) (m : Msg) (s : State) : Option State :=
  let p := portOf s n
  if vcbClosed s n v m then none
  else if p.rx.buf.any (hasMsg v m false) then
    some (modPort n (fun p => { p with rx := updatePause { p.rx with buf := dropMsg v m p.rx.buf } }) s)
  else none

/-! ### Sending flits (06 R156, R161, R163, R171; 07 R204; 14 R388, R389) -/

/-- Flits of a VC buffer that are unacknowledged (06 R171). -/
def unacked (t : Tx) (v : Nat) : Nat := (t.broke.filter (fun f => f.vcb.val == v)).length

/-- The partner's pause lets a new flit of this VC buffer go (06 R171). -/
def vcbOpen (p : Port) (v : Nat) : Bool :=
  !p.rx.xoffRcvd.getLsbD v && (p.rx.xoffRcvd == 0 || decide (unacked p.tx v < 16))

/-- An item may take a turn: the block's own of a partition in RESETTING may not (14 R395). -/
def itemReady (s : State) (i : TxItem) : Bool :=
  match i.input with
  | .own q => takesTurns s q
  | _ => true

/-- The number of an input at the arbiter of R204: the ports, then the local input. -/
def inputNo (i : TxInput) : Nat := match i with | .port n => n | _ => 12

/-- Something waits at an input for a VC buffer. -/
def inputReady (s : State) (p : Port) (v k : Nat) : Bool :=
  p.tx.queue.any (fun i => i.vcb.val == v && inputNo i.input == k && itemReady s i)

/-- The first item of an input port at a VC buffer. -/
def portItem (p : Port) (v k : Nat) : Option TxItem :=
  p.tx.queue.find? (fun i => i.vcb.val == v && inputNo i.input == k)

/-- An item continues a transit run (06 R210). -/
def continues (o : OpenTurn) (i : TxItem) : Bool :=
  match i.msgs with
  | m :: _ => (m.opcode == opCont || m.opcode == opCollCont) && m.source == o.source
  | [] => false

/-- What is left of a transit run after one of its messages: an opener carries 192 bytes and a
continuation 224 (08 R209, 11 R313). -/
def afterMsg (k : Nat) (o : OpenTurn) (m : Msg) : OpenTurn :=
  if m.opcode = opWrite ∨ m.opcode = opCollOpen then { input := k, source := m.source, left := m.length.toNat - 192 }
  else if m.opcode = opCont ∨ m.opcode = opCollCont then { o with left := o.left - 224 }
  else {}

/-- The transit run of a VC buffer, while its input is in service (06 R210; log entry 16). -/
def openTurnOf (s : State) (p : Port) (v : Nat) : Option OpenTurn :=
  let o := tabGet {} p.tx.openTurn v
  if 0 < o.left ∧ inService (portOf s o.input) then some o else none

/-- The next input in weighted round robin, and the turns it has left after this one (07 R204). -/
def robinInput (s : State) (p : Port) (v : Nat) : Option (Nat × Nat) :=
  let pos := tabGet 0 p.tx.wrr v
  let left := tabGet 0 p.tx.wrrLeft v
  if 0 < left ∧ inputReady s p v pos then some (pos, left - 1)
  else
    match (upTo 13 (fun k => (pos + 1 + k) % 13)).find? (inputReady s p v) with
    | none => none
    | some k => some (k, (if k = 12 then max 1 s.route.localWeight.toNat else 1) - 1)

/-- The input whose turn it is: that of a transit run under way first (06 R210, 07 R204). -/
def nextInput (s : State) (p : Port) (v : Nat) : Option (Nat × Nat) :=
  match openTurnOf s p v with
  | none => robinInput s p v
  | some o =>
    match portItem p v o.input with
    | none => none
    | some i => if continues o i then some (o.input, tabGet 0 p.tx.wrrLeft v) else robinInput s p v

/-- A VC buffer has something to send. -/
def vcbReady (s : State) (p : Port) (v : Nat) : Bool :=
  !(tabGet [] p.tx.current v).isEmpty || (nextInput s p v).isSome

/-- Slots of an item (14 R387: a run is charged all its slots). -/
def itemSlots (i : TxItem) : Nat := (i.msgs.map msgSlots).sum

/-- The first local item of a partition at a VC buffer. -/
def ownItem (p : Port) (v q : Nat) : Option TxItem :=
  p.tx.queue.find? (fun i => i.vcb.val == v && (match i.input with | .own r => r.val == q | _ => false))

/-- Partitions with a local item waiting at a VC buffer. -/
def localWaiting (s : State) (p : Port) (v : Nat) : List Nat :=
  (List.range 16).filter (fun q => takesTurns s q && (ownItem p v q).isSome)

/-- How far a partition lies below its MIN_SHARE of the last 1,024 local flits (14 R389). -/
def shareShort (s : State) (p : Port) (v q : Nat) : Nat :=
  (partRec s q).minShare - ((tabGet [] p.tx.shareLog v).filter (·.contains q)).length

/-- The partition furthest below its minimum, the lowest-numbered on a tie (14 R389). -/
def mostShort (s : State) (p : Port) (v : Nat) (qs : List Nat) : Option Nat :=
  qs.foldl (fun best q =>
    if shareShort s p v q = 0 then best
    else match best with
      | none => some q
      | some b => if shareShort s p v b < shareShort s p v q then some q else best) none

/-- The local item that takes the turn: one of no partition first, then MIN_SHARE, then deficit
round robin (14 R387, R389; log entry 15). -/
def pickLocal (s : State) (p : Port) (v : Nat) : Option TxItem × Tx :=
  match p.tx.queue.find? (fun i => i.vcb.val == v && i.input == .steward) with
  | some i => (some i, p.tx)
  | none =>
    let qs := localWaiting s p v
    match mostShort s p v qs with
    | some q => (ownItem p v q, p.tx)
    | none =>
      let ring := ringUpdate (tabGet [] p.tx.ring v) qs
      let key (q : Nat) := 16 * v + q
      let d := deficitUpdate key ring p.tx.deficit
      let cost (q : Nat) : Nat := match ownItem p v q with | some i => itemSlots i | none => 0
      match drrPick cost (portWeight s) 16 key (drrFuel ring 512 16) ring d with
      | none => (none, p.tx)
      | some (q, ring', d') =>
        (ownItem p v q, { p.tx with ring := tabSet [] v ring' p.tx.ring, deficit := d' })

/-- Give the turn to the next item of a VC buffer (07 R204, 14 R389). -/
def takeItem (s : State) (v : Nat) (p : Port) : Port :=
  match nextInput s p v with
  | none => p
  | some (k, left) =>
    let (item, tx) :=
      if k = 12 then pickLocal s p v else (portItem p v k, p.tx)
    match item with
    | none => p
    | some i =>
      let o := if k = 12 then {} else afterMsg k (tabGet {} tx.openTurn v) (i.msgs.headD default)
      { p with tx := { tx with
        openTurn := tabSet {} v o tx.openTurn
        queue := tx.queue.erase i
        current := tabSet [] v i.msgs tx.current
        curFrom := tabSet none v (some i.input) tx.curFrom
        wrr := tabSet 0 v k tx.wrr
        wrrLeft := tabSet 0 v left tx.wrrLeft } }

/-- Fill the slots of a flit from a VC buffer: the turn under way first, then further turns while
their messages fit (06 R155, R210); the messages, and the partitions of local ones, 16 for the block's own. -/
def fillFlit (s : State) (v : Nat) : Nat → Nat → Port → List Msg × List Nat × Port
  | 0, _, p => ([], [], p)
  | fuel + 1, room, p =>
    let p := if (tabGet [] p.tx.current v).isEmpty then takeItem s v p else p
    match tabGet [] p.tx.current v with
    | [] => ([], [], p)
    | m :: rest =>
      if msgSlots m ≤ room then
        let q : Nat := match tabGet none p.tx.curFrom v with | some (.own q) => q.val + 1 | some .steward => 17 | _ => 0
        let p' := { p with tx := { p.tx with current := tabSet [] v rest p.tx.current } }
        let (ms, qs, p'') := fillFlit s v fuel (room - msgSlots m) p'
        (m :: ms, if q = 0 || qs.contains (q - 1) then qs else (q - 1) :: qs, p'')
      else ([], [], p)

/-- The dateline set of a class that sends next: the other one first (14 R388). -/
def pickSet (s : State) (p : Port) (c : Nat) : Option Nat :=
  let last := tabGet 0 p.tx.lastSet c
  [1 - last, last].find? (fun d => vcbOpen p (2 * c + d) && vcbReady s p (2 * c + d))

/-- The VC buffer of the next new data flit: VC3 first, then VC0, VC1 and VC2 in equal turns
(14 R388). -/
def pickVcb (s : State) (p : Port) : Option Nat :=
  match pickSet s p 3 with
  | some d => some (6 + d)
  | none =>
    let order := upTo 3 (fun k => (p.tx.lastClass + 1 + k) % 3)
    match order.find? (fun c => (pickSet s p c).isSome) with
    | none => none
    | some c => (pickSet s p c).map (fun d => 2 * c + d)

/-- The header the block would send now (06 R152). -/
def nowHdr (p : Port) (kind v : Nat) (replay : Bool) : FlitHdr :=
  { kind := kind, replay := replay, vcb := v, xoff := p.rx.xoffSent,
    ackLow := p.rx.expected.setWidth 16, cack := p.ctl.expected }

/-- A header with acknowledgement and pause state has been sent (06 R156, R182). -/
def sentHeader (now : Nat) (p : Port) : Port :=
  let at_ := (List.range 8).filterMap (fun v =>
    if p.rx.xoffSent.getLsbD v then some (v, tabGet now p.rx.xoffSentAt v) else none)
  { p with rx := { p.rx with ackOwed := false, nullReady := false, xoffSentAt := at_ } }

/-- Send a flit: it joins the stream that the lanes carry (06 R150). -/
def emit (now n : Nat) (bytes : List Byte) (p : Port) : Port :=
  let p := sentHeader now p
  streamFlit n bytes { p with tx := { p.tx with lastFlit := some bytes } }

/-- The payload of a data flit (06 R155). -/
def dataPayload (f : Flit) : List Byte := f.msgs.flatMap msgBytes

/-- Flip one bit of the CRC-64 of a flit (15 R430, KIND 1). -/
def spoilCrc (bs : List Byte) : List Byte := bs.set 248 ((bs.getD 248 0) ^^^ 1)

/-- Put a data flit on the lanes, its CRC-64 spoiled when that is injected (15 R430). -/
def emitData (n : Nat) (f : Flit) (replay : Bool) (s : State) : State :=
  let p := portOf s n
  let bytes := flitBytes (nowHdr p 1 f.vcb replay) (dataPayload f)
  let bad := injecting 1 n s
  let s := onlyIf bad injectOne s
  modPort n (emit s.nowUs n (if bad then spoilCrc bytes else bytes)) s

/-- Keep a new data flit in the Broke store (06 R161). -/
def keepFlit (f : Flit) (p : Port) : Port :=
  { p with tx := { p.tx with
    broke := p.tx.broke ++ [f], nextTx := p.tx.nextTx + 1
    resend := if p.tx.resend = p.tx.nextTx then p.tx.nextTx + 1 else p.tx.resend } }

/-- Count a flit's partitions (14 R389, PAR_PORT_FLITS). -/
def countLocal (n v : Nat) (qs : List Nat) (s : State) : State :=
  let s := modPort n (fun p => { p with tx := { p.tx with
    shareLog := if qs.isEmpty then p.tx.shareLog else tabSet [] v ((qs :: tabGet [] p.tx.shareLog v).take 1024) p.tx.shareLog } }) s
  forEach (qs.filter (· < 16)) (fun q => modPart q (fun r => { r with localFlits := satInc r.localFlits })) s

/-- Send a control flit with up to seven packets; with none it is a null flit (06 R156, R167). -/
def sendControl (n : Nat) (s : State) : State :=
  modPort n (fun p =>
    let c := fillHeld p.ctl
    let ps := (c.held.drop c.sent).take 7
    let bytes := flitBytes (nowHdr p 2 ps.length false) (ps.flatMap ctrlBytes)
    emit s.nowUs n bytes { p with ctl := { c with sent := c.sent + ps.length } }) s

/-- Resend the next flit of the Broke store (06 R163). -/
def sendReplay (n : Nat) (s : State) : State :=
  let p := portOf s n
  match fromOldest p.tx p.tx.resend with
  | none => s
  | some d =>
    match p.tx.broke[d]? with
    | none => s
    | some f =>
      let (lost, s) := readRam (.broke n) { cls := 0, sev := 3, port := n, unitKind := 2, cause := 0x05 } s
      if lost then loseLink n 0x05 s else
      emitData n f true (modPort n (fun p => { p with
        replayed := satInc p.replayed, tx := { p.tx with resend := p.tx.resend + 1 } }) s)

/-- Send the next flit taken over from a dead twin as a new flit (06 R178 step 4). -/
def sendTakeover (n : Nat) (s : State) : State :=
  match (portOf s n).tx.takeover with
  | [] => s
  | f :: rest =>
    let s := modPort n (fun p => { p with tx := { p.tx with takeover := rest } }) s
    emitData n f false (modPort n (keepFlit f) s)

/-- Send a new data flit of a VC buffer (06 R163, 14 R388). -/
def sendNew (n v : Nat) (s : State) : State :=
  let (msgs, qs, p') := fillFlit s v 15 15 (portOf s n)
  let f : Flit := { vcb := ⟨v % 8, Nat.mod_lt _ (by decide)⟩, msgs := msgs }
  let s := setPort n p' s
  let s := modPort n (fun p => { p with tx := { p.tx with
    lastClass := if v < 6 then v / 2 else p.tx.lastClass
    lastSet := tabSet 0 (v / 2) (v % 2) p.tx.lastSet } }) s
  countLocal n v qs (emitData n f false (modPort n (keepFlit f) s))

/-- The port's transmit lanes carry flits now (03 R72, R90). -/
def maySend (p : Port) : Bool := linkUp p && !p.txIdle && p.inInterval

/-- What the port sends when it may send (06 R156, R163, R178; 14 R388): control packets, then
replays, then flits taken over, then new flits, else a null flit.  No data flit goes before the REPLAY_START that
announces it, and none of a dead twin's before the HANDOVER (06 R163, R178). -/
def sendFlit (n : Nat) (s : State) : State :=
  let p := portOf s n
  if !maySend p then s
  else if ctrlReady p.ctl then sendControl n s
  else if !inService p then sendControl n s
  else if ctrlStalled tyReplayStart p.ctl then sendControl n s
  else if p.tx.resend ≠ p.tx.nextTx then sendReplay n s
  else if 1024 ≤ p.tx.broke.length then sendControl n s
  else
    match p.tx.takeover with
    | f :: _ => if vcbOpen p f.vcb && !ctrlStalled tyHandover p.ctl then sendTakeover n s else sendControl n s
    | [] =>
      if p.handback then sendControl n s
      else match pickVcb s p with
        | some v => sendNew n v s
        | none => sendControl n s

/-- An idle port leaves electrical idle for what it has to send; outside its throttle interval it waits for the next one
(03 R72, R90). -/
def wakePort (n : Nat) (s : State) : State :=
  modPort n (fun p => if p.inInterval then idleExit n p else p) s

/-- A data flit or control packet is ready at the port (03 R72, 06 R156). -/
def hasWork (s : State) (p : Port) : Bool :=
  ctrlReady p.ctl || (inService p && (p.tx.resend != p.tx.nextTx || !p.tx.takeover.isEmpty ||
    (List.range 8).any (vcbReady s p)))

end Sys2Proof.Machine
end

