-- ==== Sys2Proof/Machine/Routing.lean ====
section
/-! DEFINITION. Endpoints, the rank table, routes, break maps and the checks on arriving messages
(07). -/

namespace Sys2Proof.Machine

/-! ### Coordinates (07 R185) -/

/-- The coordinate of an endpoint in dimension 0 X, 1 Y or 2 Z. -/
def coordOf (e d : Nat) : Nat := if d = 0 then e % 64 else if d = 1 then e / 64 % 64 else e / 4096 % 32

/-- The size of a dimension of the machine. -/
def dimSize (s : State) (d : Nat) : Nat :=
  if d = 0 then s.fur.image.dimX else if d = 1 then s.fur.image.dimY else s.fur.image.dimZ

/-- The block's own endpoint number. -/
def selfEp (s : State) : Nat := s.fur.image.endpoint.toNat

/-- The block's own coordinate. -/
def selfCoord (s : State) (d : Nat) : Nat := coordOf (selfEp s) d

/-- An endpoint's coordinates lie within the machine's dimensions. -/
def inMachine (s : State) (e : Nat) : Bool :=
  (List.range 3).all (fun d => decide (coordOf e d < dimSize s d))

/-! ### The rank table (07 R188, R189) -/

/-- The endpoint of a rank, when its entry is VALID. -/
def rankEp (s : State) (r : Nat) : Option Nat :=
  let e := tabGet 0 s.route.ranks r
  if e.getLsbD 31 then some (e.toNat % 2 ^ 17) else none

/-- A rank entry is refused (07 R188). -/
def rankRefused (s : State) (r : Nat) (e : BitVec 32) : Bool :=
  bitsOf e.toNat 17 14 != 0 ||
    (e.getLsbD 31 && (!inMachine s (e.toNat % 2 ^ 17) ||
      s.route.ranks.any (fun x => x.1 != r && x.2.getLsbD 31 && x.2.toNat % 2 ^ 17 == e.toNat % 2 ^ 17)))

/-- Write one rank entry. -/
def writeRank (r : Nat) (e : BitVec 32) (s : State) : State :=
  freshWord (.rank r) { s with route := { s.route with ranks := tabSet 0 r e s.route.ranks } }

/-- A request reads the entry of a rank: its endpoint, or the status that the request ends with (07 R189; 15 R410). -/
def rankTarget (r : Nat) (s : State) : Except Byte Nat × State :=
  match readRam (.rank r) { cls := 0, sev := 2, unitKind := 3 } s with
  | (true, s) => (.error stDataError, s)
  | (false, s) => (match rankEp s r with | some ep => .ok ep | none => .error stUnreachable, s)

/-- The 524,288 bytes of the rank table (07 R191). -/
def rankBytes (s : State) : List Byte :=
  (List.range 131072).flatMap (fun r => leBytes 4 (tabGet 0 s.route.ranks r).toNat)

/-! ### Break maps (07 R196) -/

/-- Key of an end's report: dimension, link and end (0 the end at coordinate c). -/
def reportKey (d link e : Nat) : Nat := 1024 * d + 2 * link + e

def reportOf (s : State) (d link e : Nat) : EndReport := tabGet {} s.route.reports (reportKey d link e)

/-- The map shows link c of a ring broken: either end's latest report says so. -/
def linkBroken (s : State) (d link : Nat) : Bool :=
  (reportOf s d link 0).broken || (reportOf s d link 1).broken

/-- A direction: 0 +X, 1 −X, 2 +Y, 3 −Y, 4 +Z, 5 −Z. -/
def dirDim (dir : Nat) : Nat := dir / 2
def dirMinus (dir : Nat) : Bool := dir % 2 == 1
def dirOf (d : Nat) (minus : Bool) : Nat := 2 * d + b2n minus
def dirOpposite (dir : Nat) : Nat := if dir % 2 = 0 then dir + 1 else dir - 1

/-- The link that the next hop from coordinate `a` crosses. -/
def hopLink (n a : Nat) (minus : Bool) : Nat := if minus then (a + n - 1) % n else a % n

/-- The links of a path of `k` hops. -/
def pathLinks (n a k : Nat) (minus : Bool) : List Nat :=
  upTo k (fun i => if minus then (a + n * k - 1 - i) % n else (a + i) % n)

/-- A broken link lies on a path (07 R195). -/
def pathBlocked (s : State) (d k : Nat) (minus : Bool) : Bool :=
  (pathLinks (dimSize s d) (selfCoord s d) k minus).any (linkBroken s d)

/-! ### Route entries (07 R193, R195) -/

/-- Entry number of a coordinate of a dimension. -/
def routeIndex (d c : Nat) : Nat := 64 * d + c

def routeEntry (s : State) (d c : Nat) : Nat := (tabGet 0 s.fur.image.routes (routeIndex d c)).toNat

/-- PRIMARY of an entry is the − direction, PRIMARY_HOPS and DETOUR_HOPS. -/
def primaryMinus (e : Nat) : Bool := bitOf e 8
def primaryHops (e : Nat) : Nat := bitsOf e 16 8
def detourHops (e : Nat) : Nat := bitsOf e 24 8

/-- The direction that the deciding endpoint takes in a dimension, if any (07 R195). -/
def decideDir (s : State) (d c : Nat) : Option Nat :=
  let e := routeEntry s d c
  let m := primaryMinus e
  if !pathBlocked s d (primaryHops e) m then some (dirOf d m)
  else if !pathBlocked s d (detourHops e) (!m) then some (dirOf d (!m))
  else none

/-! ### Twins and ports (07 R201, R202) -/

/-- Parity of a number's low 17 bits. -/
def parity17 (v : Nat) : Nat := ((List.range 17).filter (bitOf v)).length % 2

/-- The twin letter of a message: 0 A, 1 B (07 R201; 01 R21). -/
def twinLetter (s : State) (m : Msg) : Nat :=
  if sixPort s then 0 else (parity17 (Nat.xor (srcEp m) (dstEp m)) + m.flags.toNat % 2) % 2

/-- The port of a direction that carries a message now: its own twin, or the other while only that
one is in service; a message for a port in handover waits at it (06 R178, R181; 07 R202). -/
def portFor (s : State) (dir letter : Nat) : Option Nat :=
  let p := 2 * dir + letter
  let q := twinOf p
  if inService (portOf s p) || (portOf s p).hand.isSome then some p
  else if !sixPort s && inService (portOf s q) then some q
  else none

/-! ### The next hop (07 R194, R195, R197, R200) -/

/-- What becomes of a message at this endpoint. -/
inductive Hop where
  /-- leave by a port, on a VC buffer, with these FLAGS; `turned` when this endpoint turned it -/
  | out (port vcb : Nat) (flags : Byte) (turned : Bool)
  /-- this endpoint is its target -/
  | here
  /-- it cannot be forwarded (07 R198) -/
  | stuck
  deriving DecidableEq, Repr, Inhabited

/-- The first dimension in which the target's coordinate differs from this endpoint's (07 R194). -/
def nextDim (s : State) (t : Nat) : Option Nat :=
  (List.range 3).find? (fun d => coordOf t d != selfCoord s d)

/-- The hop crosses the dateline (07 R200). -/
def crossesDateline (s : State) (d : Nat) (minus : Bool) : Bool :=
  if minus then selfCoord s d == 0 else selfCoord s d + 1 == dimSize s d

/-- Leave in a direction from a dateline set. -/
def leaveBy (s : State) (m : Msg) (flags : Byte) (dir set : Nat) (turned : Bool) : Hop :=
  let d := dirDim dir
  match portFor s dir (twinLetter s m) with
  | none => .stuck
  | some p =>
    let set' := if crossesDateline s d (dirMinus dir) then 1 else set
    .out p (2 * vcOf m.opcode + set') flags turned

/-- The next hop of a message of this endpoint, or one that turns into a new dimension here: the
endpoint decides, and TURNED is clear (07 R194, R195, R197). -/
def decideHop (s : State) (m : Msg) : Hop :=
  match nextDim s (dstEp m) with
  | none => .here
  | some d =>
    match decideDir s d (coordOf (dstEp m) d) with
    | none => .stuck
    | some dir => leaveBy s m (withTurned m.flags false) dir 0 false

/-- The direction a message travels that arrived on a port: away from it. -/
def travelDir (port : Nat) : Nat := dirOpposite (port / 2)

/-- The next hop of a message that arrived on a port (07 R194, R197, R200). -/
def transitHop (s : State) (port vcb : Nat) (m : Msg) : Hop :=
  match nextDim s (dstEp m) with
  | none => .here
  | some d =>
    let dir := travelDir port
    if d = dirDim dir then
      let broken (dir : Nat) := linkBroken s d (hopLink (dimSize s d) (selfCoord s d) (dirMinus dir))
      if !broken dir then leaveBy s m m.flags dir (vcb % 2) false
      else if turnedOf m.flags then .stuck
      else if broken (dirOpposite dir) then .stuck
      else leaveBy s m (withTurned m.flags true) (dirOpposite dir) (vcb % 2) true
    else decideHop s m

/-! ### Sending (07 R198, R204) -/

/-- Put one turn of messages on a port's queue. -/
def enqueue (port vcb : Nat) (input : TxInput) (msgs : List Msg) (s : State) : State :=
  let i : TxItem := { vcb := ⟨vcb % 8, Nat.mod_lt _ (by decide)⟩, input := input, msgs := msgs }
  modPort port (fun p => { p with tx := { p.tx with queue := p.tx.queue ++ [i] } }) s

def countRoute (f : Routing → Routing) (s : State) : State := { s with route := f s.route }

/-- Send messages of this endpoint: one message, or an opener with its continuations; the answer
is false when no route can be taken (07 R195, R198).  Those to itself use no port (07 R190). -/
def sendMsgs (input : TxInput) (msgs : List Msg) (s : State) : State × Bool :=
  match msgs with
  | [] => (s, true)
  | m :: _ =>
    match decideHop s m with
    | .out p v flags _ => (enqueue p v input (msgs.map (fun x => { x with flags := flags })) s, true)
    | .here => ({ s with loopback := s.loopback ++ msgs }, true)
    | .stuck => (s, false)

/-- Send a response or collective message of this endpoint; one that no route takes is discarded
(07 R198). -/
def sendOrDrop (input : TxInput) (m : Msg) (s : State) : State :=
  let (s, ok) := sendMsgs input [m] s
  if ok then s else countRoute (fun r => { r with unreachDrops := satInc r.unreachDrops }) s

/-- A short response to a request, from this endpoint (08 R207). -/
def responseTo (s : State) (m : Msg) (op status : Byte) : Msg :=
  { opcode := op
    flags := m.flags &&& 0x0B
    aux := status
    source := BitVec.ofNat 32 (selfEp s)
    target := m.source
    tag := m.tag }

/-- The response that refuses a request (08 R208): ATOMIC_RESULT for an ATOMIC, ACK otherwise. -/
def refusalOf (s : State) (m : Msg) (status : Byte) : Msg :=
  responseTo s m (if m.opcode = opAtomic then opAtomicResult else opAck) status

/-! ### Checks on arriving messages (07 R205) -/

/-- The dateline sets R200 allows a message on arrival. -/
def setAllowed (s : State) (port vcb : Nat) (m : Msg) : Bool :=
  let dir := travelDir port
  let d := dirDim dir
  let a := selfCoord s d
  let src := coordOf (srcEp m) d
  if turnedOf m.flags then
    vcb % 2 == 1 || !(if dirMinus dir then a + 1 == dimSize s d else a == 0)
  else
    vcb % 2 == b2n (if dirMinus dir then decide (src < a) else decide (a < src))

/-- A message passes the checks of R205. -/
def arrivalOk (s : State) (port vcb : Nat) (m : Msg) : Bool :=
  let e := selfEp s
  let d := port / 4
  let src := srcEp m
  let dst := dstEp m
  inMachine s src && (src != e || turnedOf m.flags) && inMachine s dst &&
    (List.range 3).all (fun k =>
      (if d < k then coordOf src k == coordOf e k else true) &&
      (if k < d then coordOf dst k == coordOf e k else true)) &&
    vcb / 2 == vcOf m.opcode && setAllowed s port vcb m

/-- A message that fails a check: discarded, and a malformed event of its port (07 R184). -/
def discardArrival (port : Nat) (s : State) : State :=
  malformedAt port (countRoute (fun r => { r with checkFails := satInc r.checkFails }) s)

/-! ### Route notices (07 R196, R199) -/

/-- The body of a ROUTE_BREAK packet. -/
def breakBody (d link : Nat) (r : EndReport) : List Byte :=
  leBytes 1 d ++ leBytes 1 link ++ leBytes 1 (b2n r.broken) ++ [0] ++ leBytes 4 r.origin.toNat ++
    leBytes 2 r.seq.toNat

/-- A port of a direction in service, twin A first. -/
def usablePort (s : State) (dir : Nat) : Option Nat :=
  [2 * dir, 2 * dir + 1].find? (fun p => inService (portOf s p))

/-- Send a notice on a direction's port, if one is in service. -/
def sendNotice (dir d link : Nat) (r : EndReport) (s : State) : State :=
  match usablePort s dir with
  | none => s
  | some p => sendCtrlAt p tyRouteBreak (breakBody d link r) false s

/-- The link and end of a direction at this endpoint. -/
def ownLink (s : State) (dir : Nat) : Nat × Nat :=
  let d := dirDim dir
  (hopLink (dimSize s d) (selfCoord s d) (dirMinus dir), b2n (dirMinus dir))

/-- Record a new state of the block's own end of a link and send the notice away from it (07 R196,
R199). -/
def setOwnLink (dir : Nat) (broken : Bool) (s : State) : State :=
  let d := dirDim dir
  let (link, e) := ownLink s dir
  let r : EndReport := { known := true, broken := broken, origin := BitVec.ofNat 32 (selfEp s), seq := s.route.noticeSeq }
  let s := countRoute (fun x => { x with
    noticeSeq := x.noticeSeq + 1
    reports := tabSet {} (reportKey d link e) r x.reports }) s
  sendNotice (dirOpposite dir) d link r s

/-- Neither twin of a direction is in service (07 R196). -/
def dirDead (s : State) (dir : Nat) : Bool := (usablePort s dir).isNone

/-- Usable directions of the endpoint (15 R411). -/
def usableDirs (s : State) : Nat := ((List.range 6).filter (fun d => !dirDead s d)).length

def holdBit (dir : Nat) : BitVec 6 := BitVec.ofNat 6 (2 ^ dir)

/-- A port of a direction has entered or left service: the block's own end of the link breaks at
once, and its restore waits for 1 s (07 R196); a direction lost is a take-over (15 R411). -/
def updateDir (dir : Nat) (s : State) : State :=
  let (link, e) := ownLink s dir
  let d := dirDim dir
  if dimSize s d ≤ 1 then s
  else
    let broken := (reportOf s d link e).broken
    if dirDead s dir then
      let s := countRoute (fun r => { r with restoreHold := r.restoreHold &&& ~~~(holdBit dir) }) s
      if broken then s
      else
        let s := setOwnLink dir true s
        let s := { s with err := { s.err with takeDetours := satInc s.err.takeDetours } }
        logTakeover { cls := 0, sev := 0, port := 2 * dir, unitKind := 3 } (usableDirs s) s
    else if broken then countRoute (fun r => { r with restoreHold := r.restoreHold ||| holdBit dir }) s
    else s

/-- The 1 s hold of a restored direction has passed without a break (07 R196). -/
def doRestoreHold (dir : Nat) (s : State) : State :=
  if s.route.restoreHold &&& holdBit dir = 0 then s
  else setOwnLink dir false
    (countRoute (fun r => { r with restoreHold := r.restoreHold &&& ~~~(holdBit dir) }) s)

/-- A port has entered service: it learns every link held broken on its ring (07 R199). -/
def sendBreaks (port : Nat) (s : State) : State :=
  let d := port / 4
  forEach (List.range (dimSize s d)) (fun link =>
    forEach [0, 1] (fun e t =>
      let r := reportOf t d link e
      if r.broken then sendCtrlAt port tyRouteBreak (breakBody d link r) false t else t)) s

/-- SEQ `new` is newer than `old`: 1 to 32,768 ahead (07 R199). -/
def seqNewer (new old : BitVec 16) : Bool := decide (1 ≤ (new - old).toNat) && decide ((new - old).toNat ≤ 32768)

/-- A route notice received on a port (07 R199). -/
def takeNotice (port : Nat) (d link state : Nat) (origin : BitVec 32) (seq : BitVec 16) (s : State) : State :=
  if 3 ≤ d ∨ dimSize s d ≤ link ∨ port / 4 ≠ d then s
  else
    let o := origin.toNat % 2 ^ 17
    let e := if coordOf o d = link then 0 else 1
    let old := reportOf s d link e
    if old.known && !seqNewer seq old.seq then s
    else
      let r : EndReport := { known := true, broken := state % 2 == 1, origin := origin, seq := seq }
      let wasBroken := linkBroken s d link
      let s := countRoute (fun x => { x with reports := tabSet {} (reportKey d link e) r x.reports }) s
      if old.broken = r.broken then s
      else
        let s := sendNotice (travelDir port) d link r s
        if r.broken && !wasBroken then
          logTakeover { cls := 0, sev := 0, port := port, unitKind := 3 } (usableDirs s)
            { s with err := { s.err with takeDetours := satInc s.err.takeDetours } }
        else s

/-! ### Digests (07 R191, R192) -/

/-- Close a batch: RANK_GEN advances and the digest is computed (07 R191). -/
def commitRanks (s : State) : State :=
  countRoute (fun r => { r with rankGen := r.rankGen + 1, digestBusy := true }) s

/-- Send the digest in its two packets on a port (06 R158). -/
def sendDigest (port : Nat) (s : State) : State :=
  let d := s.route.digest
  sendCtrlAt port tyRankDigest (padTo 24 (d.drop 24)) true (sendCtrlAt port tyRankDigest (padTo 24 d) false s)

/-- Every port in service. -/
def servicePorts (s : State) : List Nat := (List.range 12).filter (fun n => inService (portOf s n))

/-- The digest is ready, and goes out on every port in service (07 R191). -/
def doDigestComputed (s : State) : State :=
  if !s.route.digestBusy then s
  else
    let s := countRoute (fun r => { r with digestBusy := false, digest := sha384 (rankBytes s) }) s
    forEach (servicePorts s) sendDigest s

/-- A half of the partner's digest; the second one decides (07 R192).  A mismatch is logged and reported (04 R107). -/
def takeDigest (port : Nat) (part : Bool) (half : BitVec 192) (s : State) : State :=
  if !part then modPort port (fun p => { p with digest0 := some half }) s
  else
    let first := (portOf s port).digest0
    let s := modPort port (fun p => { p with digest0 := none }) s
    match first with
    | none => s
    | some h =>
      if leBytes 24 h.toNat ++ leBytes 24 half.toNat = padTo 48 s.route.digest then s
      else
        let s := countRoute (fun r => { r with mismatches := satInc r.mismatches }) s
        logErr { cls := clsPartner, sev := 1, port := port, unitKind := 3, cause := s.route.rankGen.toNat % 65536,
                 detail := leBytes 4 s.route.rankGen.toNat } s

end Sys2Proof.Machine
end

