-- ==== Sys2Proof/Machine/Memport.lean ====
section
/-! DEFINITION. The memory port: channels, tags, and the accesses issued on it (02 R31 to R39,
R466). -/

namespace Sys2Proof.Machine

/-- The memory interleave granule G (02 R31, 04 PLATFORM). -/
def memGranule (s : State) : Nat := 2 ^ s.fur.image.granuleLog2

/-- The channel of a local physical address (02 R31). -/
def memChannel (s : State) (a : Nat) : Fin 16 := ⟨a / memGranule s % 16, Nat.mod_lt _ (by decide)⟩

/-- The largest request: G or 1 KiB, whichever is less (02 R31, R32). -/
def memUnit (s : State) : Nat := max 1 (min (memGranule s) 1024)

/-- Split a span at multiples of a unit: (address, bytes, offset) of each piece. -/
def memPieces (u : Nat) : Nat → Nat → Nat → Nat → List (Nat × Nat × Nat)
  | 0, _, _, _ => []
  | fuel + 1, a, n, off =>
    if n = 0 then []
    else
      let k := min n (u - a % u)
      (a, k, off) :: memPieces u fuel (a + k) (n - k) (off + k)

/-- The operation uses the pool of write tags (02, MEM_n_REQ_TAG). -/
def isWriteOp (op : MemOp) : Bool := op == .write || op == .writeUnlock

/-- A tag is held on a channel in a pool. -/
def tagHeld (s : State) (ch : Fin 16) (wr : Bool) (t : Nat) : Bool :=
  s.memReqs.any (fun r => r.ch == ch && isWriteOp r.op == wr && r.tag.val == t)

/-- The lowest number from `k` on that is free, of `fuel` numbers. -/
def firstFree (used : Nat → Bool) : Nat → Nat → Option Nat
  | 0, _ => none
  | fuel + 1, k => if used k then firstFree used fuel (k + 1) else some k

/-- Issue one waiting access when the block is ready and its channel has a free tag, the lowest
one (02 R31, R39; log entry 17). -/
def issueOne (r : MemReq) (s : State) : State :=
  match firstFree (tagHeld s r.ch (isWriteOp r.op)) 512 0 with
  | some t =>
    if s.pins.ready then { s with memReqs := s.memReqs ++ [{ r with tag := ⟨t % 512, Nat.mod_lt _ (by decide)⟩ }] }
    else { s with memWaiting := s.memWaiting ++ [r] }
  | none => { s with memWaiting := s.memWaiting ++ [r] }

/-- Issue what can be issued, in the order made (02 R31, R39). -/
def pumpMem (s : State) : State := forEach s.memWaiting issueOne { s with memWaiting := [] }

/-- Ask for an access to a span; the span is split so that no request crosses a granule (02 R31,
R32).  `use` ends with the last piece. -/
def memIssue (op : MemOp) (owner : MemOwner) (a n off : Nat) (data : List Byte)
    (use : Option (CtxNo × BitVec 16)) (s : State) : State :=
  let ps := memPieces (memUnit s) (n + 1) a n 0
  let reqs := ps.map (fun x =>
    { ch := memChannel s x.1, tag := 0, op := op, addr := x.1, len := x.2.1, off := off + x.2.2
      data := bytesAt data x.2.2 x.2.1, owner := owner
      use := if x.2.2 + x.2.1 = n then use else none : MemReq })
  forEach reqs issueOne s

/-- How many requests a span takes. -/
def memCount (s : State) (a n : Nat) : Nat := (memPieces (memUnit s) (n + 1) a n 0).length

/-- The 128-byte beats a request takes (02, MEM_n_REQ_LEN). -/
def beatsOf (r : MemReq) : Nat := (r.addr % 128 + r.len + 127) / 128

/-- The bytes asked for, out of whole beats. -/
def wantedBytes (r : MemReq) : List Byte := bytesAt r.got (r.addr % 128) r.len

/-- The outstanding request that an answer names. -/
def findReq (s : State) (ch : Fin 16) (wr : Bool) (tag : Fin 512) : Option MemReq :=
  s.memReqs.find? (fun r => r.ch == ch && isWriteOp r.op == wr && r.tag == tag)

/-- Remove a request; its tag is free again. -/
def dropReq (r : MemReq) (s : State) : State := { s with memReqs := s.memReqs.erase r }

/-- Drop accesses that have not been issued. -/
def dropWaiting (f : MemOwner → Bool) (s : State) : State :=
  { s with memWaiting := s.memWaiting.filter (fun r => !f r.owner) }

/-- An access of an owner is outstanding or waits. -/
def memOwed (s : State) (f : MemOwner → Bool) : Bool :=
  s.memReqs.any (fun r => f r.owner) || s.memWaiting.any (fun r => f r.owner)

/-- Note an error code, with channel and address: 01 is counted, 10 and 11 are logged (02 R38, 15
R403, R407). -/
def noteMemErr (r : MemReq) (err : BitVec 2) (inj : Bool) (s : State) : State :=
  if err = 0 then s
  else logErr { cls := clsMemory, sev := if err = 1 then 0 else 2, injected := inj, unitKind := 11, unitIndex := r.ch, addr := r.addr, cause := err.toNat } s

end Sys2Proof.Machine
end

