-- ==== Sys2Proof/Machine/Xlt.lean ====
section
/-! DEFINITION. Range translation: the range cache and range buffers, uses and epochs, miss
requests and replies, and fault records (10). -/

namespace Sys2Proof.Machine

def ctxFree : BitVec 2 := 0
def ctxOpen : BitVec 2 := 1
def ctxClosing : BitVec 2 := 2
def ctxQuarantine : BitVec 2 := 3

/-- RIGHTS bits (10 R277). -/
def rightRead : BitVec 3 := 1
def rightWrite : BitVec 3 := 2
def rightAtomic : BitVec 3 := 4

/-- The partition whose range holds a context, if one present partition's does (09, PARTITIONS). -/
def ctxPart (s : State) (c : Nat) : Option PartNo :=
  allParts.find? (fun p =>
    let r := partRec s p
    r.present && decide (r.ctxBase ≤ c) && decide (c < r.ctxBase + r.ctxCount))

/-- The partition whose range holds a queue. -/
def queuePart (s : State) (q : Nat) : Option PartNo :=
  allParts.find? (fun p =>
    let r := partRec s p
    r.present && decide (r.queueBase ≤ q) && decide (q < r.queueBase + r.queueCount))

/-- The partition whose range holds a counter. -/
def cntPart (s : State) (k : Nat) : Option PartNo :=
  allParts.find? (fun p =>
    let r := partRec s p
    r.present && decide (r.cntBase ≤ k) && decide (k < r.cntBase + r.cntCount))

/-- The partition whose range holds an import window. -/
def winPart (s : State) (w : Nat) : Option PartNo :=
  allParts.find? (fun p =>
    let r := partRec s p
    r.present && decide (r.importBase ≤ w) && decide (w < r.importBase + r.importCount))

/-! ### Entries (10 R277, R278) -/

/-- The range contains an address. -/
def rangeHas (r : Range) (a : Nat) : Bool := decide (r.start ≤ a / 4096) && decide (a / 4096 < r.start + r.pages)

/-- The rights include those needed. -/
def grants (have_ need : BitVec 3) : Bool := have_ &&& need == need

/-- An entry answers a lookup (10 R278). -/
def answers (s : State) (c : CtxNo) (a : Nat) (need : BitVec 3) (r : Range) : Bool :=
  r.ctx == c && rangeHas r a && r.epoch == (ctxOf s c).epoch && grants r.rights need

/-- Where an entry leads (10 R277: the offset within a granule is kept). -/
def placeOf (r : Range) (a : Nat) : Place :=
  if r.remote then .far r.rank (r.targetStart * 4096 + (a - r.start * 4096))
  else .loc (r.localPpn * 4096 + (a - r.start * 4096))

/-- Entries of one context that share a page. -/
def overlaps (r t : Range) : Bool :=
  r.ctx == t.ctx && decide (r.start < t.start + t.pages) && decide (t.start < r.start + r.pages)

/-- CAPACITY of XLT_STATUS (10 R280). -/
def cacheCapacity (s : State) : Nat := 8192 - s.xlt.capacityLost

/-- RANGE_CACHE_QUOTA in force (10 R280). -/
def cacheQuotaOf (s : State) (p : Nat) : Nat := (partRec s p).cacheQuota - tabGet 0 s.xlt.quotaLost p

/-- The partition of an entry. -/
def rangePart (s : State) (r : Range) : Option PartNo := ctxPart s r.ctx

/-- Entries a partition holds in the cache. -/
def cacheHeld (s : State) (p : Nat) : Nat :=
  (s.xlt.cache.filter (fun r => match rangePart s r with | some q => q.val == p | none => false)).length

/-- Entries of the common pool in use, and in all (10 R279). -/
def poolUsed (s : State) : Nat := ((List.range 16).map (fun p => cacheHeld s p - cacheQuotaOf s p)).sum
def poolSize (s : State) : Nat := cacheCapacity s - ((List.range 16).map (cacheQuotaOf s)).sum

/-- Remove the last entry that satisfies a condition: the least recently used one. -/
def dropLast (f : Range → Bool) (l : List Range) : List Range := (l.reverse.eraseP f).reverse

/-- Place a filled entry in the range cache (10 R279). -/
def cachePlace (p : Nat) (r : Range) (s : State) : State :=
  let set (l : List Range) (s : State) : State := { s with xlt := { s.xlt with cache := l } }
  let mine (t : Range) : Bool := match rangePart s t with | some q => q.val == p | none => false
  if cacheHeld s p < cacheQuotaOf s p ∨ poolUsed s < poolSize s then set (r :: s.xlt.cache) s
  else if s.xlt.cache.any (fun t => mine t && t.first && !t.keep) then
    set (r :: dropLast (fun t => mine t && t.first && !t.keep) s.xlt.cache) s
  else if s.xlt.cache.any (fun t => mine t && !t.keep) then
    set (r :: dropLast (fun t => mine t && !t.keep) s.xlt.cache) s
  else s

/-- Place an entry in a mover's range buffer (10 R278). -/
def bufferPlace (m : Nat) (r : Range) (s : State) : State :=
  { s with xlt := { s.xlt with buffers := tabMod [] m (fun l => (r :: l.erase r).take 32) s.xlt.buffers } }

/-- Remove entries from the cache, from every range buffer, and from what is on its way to one. -/
def removeRanges (f : Range → Bool) (s : State) : State :=
  { s with
    xlt := { s.xlt with
      cache := s.xlt.cache.filter (fun r => !f r)
      buffers := (s.xlt.buffers.map (fun b => (b.1, b.2.filter (fun r => !f r)))).filter (fun b => !b.2.isEmpty)
      given := s.xlt.given.filter (fun x => !f x.2) }
    cq := { s.cq with runs := s.cq.runs.map (fun t => { t with heldRanges := t.heldRanges.filter (fun r => !f r) }) } }

/-- A filled entry first removes those it overlaps (10 R279). -/
def fillRange (p : Nat) (movers : List Nat) (r : Range) (s : State) : State :=
  forEach movers (fun m => bufferPlace m r) (cachePlace p r (removeRanges (overlaps r) s))

/-- An entry of the range cache that shows an uncorrectable error is retired (10 R280, 15 R411). -/
def retireRange (r : Range) (s : State) : State :=
  let fromPool := decide (poolUsed s < poolSize s)
  let s := { s with xlt := { s.xlt with
    cache := s.xlt.cache.erase r
    capacityLost := s.xlt.capacityLost + 1
    retired := satInc s.xlt.retired
    quotaLost := match rangePart s r with
      | some p => if fromPool then s.xlt.quotaLost else tabMod 0 p (· + 1) s.xlt.quotaLost
      | none => s.xlt.quotaLost } }
  let s := { s with err := { s.err with takeCache := satInc s.err.takeCache } }
  logTakeover { cls := 0, sev := 0, unitKind := 7 } (cacheCapacity s) s

/-- An error injected into an entry of the range cache (15 R410, R430): an uncorrectable one drops the entry, which is
looked up again; a corrected one retires it when it has shown one before (10 R280). -/
def cacheHit (r : Range) (s : State) : Option Range × State :=
  if injecting 4 1 s then
    (none, retireRange r (logErr { cls := clsInternal, sev := 2, injected := true, unitKind := 7 }
      (noteUncorr (injectOne s))))
  else if injecting 3 1 s then
    let s := injectCorrected 1 7 s
    if r.shown then (none, retireRange r s)
    else (some r, { s with xlt := { s.xlt with
      cache := s.xlt.cache.map (fun t => if t = r then { t with shown := true } else t) } })
  else (some r, s)

/-- The mover whose range buffer is looked in first (10 R278). -/
def needMover (n : XltNeed) : Option Nat := match n with | .chunk _ m => m | _ => none

/-- Place an entry in the range buffer of the one who asked, if a mover. -/
def bufferFor (n : XltNeed) (r : Range) (s : State) : State :=
  match needMover n with | some m => bufferPlace m r s | none => s

/-- Look in the range cache; a hit makes its entry the most recently used (10 R278). -/
def lookupCache (n : XltNeed) (c : CtxNo) (a : Nat) (need : BitVec 3) (s : State) : Option Range × State :=
  match s.xlt.cache.find? (answers s c a need) with
  | none => (none, s)
  | some r =>
    match cacheHit r { s with xlt := { s.xlt with cache := r :: s.xlt.cache.erase r } } with
    | (none, s) => (none, s)
    | (some r, s) => (some r, bufferFor n r s)

/-- Look an address up: in the mover's range buffer, in the range cache, and in what the service has replied to this
one (10 R278). -/
def lookupRange (n : XltNeed) (c : CtxNo) (a : Nat) (need : BitVec 3) (s : State) : Option Range × State :=
  let buf : List Range := match needMover n with | some m => tabGet [] s.xlt.buffers m | none => []
  match buf.find? (answers s c a need) with
  | some r => (some r, bufferFor n r s)
  | none =>
    match lookupCache n c a need s with
    | (some r, s) => (some r, s)
    | (none, s) =>
      match s.xlt.given.find? (fun x => x.1 == n && answers s c a need x.2) with
      | none => (none, s)
      | some x => (some x.2, { s with xlt := { s.xlt with given := s.xlt.given.erase x } })

/-- A replied entry waits for one who has no range buffer to take it; what a walk or a queue-time translation is given
goes elsewhere (10 R278, R287, R301). -/
def giveRange (n : XltNeed) (r : Range) (s : State) : State :=
  match n with
  | .chunk _ (some _) | .walk _ | .queueTime _ _ => s
  | _ => { s with xlt := { s.xlt with given := (n, r) :: s.xlt.given.erase (n, r) } }

/-! ### Uses (10 R289) -/

/-- A use begins: counted against the epoch in force. -/
def beginUse (c : CtxNo) (s : State) : BitVec 16 × State :=
  ((ctxOf s c).epoch, modCtx c (fun x => { x with usesCur := x.usesCur + 1 }) s)

/-- A use that began under an epoch has ended. -/
def endUse (c : CtxNo) (e : BitVec 16) (s : State) : State :=
  modCtx c (fun x => if x.epoch = e then { x with usesCur := x.usesCur - 1 } else { x with usesOld := x.usesOld - 1 }) s

/-- End a use that may have begun. -/
def endUseOpt (c : CtxNo) (e : Option (BitVec 16)) (s : State) : State :=
  match e with | none => s | some e => endUse c e s

/-- End the use that an access carries. -/
def endReqUse (r : MemReq) (s : State) : State :=
  match r.use with | none => s | some (c, e) => endUse c e s

/-! ### Miss requests (10 R281, R283, R284) -/

def missKind : BitVec 2 := 0
def prefetchKind : BitVec 2 := 1
def adviseKind : BitVec 2 := 2

/-- The place of a miss in the order of R278: aperture, run time, queue time, walks. -/
def missClass (m : Miss) : Nat :=
  if m.kind ≠ 0 then 3
  else if m.needs.any (fun n => match n with | .aperture _ => true | _ => false) then 0
  else if m.needs.all (fun n => match n with | .queueTime _ _ => true | _ => false) then 2
  else 1

/-- A class may take one more tag: queue-time translation and walks hold at most 64 each, those set aside among them
(10 R283). -/
def classOpen (s : State) (k : Nat) : Bool :=
  k < 2 || decide ((s.xlt.misses.filter (fun m => missClass m == k)).length +
    (s.xlt.setAside.filter (fun x => x.2 == k)).length < 64)

/-- A tag is in use or set aside. -/
def xltTagHeld (s : State) (t : Nat) : Bool :=
  s.xlt.misses.any (fun m => m.tag.toNat == t) || s.xlt.setAside.any (fun x => x.1.toNat == t)

/-- A tag that a miss may not take: one held, or for a second attempt the first one's (10 R284). -/
def tagBarred (m : Miss) (s : State) (t : Nat) : Bool := xltTagHeld s t || (m.retry && m.tag.toNat == t)

/-- Send a miss request with the lowest tag it may take (log entry 17), once the block is ready and its class may take
one; GEN and the epoch are noted (02 R39; 10 R283, R284, R472). -/
def sendMissNow (m : Miss) (s : State) : Option State :=
  if !s.pins.ready || !classOpen s (missClass m) then none
  else match firstFree (tagBarred m s) 256 0 with
    | none => none
    | some t => some { s with xlt := { s.xlt with
        misses := s.xlt.misses ++ [{ m with
          tag := BitVec.ofNat 8 t, gen := (ctxOf s m.ctx).gen, epoch := (ctxOf s m.ctx).epoch }]
        missCount := satInc s.xlt.missCount } }

/-- The first waiting miss of the lowest class that may be sent. -/
def nextMiss (s : State) : Option Miss :=
  match (List.range 4).find? (fun k => classOpen s k && s.xlt.waiting.any (fun m => missClass m == k)) with
  | none => none
  | some k => s.xlt.waiting.find? (fun m => missClass m == k)

/-- Waiting misses take the tags that are free (10 R283). -/
def pumpMisses : Nat → State → State
  | 0, s => s
  | fuel + 1, s =>
    match nextMiss s with
    | none => s
    | some m =>
      match sendMissNow m s with
      | none => s
      | some t => pumpMisses fuel { t with xlt := { t.xlt with waiting := t.xlt.waiting.erase m } }

/-- A miss can join an outstanding one: same context, same granule, rights named (10 R283). -/
def canShare (c : CtxNo) (vpn : Nat) (need : BitVec 3) (m : Miss) : Bool :=
  m.kind == missKind && m.ctx == c && m.vpn == vpn && grants m.access need

/-- Add a need to a miss. -/
def joinMiss (n : XltNeed) (m : Miss) : Miss := if m.needs.contains n then m else { m with needs := m.needs ++ [n] }

/-- A lookup has missed: share an outstanding request or send one (10 R281, R283). -/
def missFor (need : XltNeed) (c : CtxNo) (a : Nat) (acc : BitVec 3) (s : State) : State :=
  let share := canShare c (a / 4096) acc
  if s.xlt.misses.any share then
    { s with xlt := { s.xlt with misses := s.xlt.misses.map (fun m => if share m then joinMiss need m else m) } }
  else if s.xlt.waiting.any share then
    { s with xlt := { s.xlt with waiting := s.xlt.waiting.map (fun m => if share m then joinMiss need m else m) } }
  else
    let m : Miss := { tag := 0, kind := missKind, access := acc, ctx := c, gen := 0, epoch := 0
                      vpn := a / 4096, addr := a, needs := [need] }
    pumpMisses 1 { s with xlt := { s.xlt with waiting := s.xlt.waiting ++ [m] } }

/-- Look an address up, and ask the service for it when nothing answers (10 R278). -/
def translate (n : XltNeed) (c : CtxNo) (a : Nat) (need : BitVec 3) (s : State) : Option Range × State :=
  match lookupRange n c a need s with
  | (some r, s) => (some r, s)
  | (none, s) => (none, missFor n c a need s)

/-- Translate a span from its start: every entry found is stepped over, and the first address without one is asked for.
The answer holds the entries, when they cover the span. -/
def translateSpan (n : XltNeed) (c : CtxNo) (need : BitVec 3) : Nat → Nat → Nat → State → Option (List Range) × State
  | 0, _, _, s => (some [], s)
  | fuel + 1, a, len, s =>
    if len = 0 then (some [], s)
    else match translate n c a need s with
      | (none, s) => (none, s)
      | (some r, s) =>
        let k := min len (r.start * 4096 + r.pages * 4096 - a)
        let (rs, s) := translateSpan n c need fuel ((a + k) % 2 ^ 64) (len - k) s
        (rs.map (r :: ·), s)

/-- Send a request of a walk: PREFETCH or ADVISE (10 R301, R302). -/
def missForWalk (run : Nat) (c : CtxNo) (a : Nat) (kind : BitVec 2) (advice : BitVec 4) (limit : Nat) (s : State) : State :=
  let m : Miss := { tag := 0, kind := kind, access := 0, advice := advice, ctx := c, gen := 0, epoch := 0
                    vpn := a / 4096, limit := limit, addr := a, needs := [.walk run] }
  pumpMisses 1 { s with xlt := { s.xlt with waiting := s.xlt.waiting ++ [m] } }

/-- The 128 bits of a miss request as sent (10 R281). -/
def missWord (s : State) (m : Miss) : BitVec 128 :=
  let p : Nat := match ctxPart s m.ctx with | some p => p | none => 0
  BitVec.ofNat 128 (m.tag.toNat + m.kind.toNat * 2 ^ 8 + m.access.toNat * 2 ^ 10 + b2n m.retry * 2 ^ 13 +
    m.advice.toNat * 2 ^ 14 + p * 2 ^ 18 + m.ctx.val * 2 ^ 22 + m.vpn % 2 ^ 52 * 2 ^ 32 + m.limit % 2 ^ 32 * 2 ^ 84)

/-! ### Replies (10 R282, R285, R472) -/

/-- What a reply or a timeout has come to. -/
inductive XltEnd where
  | found (r : Range)
  /-- a fault with its CAUSE (10 R295) -/
  | fault (cause : Nat)
  /-- the reply has no effect: a lookup that still needs it asks again (10 R472) -/
  | again
  deriving DecidableEq, Repr, Inhabited

/-- Fault causes (10 R295). -/
def causeNotPresent : Nat := 1
def causeDenied : Nat := 2
def causeService : Nat := 3
def causeRemote : Nat := 4

/-- The range that an OK reply names. -/
def replyRange (d : BitVec 256) (c : CtxNo) (e : BitVec 16) : Range :=
  let v := d.toNat
  let pages := bitsOf v 84 32
  { ctx := c, epoch := e, start := bitsOf v 32 52, pages := if pages = 0 then 2 ^ 32 else pages
    rights := BitVec.ofNat 3 (bitsOf v 12 3), remote := bitOf v 15
    localPpn := bitsOf v 128 36, rank := bitsOf v 164 17, targetStart := bitsOf v 192 52 }

/-- The reserved bits of a reply (10 R282). -/
def replyReserved (d : BitVec 256) : Nat :=
  let v := d.toNat
  bitsOf v 16 16 + bitsOf v 116 12 + bitsOf v 181 11 + bitsOf v 244 12

/-- Bytes of local memory (04 PLATFORM MEM_LIMIT_GIB). -/
def memLimit (s : State) : Nat := s.fur.image.memLimitGib * 2 ^ 30

/-- An OK reply passes the checks of R282. -/
def replyOk (s : State) (m : Miss) (d : BitVec 256) (r : Range) : Bool :=
  decide (r.start ≤ m.vpn) && decide (m.vpn < r.start + r.pages) &&
    decide (r.start + r.pages ≤ 2 ^ 52) && decide (r.pages ≤ 2 ^ 32) &&
    (r.remote || decide ((r.localPpn + r.pages) * 4096 ≤ memLimit s)) &&
    (!r.remote || decide (r.targetStart + r.pages ≤ 2 ^ 52)) && replyReserved d == 0

def countXlt (f : Xlt → Xlt) (s : State) : State := { s with xlt := f s.xlt }

/-- A translation event of severity 0 or 1 (15 R403). -/
def logXlt (sev : Nat) (lasting : Bool) (c : Nat) (a : Nat) (s : State) : State :=
  logErr { cls := clsTranslation, sev := sev, lasting := lasting, transient := !lasting, unitKind := 7
           part := match ctxPart s c with | some p => p | none => 0xFF
           ctx := c, addr := a } s

/-- A failed attempt: a second one with a new tag, or a lasting failure (10 R284, R285). -/
def failMiss (m : Miss) (s : State) : Option XltEnd × State :=
  if m.retry then
    (some (.fault causeService),
      logXlt 2 true m.ctx m.addr (countXlt (fun x => { x with lasting := satInc x.lasting }) s))
  else
    (none, pumpMisses 1 (countXlt (fun x => { x with waiting := { m with retry := true } :: x.waiting })
      (logXlt 0 false m.ctx m.addr s)))

/-- The movers that asked for a miss (10 R279). -/
def missMovers (m : Miss) : List Nat := m.needs.filterMap needMover

/-- The reply belongs to a context that has since changed (10 R472). -/
def missStale (s : State) (m : Miss) : Bool :=
  let c := ctxOf s m.ctx
  c.state == ctxFree || c.gen != m.gen || c.epoch != m.epoch

/-- Judge an answer to an outstanding miss, already removed from the list (10 R278, R282 to
R285, R472). -/
def judgeReply (m : Miss) (d : BitVec 256) (s : State) : Option XltEnd × State :=
  let v := d.toNat
  let res := bitsOf v 8 4
  let bare := d.toNat / 2 ^ 12 == 0
  let bad := countXlt (fun x => { x with replyErrors := satInc x.replyErrors }) s
  if missStale s m then (some .again, countXlt (fun x => { x with strayReplies := satInc x.strayReplies }) s)
  else if res = 0 then
    let r := replyRange d m.ctx m.epoch
    if replyOk s m d r then
      let s := if m.retry then logXlt 0 false m.ctx m.addr
          (countXlt (fun x => { x with transient := satInc x.transient }) s) else s
      let p : Nat := match ctxPart s m.ctx with | some p => p | none => 16
      let s := fillRange p (missMovers m) r s
      (some (if grants r.rights m.access then .found r else .fault causeDenied), s)
    else failMiss m bad
  else if (res = 1 ∨ res = 2) ∧ bare then (some (.fault res), s)
  else if res = 3 then failMiss m s
  else failMiss m bad

/-- A tag that was set aside is usable again (10 R284). -/
def tagBack (tag : Byte) (s : State) : State :=
  pumpMisses 1 (countXlt (fun x => { x with setAside := x.setAside.filter (fun y => y.1 != tag) }) s)

/-- Take an answer off the port: the miss it answers and what it comes to; an unknown tag is a
stray, discarded and logged (02 R47, 10 R284). -/
def takeReply (d : BitVec 256) (s : State) : Option (Miss × XltEnd) × State :=
  let tag : Byte := BitVec.ofNat 8 (d.toNat % 256)
  match s.xlt.misses.find? (fun m => m.tag == tag) with
  | some m =>
    let s := countXlt (fun x => { x with misses := x.misses.erase m }) s
    match judgeReply m d s with
    | (some e, s) => (some (m, e), pumpMisses 1 s)
    | (none, s) => (none, pumpMisses 1 s)
  | none =>
    let s := countXlt (fun x => { x with strayReplies := satInc x.strayReplies }) s
    if s.xlt.setAside.any (fun x => x.1 == tag) then (none, tagBack tag s)
    else (none, logErr { cls := clsTranslation, sev := 0, unitKind := 7 } s)

/-- A miss has had no reply for XLT_TIMEOUT: its tag is set aside (10 R284). -/
def takeTimeout (tag : Byte) (s : State) : Option (Miss × XltEnd) × State :=
  match s.xlt.misses.find? (fun m => m.tag == tag) with
  | none => (none, s)
  | some m =>
    let s := countXlt (fun x => { x with misses := x.misses.erase m, setAside := x.setAside ++ [(tag, missClass m)] }) s
    match failMiss m s with
    | (some e, s) => (some (m, e), pumpMisses 1 s)
    | (none, s) => (none, s)

/-! ### Fault records (10 R295 to R300) -/

/-- What a fault record says (10 R295). -/
structure FaultInfo where
  cause    : Nat
  source   : Nat
  access   : BitVec 3
  ctx      : CtxNo
  queue    : Nat := 0xFFFF
  addr     : Nat
  index    : Nat := 0xFFFFFFFF
  progress : Nat := 0
  statusVa : Nat := 0
  deriving DecidableEq, Repr, Inhabited

/-- The 64 bytes of a fault record, its PHASE still zero (10 R295). -/
def faultBytes (i : FaultInfo) (ovf : Bool) (seq time : Nat) : List Byte :=
  [BitVec.ofNat 8 (2 * b2n ovf), BitVec.ofNat 8 i.cause, BitVec.ofNat 8 i.source, BitVec.ofNat 8 i.access.toNat] ++
    leBytes 2 i.ctx ++ leBytes 2 i.queue ++ leBytes 8 i.addr ++ leBytes 4 i.index ++ leBytes 4 seq ++
    leBytes 8 i.progress ++ leBytes 8 time ++ leBytes 8 i.statusVa ++ List.replicate 16 0

/-- FQ_LOG2 in force: values outside 6 to 16 act as 0 (10 XLT_FQ_CFG). -/
def fqLog2 (f : FaultQueue) : Nat := if 6 ≤ f.log2.toNat ∧ f.log2.toNat ≤ 16 then f.log2.toNat else 0

/-- N of R296: the ring's records. -/
def fqSize (f : FaultQueue) : Nat := 2 ^ fqLog2 f

/-- Mark a context's sticky flag and count a fault in overflow (10 R297, R299). -/
def overflowFault (p : PartNo) (c : CtxNo) (s : State) : State :=
  modCtx c (fun x => { x with sticky := true }) (modFq p (fun f => { f with ovfCount := satInc f.ovfCount }) s)

/-- Issue the write of the oldest record not yet written, into the slot at TAIL (10 R296, R299);
one at a time, so that a failed write leaves TAIL (log entry 18). -/
def issueFault (p : PartNo) (s : State) : State :=
  let f := fqOf s p
  match f.writing with
  | [] => s
  | (_, bytes) :: _ =>
    let phase := b2n (f.tail.toNat / fqSize f % 2 == 0)
    let bytes := (bytes.headD 0 ||| BitVec.ofNat 8 phase) :: bytes.drop 1
    memIssue .write (.faultRecord p (BitVec.ofNat 32 (numAt bytes 20 4)))
      (f.base.toNat * 64 + f.tail.toNat % fqSize f * 64) 64 0 bytes none s

/-- Add a record to those to be written. -/
def addFault (p : PartNo) (c : CtxNo) (bytes : List Byte) (s : State) : State :=
  let idle := (fqOf s p).writing.isEmpty
  let s := modFq p (fun f => { f with writing := f.writing ++ [(c, bytes)] }) s
  if idle then issueFault p s else s

/-- Record a fault (10 R295, R297, R299). -/
def recordFault (i : FaultInfo) (s : State) : State :=
  match ctxPart s i.ctx with
  | none => s
  | some p =>
    let s := modFq p (fun f => { f with seq := f.seq + 1 }) s
    let f := fqOf s p
    let bytes (ovf : Bool) := faultBytes i ovf f.seq.toNat s.nowUs
    let held := (f.tail - f.head).toNat + f.writing.length
    if fqLog2 f = 0 ∨ f.overflowed then overflowFault p i.ctx s
    else if held + 1 < fqSize f then addFault p i.ctx (bytes false) s
    else
      overflowFault p i.ctx
        (modFq p (fun f => { f with overflowed := true }) (addFault p i.ctx (bytes true) s))

/-- A record's write has been answered (10 R299, R300). -/
def faultWritten (p : PartNo) (seq : BitVec 32) (err : BitVec 2) (s : State) : State :=
  match (fqOf s p).writing with
  | [] => s
  | (c, bytes) :: rest =>
    if numAt bytes 20 4 ≠ seq.toNat then s
    else
      let s := modFq p (fun f => { f with writing := rest }) s
      let s := if 2 ≤ err.toNat then overflowFault p c s
        else irqMapped p causeFault (modFq p (fun f => { f with tail := f.tail + 1 }) s)
      issueFault p s

/-- The write of a partition's fault record. -/
def isFaultOwner (p : PartNo) (o : MemOwner) : Bool :=
  match o with | .faultRecord q _ => q == p | _ => false
def isFaultReq (p : PartNo) (r : MemReq) : Bool := isFaultOwner p r.owner

/-- The records that have not been written no longer are: an answer to one of them has no effect (10 R296, R299). -/
def dropFaults (p : PartNo) (s : State) : State :=
  modFq p (fun f => { f with writing := [] }) (dropWaiting (isFaultOwner p) s)

/-- FAULT_RECORD_WRITTEN: the oldest outstanding record write of the partition is answered (10 R299,
R300). -/
def doFaultRecordWritten (p : PartNo) (err : BitVec 2) (s : State) : State :=
  match s.memReqs.find? (isFaultReq p) with
  | none => s
  | some r =>
    match r.owner with
    | .faultRecord _ seq => faultWritten p seq err (noteMemErr r err false (pumpMem (dropReq r s)))
    | _ => s

end Sys2Proof.Machine
end

