-- ==== Sys2Proof/Machine/Trackers.lean ====
section
/-! DEFINITION. Trackers, and the requests that the block issues to other endpoints (08 R206 to
R209, R223 to R225, R230; 14 R392). -/

namespace Sys2Proof.Machine

def countTrk (f : Trk → Trk) (s : State) : State := { s with trk := f s.trk }

/-! ### Capacity, quotas and the pool (14 R392) -/

/-- CAPACITY of TRK_STATUS. -/
def trkCapacity (s : State) : Nat := 131072 - s.trk.retired.length

/-- The reservation of a partition in force. -/
def trkQuotaOf (s : State) (p : Nat) : Nat := (partRec s p).trackerQuota - (partOf s p).quotaLost

/-- A partition with a reservation; the others draw on the pool. -/
def reserves (s : State) (p : Nat) : Bool := (partRec s p).trackerQuota != 0

/-- Trackers a partition holds. -/
def trkHeld (s : State) (p : Nat) : Nat := (s.trk.trackers.filter (fun t => t.part.val == p)).length

/-- The size of the pool, and how much of it is held. -/
def trkPool (s : State) : Nat :=
  trkCapacity s - ((List.range 16).map (fun p => if (partRec s p).present then trkQuotaOf s p else 0)).sum
def trkPoolHeld (s : State) : Nat := (s.trk.trackers.filter (fun t => !reserves s t.part)).length

/-- A tracker is free for a partition. -/
def trkFreeFor (s : State) (p : Nat) : Bool :=
  if reserves s p then decide (trkHeld s p < trkQuotaOf s p) else decide (trkPoolHeld s < trkPool s)

/-- Partitions of the pool that wait for a tracker. -/
def trkWaiting (s : State) : List Nat :=
  (List.range 16).filter (fun p => !reserves s p && takesTurns s p &&
    (s.cq.runs.any (fun r => r.part.val == p && r.waitTrk) ||
     s.aper.any (fun a => a.waited && a.parts.any (fun x => !x.sent) &&
       (match ctxPart s a.req.ctx with | some q => q.val == p | none => false))))

/-- The grant of a pool tracker: to the asking partition when no other waits, and otherwise as
deficit round robin decides (14 R387, R392); `none` when it goes to another. -/
def trkGrant (p : Nat) (s : State) : Option State :=
  if reserves s p then some s
  else
    let qs := trkWaiting s
    let qs := if qs.contains p then qs else qs ++ [p]
    if qs.length ≤ 1 then some s
    else
      let ring := ringUpdate s.trk.ring qs
      let d := deficitUpdate id ring s.trk.deficit
      match drrPick (fun _ => 1) (trackerWeight s) 1 id (drrFuel ring 1 1) ring d with
      | some (q, ring', d') =>
        if q = p then some (countTrk (fun t => { t with ring := ring', deficit := d' }) s) else none
      | none => none

/-- A tracker is in use or retired. -/
def trkUsed (s : State) (i : Nat) : Bool := s.trk.trackers.any (fun t => t.index == i) || s.trk.retired.contains i

/-- Of two partitions the one with more reserved trackers not in use, the first on a tie (14 R392). -/
def moreIdle (s : State) (a b : PartNo) : PartNo :=
  if trkQuotaOf s a - trkHeld s a < trkQuotaOf s b - trkHeld s b then b else a

/-- The partition whose quota a retired tracker lowers: the one that holds it, and else the one with the most reserved
trackers not in use (14 R392). -/
def quotaLoser (holder : Option PartNo) (s : State) : Option PartNo :=
  match holder with
  | some p => if reserves s p then some p else none
  | none =>
    match allParts.filter (fun (p : PartNo) => (partRec s p).present && reserves s p) with
    | [] => none
    | p :: ps => some (ps.foldl (moreIdle s) p)

/-- A tracker is retired: from the pool first, and else from the quota of a partition (14 R392; 15 R411). -/
def retireTracker (i : Nat) (holder : Option PartNo) (s : State) : State :=
  let fromPool := decide (trkPoolHeld s < trkPool s)
  let loser := quotaLoser holder s
  let s := countTrk (fun k => { k with retired := i :: k.retired }) s
  let s := match loser with
    | some p => if fromPool then s else modPart p (fun q => { q with quotaLost := q.quotaLost + 1 }) s
    | none => s
  let s := { s with err := { s.err with takeTrackers := satInc s.err.takeTrackers } }
  logTakeover { cls := 0, sev := 0, unitKind := 5, unitIndex := i % 65536 } (trkCapacity s) s

/-- A tracker's word is read: the answer says whether it is lost; one that shows the same corrected bit twice is retired (15
R410). -/
def readTracker (i : Nat) (holder : Option PartNo) (s : State) : Bool × State :=
  let again := wordLasting (.tracker i) s
  let (lost, s) := readRam (.tracker i) { cls := 0, sev := 2, unitKind := 5, unitIndex := i % 65536 } s
  (lost, onlyIf again (retireTracker i holder) s)

/-- The lowest free tracker whose word is good; one whose word is not is retired (08 R223; 15 R410; log entry 17). -/
def goodTracker : Nat → State → Option Nat × State
  | 0, s => (none, s)
  | fuel + 1, s =>
    match firstFree (trkUsed s) 131072 0 with
    | none => (none, s)
    | some i =>
      match readTracker i none s with
      | (true, s) => goodTracker fuel (retireTracker i none s)
      | (false, s) => if trkUsed s i then goodTracker fuel s else (some i, s)

/-- Allocate a tracker (08 R223). -/
def allocTracker (mk : Nat → BitVec 15 → Tracker) (p : Nat) (s : State) : Option (Tracker × State) :=
  if !trkFreeFor s p then none
  else match trkGrant p s with
    | none => none
    | some s =>
      match goodTracker (s.err.flips.length + 1) s with
      | (none, _) => none
      | (some i, s) =>
        let t := mk i (tabGet 0 s.trk.gens i)
        let s := countTrk (fun k => { k with
          trackers := k.trackers ++ [t], peak := max k.peak (k.trackers.length + 1) }) s
        some (t, injectCorrected 0 5 s)

/-- Free a tracker; its GEN advances (08 R224). -/
def freeTracker (i : Nat) (s : State) : State :=
  countTrk (fun k => { k with
    trackers := k.trackers.filter (fun t => t.index != i)
    held := k.held.filter (· != i)
    gens := tabMod 0 i (· + 1) k.gens }) s

def trackerOf (s : State) (i : Nat) : Option Tracker := s.trk.trackers.find? (fun t => t.index == i)

def modTracker (i : Nat) (f : Tracker → Tracker) (s : State) : State :=
  countTrk (fun k => { k with trackers := k.trackers.map (fun t => if t.index = i then f t else t) }) s

/-- TAG of a tracker (08 R206). -/
def trkTag (i : Nat) (g : BitVec 15) : BitVec 32 := BitVec.ofNat 32 (i % 2 ^ 17 + g.toNat * 2 ^ 17)

/-! ### Requests (08 R206 to R209, R219) -/

/-- Data slots for a number of bytes. -/
def slotsFor (n : Nat) : Nat := (n + 15) / 16

/-- A request's opener or whole message. -/
def reqMsg (s : State) (op : Byte) (cls : Nat) (p : Nat) (target : Nat) (addr len : Nat) (attr : Byte)
    (data : List Byte) : Msg :=
  { opcode := op, flags := BitVec.ofNat 8 cls, pkey := (partRec s p).key, dslots := BitVec.ofNat 8 (slotsFor data.length)
    source := BitVec.ofNat 32 (selfEp s), target := BitVec.ofNat 32 target, tag := 0
    addr := BitVec.ofNat 64 addr, length := BitVec.ofNat 16 len, attr := attr
    data := padTo (16 * slotsFor data.length) data }

/-- The continuations of a run: 224 bytes each, the last one the remainder (08 R209). -/
def contMsgs (op : Byte) (h : Msg) : Nat → Nat → List Byte → List Msg
  | 0, _, _ => []
  | fuel + 1, k, data =>
    if data.isEmpty then []
    else
      let d := data.take 224
      { opcode := op, flags := h.flags, aux := BitVec.ofNat 8 k, dslots := BitVec.ofNat 8 (slotsFor d.length)
        source := h.source, target := h.target, tag := h.tag, data := padTo (16 * slotsFor d.length) d } ::
        contMsgs op h fuel (k + 1) (data.drop 224)

/-- A write run: an opener of up to 192 bytes and its continuations (08 R209). -/
def writeRun (s : State) (cls p target addr : Nat) (data : List Byte) : List Msg :=
  let h := reqMsg s opWrite cls p target addr data.length 0 (data.take 192)
  h :: contMsgs opCont h 20 1 (data.drop 192)

/-- The slot or slots of an atomic's operands (08 R219). -/
def atomicData (attr : Byte) (v c : List Byte) : List Byte :=
  let w := 4 * 2 ^ bitsOf attr.toNat 4 2
  let cas := bitsOf attr.toNat 0 4 == 6
  if w = 16 then padTo 16 v ++ (if cas then padTo 16 c else [])
  else padTo 8 (v.take w) ++ padTo 8 (if cas then c.take w else [])

/-- Set the TAG of a request's messages. -/
def tagMsgs (tag : BitVec 32) (ms : List Msg) : List Msg := ms.map (fun m => { m with tag := tag })

/-- Mark a request's messages as reissued (08 R229). -/
def reissueMsgs (ms : List Msg) : List Msg := ms.map (fun m => { m with flags := m.flags ||| 0x08 })

/-- Class of a tracker's request, and the opcode of its first message. -/
def trkClass (t : Tracker) : Nat := match t.msgs with | m :: _ => classOf m.flags | [] => 0
def trkOp (t : Tracker) : Byte := match t.msgs with | m :: _ => m.opcode | [] => 0

/-- The class 0 stream to a target has path-lost requests: a read or an atomic until its final status, a write until it has
been reissued (08 R228, R230). -/
def streamHeld (s : State) (target : Nat) : Bool :=
  s.trk.trackers.any (fun t => t.lost && trkClass t == 0 && t.target.toNat == target)

/-- A request of the stream is held already, and a new one goes behind it (08 R230). -/
def streamWaits (s : State) (target : Nat) : Bool :=
  s.trk.trackers.any (fun t => s.trk.held.contains t.index && t.target.toNat == target)

/-- Hold a request of a stream that has path-lost ones, in the place it was issued (08 R230, R470). -/
def holdRequest (i : Nat) (s : State) : State :=
  countTrk (fun k => { k with
    held := (k.trackers.filter (fun t => t.index == i || k.held.contains t.index)).map (·.index) }) s

/-- How an attempt to issue a request ends. -/
inductive Issue where
  /-- no tracker is free for the partition (08 R223) -/
  | waits
  /-- sent, or held behind its stream's reissues -/
  | issued
  /-- no route: it completes UNREACHABLE here (07 R198) -/
  | noRoute
  deriving DecidableEq, Repr, Inhabited

/-- RESP_TIMEOUT in force (08 TRK_CTRL). -/
def respTimeoutOf (s : State) : Nat := min 50000 (max 50 s.trk.respTimeout.toNat)

/-- ATOMIC_RETAIN in force, in µs (08 TRK_CTRL). -/
def atomicRetainOf (s : State) : Nat := 100 * max 10 s.trk.atomicRetain.toNat

/-- Issue a request: a tracker, and its messages on their way or held (08 R223, R230). -/
def issueRequest (owner : ReqOwner) (c : CtxNo) (p : PartNo) (target : Nat) (msgs : List Msg) (s : State) :
    Issue × State :=
  match allocTracker (fun i g =>
    { index := i, gen := g, ctx := c, part := p, owner := owner, msgs := tagMsgs (trkTag i g) msgs
      target := BitVec.ofNat 17 target, since := s.nowUs, timeout := respTimeoutOf s }) p s with
  | none => (.waits, s)
  | some (t, s) =>
    if trkClass t = 0 ∧ (streamHeld s target || streamWaits s target) then
      (.issued, holdRequest t.index s)
    else match sendMsgs (.own p) t.msgs s with
      | (s, true) => (.issued, s)
      | (s, false) => (.noRoute, freeTracker t.index s)

/-- The first held request whose stream is free again (08 R230). -/
def nextHeld (s : State) : Option Tracker :=
  (s.trk.held.filterMap (trackerOf s)).find? (fun t => !streamHeld s t.target.toNat)

/-- An earlier ATOMIC of the request's source waits for a replay entry: in class 0 no request of that source is performed
before it (08 R214, R234). -/
def behindStalled (s : State) (m : Msg) : Bool :=
  isRequest m.opcode && classOf m.flags == 0 &&
    s.trk.stalled.any (fun e => e.2 != m && e.2.source == m.source && classOf e.2.flags == 0)

/-- Take a message off the port, or off the block's own loop (06 R169, 07 R190).  A request that must stay behind a stalled
ATOMIC stays where it is. -/
def takeArrival (arr : Arrival) (m : Msg) (s : State) : Option State :=
  if behindStalled s m then none
  else match arr with
  | .self => if s.loopback.contains m then some { s with loopback := s.loopback.erase m } else none
  | .port n v => takeMsg n v m s

/-- Act on a message addressed to this endpoint: taken, checked under R205 when it came by a port,
and discarded when it fails (07 R184, R205).  One addressed elsewhere is transit, and waits. -/
def onArrival (arr : Arrival) (m : Msg) (f : State → State) (s : State) : State :=
  if dstEp m ≠ selfEp s then s
  else match takeArrival arr m s with
    | none => s
    | some s =>
      match arr with
      | .self => f s
      | .port n v => if arrivalOk s n (v : Nat) m then f s else discardArrival n s

end Sys2Proof.Machine
end

