-- ==== Sys2Proof/Machine/Runs.lean ====
section
/-! DEFINITION. Queues and running descriptors: fetching, status records, faults, stopping and
ending, counters and those that wait on them (09). -/

namespace Sys2Proof.Machine

/-! ### Queue states and descriptors (09 R250, R260) -/

def qIdle : BitVec 3 := 0
def qRunning : BitVec 3 := 1
def qSwitchedOut : BitVec 3 := 2
def qDraining : BitVec 3 := 3
def qHalted : BitVec 3 := 4

/-- Descriptor opcodes (09 R263). -/
def dCopy : Nat := 1
def dFill : Nat := 2
def dDigest : Nat := 3
def dSealed : Nat := 4
def dPrefetch : Nat := 5
def dAdvise : Nat := 6
def dWait : Nat := 7
def dSignal : Nat := 8
def dTrigger : Nat := 9
def dCollective : Nat := 10
def dFence : Nat := 11
def dNop : Nat := 12

/-- `n` bytes of a descriptor from an offset on, as a number. -/
def Run.num (r : Run) (off n : Nat) : Nat := numAt r.desc off n
def Run.op (r : Run) : Nat := r.num 0 1
def Run.flag (r : Run) (k : Nat) : Bool := bitOf (r.num 1 1) k
def Run.noHalt (r : Run) : Bool := r.flag 0
def Run.irq (r : Run) : Bool := r.flag 1
def Run.cplCount (r : Run) : Bool := r.flag 2
def Run.relaxed (r : Run) : Bool := r.flag 3
def Run.statusVa (r : Run) : Nat := r.num 8 8
def Run.src (r : Run) : Nat := r.num 16 8
def Run.dst (r : Run) : Nat := r.num 24 8
def Run.length (r : Run) : Nat := r.num 32 8

/-- Registers with limits (09 Q_CONFIG). -/
def ringLog2Of (q : Queue) : Nat := min 16 (max 6 q.ringLog2.toNat)
def queueChunkLog2 (q : Queue) : Nat := min 26 (max 16 q.chunkLog2.toNat)
def maxInflightOf (q : Queue) : Nat := min 8 (max 1 q.maxInflight.toNat)
def spreadOf (q : Queue) : Nat := min 32 (max 1 q.spread.toNat)

/-- The chunk size of a run (09 R260, R266). -/
def chunkSize (s : State) (r : Run) : Nat :=
  let c := r.num 2 1
  2 ^ (if c = 0 then queueChunkLog2 (queueOf s r.irqQueue) else c)

/-- Runs of a queue, those of an ended period among them (09 R273). -/
def queueAll (s : State) (q : Nat) : List Run :=
  s.cq.runs.filter (fun r => match r.queue with | some k => k.val == q | none => false)

/-- The running descriptors of a queue (09 R258). -/
def queueRuns (s : State) (q : Nat) : List Run := (queueAll s q).filter (fun r => !r.detached)

/-- How far a ring count lies ahead of HEAD. -/
def aheadOf (q : Queue) (i : BitVec 32) : Nat := (i - q.head).toNat

/-- HEAD: the oldest descriptor without a final status, or the next to start (09 Q_PTRS). -/
def headOf (s : State) (k : Nat) : BitVec 32 :=
  let q := queueOf s k
  (queueRuns s k).foldl (fun h r => if aheadOf q r.index < aheadOf q h then r.index else h) q.nextStart

/-- The operation moves data chunk by chunk (09 R266). -/
def chunked (op : Nat) : Bool := op == dCopy || op == dFill || op == dDigest || op == dSealed

/-- Bytes of a chunk of a run. -/
def chunkLen (s : State) (r : Run) (k : Nat) : Nat := min (chunkSize s r) (r.length - k * chunkSize s r)

/-- Chunks of a run; a SEALED_COPY reads its tag as one more (09 R268). -/
def chunkCount (s : State) (r : Run) : Nat :=
  (r.length + chunkSize s r - 1) / chunkSize s r + (if r.op = dSealed then 1 else 0)

/-- Offset and length of chunk k; the tag of a SEALED_COPY lies at LENGTH. -/
def chunkSpan (s : State) (r : Run) (k : Nat) : Nat × Nat :=
  if r.op = dSealed ∧ k + 1 = chunkCount s r then (r.length, 16) else (k * chunkSize s r, chunkLen s r k)

/-- The spans of addresses that chunk k needs: start, bytes, right. -/
def chunkNeeds (s : State) (r : Run) (k : Nat) : List (Nat × Nat × BitVec 3) :=
  let (off, n) := chunkSpan s r k
  (if r.op = dFill then [] else [((r.src + off) % 2 ^ 64, n, rightRead)]) ++
    (if r.op = dDigest ∨ r.length ≤ off then [] else [((r.dst + off) % 2 ^ 64, n, rightWrite)])

/-- Translate the addresses of a chunk before its transfers need them (10 R286). -/
def translateChunk (id k : Nat) (mover : Option Nat) (s : State) : State :=
  match runOf s id with
  | none => s
  | some r =>
    if r.phase ≠ .active ∨ r.failed.isSome ∨ r.stopping ∨ chunked r.op = false ∨ chunkCount s r ≤ k then s
    else forEach (chunkNeeds s r k) (fun x s =>
      (translateSpan (.chunk id mover) r.ctx x.2.2 (x.2.1 / 4096 + 2) x.1 x.2.1 s).2) s

/-- A mover translates what is left of its chunk of a run, and the chunk after it (10 R286). -/
def translateOn (id m : Nat) (s : State) : State :=
  match runOf s id with
  | none => s
  | some r =>
    forEach (r.chunks.filter (fun j => j.mover == m)) (fun j s =>
      translateChunk id (j.no + 1) (some m) (onlyIf (decide (j.issued < j.len)) (translateChunk id j.no (some m)) s)) s

/-! ### What of a run is still outside (09 R247, R251) -/

/-- A memory access of a run's action. -/
def runOwns (id : Nat) (o : MemOwner) : Bool :=
  match o with
  | .xferRead k _ | .xferWrite k _ | .trigDesc k | .zeroDst k => k == id
  | _ => false

/-- A request of a run. -/
def reqOfRun (id : Nat) (o : ReqOwner) : Bool := match o with | .xfer k _ => k == id | .aperture _ _ => false

/-- Nothing of the run's action is outstanding. -/
def runQuiet (s : State) (id : Nat) : Bool :=
  !memOwed s (runOwns id) && !s.trk.trackers.any (fun t => reqOfRun id t.owner) &&
    !s.trk.units.any (fun u => (u.2.waiting ++ u.2.applied).any (fun a => match a.localOwner with | some o => reqOfRun id o | none => false))

/-- Requests of a run that have not been sent end at once (09 R247 step 3). -/
def dropUnsent (id : Nat) (s : State) : State :=
  let s := dropWaiting (runOwns id) s
  forEach ((s.trk.held.filterMap (trackerOf s)).filter (fun t => reqOfRun id t.owner))
    (fun t => freeTracker t.index) s

/-! ### Status records (09 R261, R265) -/

/-- The bytes written at a point, with their offset in the record. -/
def statusBytes (r : Run) (pt : StatusPoint) : Nat × List Byte :=
  let flags (done : Bool) : Nat := b2n done + 2 * b2n r.restarted + 4 * b2n r.queue.isNone
  match pt with
  | .start => (0, [0, 0, 0, 0] ++ leBytes 4 r.index.toNat ++ List.replicate 56 0)
  | .progress => (8, leBytes 8 r.progress)
  | .final => (8, leBytes 8 r.progress ++ padTo 48 r.resBytes)
  | .done => (0, [r.status, BitVec.ofNat 8 (flags true), 0, 0] ++ leBytes 4 r.index.toNat)

/-- Uses of a run's chunks end, and its movers are free. -/
def endChunks (id : Nat) (s : State) : State :=
  match runOf s id with
  | none => s
  | some r =>
    modRun id (fun r => { r with chunks := [], waitTrk := false, use := none })
      (endUseOpt r.ctx r.use (forEach r.chunks (fun j => endUseOpt r.ctx j.use) s))

/-- Write a status record at one of its points to the place its entry gives (09 R265); `false` when it cannot be
written: unaligned, or remote (09 R261). -/
def statusTo (e : Range) (r : Run) (pt : StatusPoint) (s : State) : State × Bool :=
  match placeOf e r.statusVa with
  | .far _ _ => (s, false)
  | .loc pa =>
    if r.statusVa % 64 ≠ 0 then (s, false)
    else
      let (ep, s) := beginUse r.ctx s
      let (off, bytes) := statusBytes r pt
      (modRun r.id (fun r => { r with statusPending := r.statusPending + 1, statusWait := none })
        (memIssue .write (.status r.id pt) (pa + off) bytes.length 0 bytes (some (r.ctx, ep)) s), true)

/-- Write a status record at one of its points (09 R265), once its address is translated (10 R278). -/
def statusWrite (id : Nat) (pt : StatusPoint) (s : State) : State × Bool :=
  match runOf s id with
  | none => (s, true)
  | some r =>
    match translate (.statusRec id) r.ctx r.statusVa rightWrite s with
    | (none, s) => (modRun id (fun r => { r with statusWait := some pt }) s, true)
    | (some e, s) => statusTo e r pt s

/-- A queue drains with a cause (09 R251). -/
def setDraining (q : Nat) (cause : BitVec 4) (s : State) : State :=
  modQueue q (fun x => { x with state := qDraining, errCause := cause }) s

/-- What a queue's state becomes when its runs change (09 R251). -/
def queueSettle (k : Nat) (s : State) : State :=
  let s := modQueue k (fun q => { q with head := if q.state = qHalted then q.nextStart else headOf s k }) s
  let q := queueOf s k
  let quiet := (queueRuns s k).isEmpty
  if q.state = qDraining ∧ quiet = true then
    modQueue k (fun q => { q with
      state := qHalted, head := q.nextStart, nextFetch := q.nextStart, fetched := [], ringFault := false
      aborting := false }) s
  else if q.state = qRunning ∧ quiet = true ∧ q.head = q.tail then modQueue k (fun q => { q with state := qIdle }) s
  else s

/-- Remove a run that has ended, and settle its queue. -/
def removeRun (r : Run) (s : State) : State :=
  let s := dropRun r.id s
  match r.queue with | none => s | some q => queueSettle q s

/-- A run has not come to its end: it has no final status yet (09 R247 step 5). -/
def unended (r : Run) : Bool :=
  !(r.phase == .ending || r.phase == .doneWrite || r.phase == .zeroing || r.phase == .aborting)

/-- What a stopped descriptor completes with when its queue goes from SWITCHED_OUT to DRAINING or HALTED (09 R251, R253). -/
def haltStatus (r : Run) : Byte := if r.faulted then stFault else stAborted

/-- The other descriptors of a queue that drains out of SWITCHED_OUT end as R251 says, in this step. -/
def endOthers (q id : Nat) (s : State) : State :=
  forEach ((queueRuns s q).filter (fun t => t.id != id && unended t)) (fun t s =>
    dropUnsent t.id (modRun t.id (fun r => { r with phase := .aborting, failed := some (haltStatus r), statusWait := none }) s)) s

/-- A status record that cannot be written (09 R261): the run issues nothing more, and its queue
drains; a triggered operation is logged and raises ERROR. -/
def loseStatus (id : Nat) (s : State) : State :=
  match runOf s id with
  | none => s
  | some r =>
    let s := dropUnsent id s
    let s := match r.queue with
      | some q =>
        if (queueOf s q).state = qHalted then s
        else if (queueOf s q).state = qSwitchedOut then endOthers q id (setDraining q 3 s)
        else setDraining q 3 s
      | none => irqMapped r.part causeError (logErr
          { cls := clsTransaction, sev := 2, part := r.part, unitKind := 4, ctx := r.ctx, addr := r.statusVa } s)
    if runQuiet s id ∧ r.statusPending = 0 then removeRun r (endChunks id s)
    else modRun id (fun r => { r with statusLost := true, phase := .aborting, statusWait := none }) s

/-- Write a status record, or lose it. -/
def putStatus (id : Nat) (pt : StatusPoint) (s : State) : State :=
  match statusWrite id pt s with
  | (s, true) => s
  | (s, false) => loseStatus id s

/-! ### Ending (09 R244, R258, R265, R268) -/

/-- End a run with a status: PROGRESS and RESULT are written first (09 R265). -/
def finalWrite (id : Nat) (st : Byte) (s : State) : State :=
  putStatus id .final (modRun id (fun r => { r with status := st, phase := .ending, key := none, waitTrk := false })
    (dropUnsent id (endChunks id s)))

/-- End a run (09 R265); a SEALED_COPY that fails zeroes its destination first (09 R268). -/
def endRun (id : Nat) (st : Byte) (s : State) : State :=
  match runOf s id with
  | none => s
  | some r =>
    if r.op = dSealed ∧ st ≠ stOk ∧ !r.wrote.isEmpty then
      let s := dropUnsent id (endChunks id s)
      let s := modRun id (fun r => { r with status := st, phase := .zeroing, progress := 0, key := none, wrote := [] }) s
      forEach r.wrote (fun x => memIssue .write (.zeroDst id) x.1 x.2 0 (List.replicate x.2 0) none) s
    else finalWrite id st s

/-- A stopped run goes on from its last completed chunk (09 R253, R267). -/
def resumeRun (size : Nat) (r : Run) : Run :=
  { r with
    phase := .active, restarted := true, stopping := false, faulted := false, xfers := [], doneChunks := []
    heldRanges := [], walking := false, nextChunk := r.progress / size }

/-- A run has stopped at a chunk boundary (09 R251): it waits for Q_RESUME, goes on when its queue
runs again or drains after that (09 R258), or ends with ABORTED on a suspect endpoint (15 R426 step 3). -/
def stopRun (r : Run) (s : State) : State :=
  let s := endChunks r.id s
  if s.err.drainState ≠ 0 then endRun r.id stAborted s
  else
    let running : Bool := match r.queue with
      | some q => (queueOf s q).state == qRunning || (queueOf s q).state == qDraining
      | none => false
    let size := chunkSize s r
    modRun r.id (fun r => if running then resumeRun size r
      else { r with phase := .stopped, xfers := [], doneChunks := [] }) s

/-- What a run in motion comes to when something of it has resolved. -/
def settleRun (id : Nat) (s : State) : State :=
  match runOf s id with
  | none => s
  | some r =>
    if !runQuiet s id || r.plan.isSome then s
    else match r.phase with
      | .aborting =>
        if r.statusPending ≠ 0 then s
        else if r.statusLost then removeRun r (endChunks id s)
        else endRun id (r.failed.getD stAborted) s
      | .zeroing => finalWrite id r.status s
      | .active =>
        match r.failed with
        | some st => endRun id st s
        | none =>
          if r.stopping && (r.faulted || r.chunks.isEmpty) then stopRun r s else s
      | _ => s

/-- A run stops issuing and ends with a status when what it has issued has resolved (09 R247 steps 3
to 5).  One that is already ending keeps its own, unless the halt makes it FAULT (09 R253); a record that waits for a
translation is tried again. -/
def abortRun (st : Byte) (id : Nat) (s : State) : State :=
  match runOf s id with
  | none => s
  | some r =>
    if unended r then
      settleRun id (dropUnsent id
        (modRun id (fun r => { r with phase := .aborting, failed := some st, statusWait := none }) s))
    else match r.statusWait with
      | none => s
      | some pt => putStatus id pt (onlyIf (st == stFault) (modRun id (fun r => { r with status := st })) s)

/-- A running action has failed with a status: nothing more is issued. -/
def failRun (st : Byte) (id : Nat) (s : State) : State :=
  settleRun id (dropUnsent id (modRun id (fun r => { r with failed := some (r.failed.getD st) }) s))

/-- A queue is switched out: its running descriptors stop at their next chunk boundary (09 R251).  An IDLE queue is met
here only with what an ended period left (09 R273; log entry 116). -/
def switchOut (q : Nat) (s : State) : State :=
  if (queueOf s q).state ≠ qRunning ∧ (queueOf s q).state ≠ qIdle then s
  else
    let s := modQueue q (fun x => { x with state := qSwitchedOut }) s
    forEach (queueRuns s q) (fun r s => settleRun r.id (modRun r.id (fun r => { r with stopping := true }) s)) s

/-- A translation fault met by a run's action (10 R294): its queue is switched out; a triggered
operation, or one of a queue that already drains, ends with FAULT. -/
def faultRun (id source addr : Nat) (acc : BitVec 3) (cause : Nat) (s : State) : State :=
  match runOf s id with
  | none => s
  | some r =>
    if !unended r then s else
    let s := recordFault
      { cause := cause, source := if r.queue.isNone then 4 else source, access := acc, ctx := r.ctx
        queue := match r.queue with | some q => q | none => 0xFFFF
        addr := addr, index := r.index.toNat, progress := r.progress, statusVa := r.statusVa } s
    match r.queue with
    | none => failRun stFault id s
    | some q =>
      if (queueOf s q).state = qRunning ∨ (queueOf s q).state = qSwitchedOut then
        settleRun id (switchOut q (modRun id (fun r => { r with faulted := true, stopping := true }) s))
      else failRun stFault id s

/-- A translation fault on a status record's write (10 R294): the queue is switched out and the
write waits; where the queue cannot be, the record is lost. -/
def faultStatus (id : Nat) (cause : Nat) (s : State) : State :=
  match runOf s id with
  | none => s
  | some r =>
    let s := recordFault
      { cause := cause, source := if r.queue.isNone then 4 else 2, access := rightWrite, ctx := r.ctx
        queue := match r.queue with | some q => q | none => 0xFFFF
        addr := r.statusVa, index := r.index.toNat, progress := r.progress, statusVa := r.statusVa } s
    match r.queue with
    | none => loseStatus id s
    | some q =>
      if (queueOf s q).state = qHalted ∨ (queueOf s q).state = qDraining then loseStatus id s
      else switchOut q (modRun id (fun r => { r with faulted := true }) s)

/-! ### Counters and those that wait on them (09 R269 to R271) -/

/-- A run waits on a counter with a threshold. -/
def waitsOn (k : Nat) (v : Word) (r : Run) : Bool :=
  r.phase == .holding && r.op == dWait && r.num 16 2 == k && decide (r.num 24 8 ≤ v.toNat)

/-- Add a run. -/
def joinRun (r : Run) (s : State) : State :=
  { s with cq := { s.cq with runs := s.cq.runs ++ [r], nextId := max s.cq.nextId r.id + 1 } }

/-- Add a run, and write its status record for the first time (09 R265). -/
def beginRun (r : Run) (s : State) : State := putStatus r.id .start (joinRun r s)

/-- A triggered operation's run (09 R270). -/
def triggeredRun (a : Armed) (id : Nat) (m : Option Nat) : Run :=
  { id := id, queue := none, irqQueue := a.queue, ctx := a.ctx, part := a.part, index := 0xFFFFFFFF
    desc := a.desc, mover := m }

/-- Armed triggered operations end unrun, each with a status in its own record. -/
def endArmed (st : Byte) (f : Armed → Bool) (s : State) : State :=
  let gone := s.cq.armed.filter f
  let s := { s with cq := { s.cq with armed := s.cq.armed.filter (fun a => !f a) } }
  forEach gone (fun a s =>
    abortRun st a.id (beginRun (triggeredRun a a.id none) s)) s

/-- Store a counter; every WAIT and triggered operation on it re-evaluates its condition (09 R269,
R271). -/
def storeCounter (k : Nat) (v : Word) (s : State) : State :=
  let s := { s with cq := { s.cq with
    counters := tabSet 0 k v s.cq.counters
    armed := s.cq.armed.map (fun a => if a.counter = k ∧ a.threshold.toNat ≤ v.toNat then { a with fired := true } else a) } }
  forEach (s.cq.runs.filter (waitsOn k v)) (fun r => endRun r.id stOk) s

/-- An uncorrectable error injected into a counter: it holds 0, and whatever waits on it completes with
DATA_ERROR (15 R410, R430). -/
def loseCounter (k : Nat) (s : State) : State :=
  let s := logErr { cls := clsInternal, sev := 2, injected := true, unitKind := 12 } (noteUncorr (injectOne s))
  let s := { s with cq := { s.cq with counters := tabSet 0 k 0 s.cq.counters } }
  let s := forEach (s.cq.runs.filter (fun r => r.phase == .holding && r.op == dWait && r.num 16 2 == k)) (fun r => endRun r.id stDataError) s
  endArmed stDataError (fun a => a.counter == k && !a.fired) s

/-- Write a counter (09 R271). -/
def setCounter (k : Nat) (v : Word) (s : State) : State :=
  if injecting 4 5 s then loseCounter k s else storeCounter k v (injectCorrected 5 12 s)

/-- Add to a counter, modulo 2^64 (09 R271). -/
def addCounter (k : Nat) (n : Word) (s : State) : State := setCounter k (cntOf s k + n) s

/-! ### The end of a run (09 R251, R258, R265; 14 R382) -/

/-- The status halts the queue (09 R244, R258). -/
def halts (r : Run) : Bool :=
  !(r.status == stOk || r.status == stLate || r.status == stAborted) &&
    (!r.noHalt || r.status == stFault || r.status == stMalformed || r.status == stUnlicensed)

/-- A FENCE completes when every earlier descriptor of its queue has its final status (09 R258). -/
def fenceReady (s : State) (r : Run) : Bool :=
  match r.queue with
  | none => false
  | some q => (queueRuns s q).all (fun t => t.id == r.id || decide (aheadOf (queueOf s q) r.index ≤ aheadOf (queueOf s q) t.index))

/-- FENCEs of a queue that hold it and may now complete. -/
def wakeFences (q : Nat) (s : State) : State :=
  forEach ((queueRuns s q).filter (fun r => r.phase == .holding && r.op == dFence && fenceReady s r))
    (fun r => endRun r.id stOk) s

/-- A halting status sends the queue to DRAINING (09 R251, R258). -/
def haltQueue (r : Run) (q : Nat) (s : State) : State :=
  let st := (queueOf s q).state
  if st = qRunning ∨ st = qSwitchedOut then
    let s := setDraining q 1 (modQueue q (fun x => { x with failedIndex := r.index }) s)
    if st = qSwitchedOut then
      forEach (queueAll s q) (fun t => abortRun (haltStatus t) t.id) s
    else s
  else s

/-- The DONE write has returned: counter, interrupt, and the queue's next state (09 R265). -/
def finishRun (id : Nat) (s : State) : State :=
  match runOf s id with
  | none => s
  | some r =>
    let s := dropRun id s
    let s := if r.cplCount && r.status == stOk then addCounter (r.num 4 2) 1 s else s
    let s := if r.irq then
        let v := (queueOf s r.irqQueue).vector
        irqEvent r.part ⟨v.toNat, v.isLt⟩ causeCompletion s
      else s
    match r.queue with
    | none => s
    | some q => wakeFences q (queueSettle q (if halts r then haltQueue r q s else s))

/-- The last writes before DONE have returned: bytes 0 to 7 are written (09 R265). -/
def tryDone (id : Nat) (s : State) : State :=
  match runOf s id with
  | none => s
  | some r =>
    if r.phase = .ending ∧ r.statusPending = 0 ∧ r.statusWait = none then
      putStatus id .done (modRun id (fun r => { r with phase := .doneWrite }) s)
    else s

/-! ### Checks on a descriptor (00 R11, 09 R260 to R263) -/

/-- Bytes [a, b) of a descriptor are zero. -/
def zeroBytes (r : Run) (a b : Nat) : Bool := (bytesAt r.desc a (b - a)).all (· == 0)

/-- An atomic's ATTR is well formed for its OP, WIDTH and FMT (08 R218). -/
def attrOk (attr : Byte) : Bool :=
  let op := bitsOf attr.toNat 0 4
  let w := bitsOf attr.toNat 4 2
  let f := bitsOf attr.toNat 6 2
  decide (op ≤ 10) && w != 3 && (if op = 10 then f != 3 else f == 0)

/-- The width of an atomic in bytes. -/
def atomicWidth (attr : Byte) : Nat := 4 * 2 ^ bitsOf attr.toNat 4 2

/-- The fields of a descriptor are allowed (00 R11, 09 R260, R263, R268, R270, 10 R302,
16 R440, R442). -/
def descFormOk (r : Run) : Bool :=
  let op := r.op
  let ch := r.num 2 1
  let len := decide (1 ≤ r.length) && decide (r.length ≤ 2 ^ 44)
  zeroBytes r 3 4 && zeroBytes r 6 8 && r.num 1 1 / 16 == 0 && (ch == 0 || (decide (16 ≤ ch) && decide (ch ≤ 26))) &&
    (if op = dCopy then zeroBytes r 40 64 && len
     else if op = dFill then zeroBytes r 16 24 && zeroBytes r 56 64 && len
     else if op = dDigest then zeroBytes r 24 32 && zeroBytes r 41 64 && len &&
       (r.num 40 1 == 1 || r.num 40 1 == 2 || r.num 40 1 == 0x82)
     else if op = dSealed then zeroBytes r 60 64 && decide (16 ≤ r.length) && decide (r.length ≤ 2 ^ 36 - 32)
     else if op = dPrefetch then zeroBytes r 24 32 && zeroBytes r 40 64
     else if op = dAdvise then zeroBytes r 24 32 && zeroBytes r 41 64 &&
       decide (1 ≤ r.num 40 1) && decide (r.num 40 1 ≤ 4)
     else if op = dWait then zeroBytes r 32 64
     else if op = dSignal then zeroBytes r 20 24 &&
       (r.num 16 1 == 0 || (r.num 16 1 == 1 && attrOk (BitVec.ofNat 8 (r.num 17 1)) &&
         r.num 24 8 % atomicWidth (BitVec.ofNat 8 (r.num 17 1)) == 0))
     else if op = dTrigger then zeroBytes r 18 24 && zeroBytes r 40 64 && r.num 32 8 % 64 == 0
     else if op = dCollective then zeroBytes r 49 64
     else if op = dFence ∨ op = dNop then zeroBytes r 16 64
     else false)

/-- An opcode that a triggered operation may not have (09 R270). -/
def notTriggered (op : Nat) : Bool := op == dWait || op == dTrigger || op == dCollective || op == dFence

/-- The counters a descriptor names (09 R262; log entry 19). -/
def namedCounters (r : Run) : List Nat :=
  (if r.cplCount then [r.num 4 2] else []) ++
    (if r.op = dWait ∨ r.op = dTrigger then [r.num 16 2]
     else if r.op = dSignal ∧ r.num 16 1 = 0 then [r.num 18 2] else [])

/-- A counter lies within a partition's range. -/
def cntIn (s : State) (p k : Nat) : Bool :=
  let r := partRec s p
  decide (r.cntBase ≤ k) && decide (k < r.cntBase + r.cntCount)

/-- A licensed feature (04 R98): 0 twelve ports, 1 eight Beaters, 2 MX, 3 sealed copies, 4 long
reach. -/
def licensed (s : State) (k : Nat) : Bool := s.fur.features.getLsbD k

/-- The status a descriptor ends with before its action, if its fields decide one. -/
def descVerdict (s : State) (r : Run) : Option Byte :=
  if !descFormOk r || (r.queue.isNone && notTriggered r.op) then some stMalformed
  else if r.op = dCollective ∧ (queueOf s r.irqQueue).periodic then some stMalformed
  else if r.op = dSealed ∧ !licensed s 3 then some stUnlicensed
  else if (namedCounters r).any (fun k => !cntIn s r.part k) then some stRights
  else none

/-- The first write of a status record has returned: the descriptor's fields are judged, and its
action may run (09 R261, R265). -/
def activate (id : Nat) (s : State) : State :=
  match runOf s id with
  | none => s
  | some r =>
    if r.phase ≠ .starting then settleRun id s
    else match descVerdict s r with
      | some st => endRun id st s
      | none =>
        let s := modRun id (fun r => { r with phase := .active }) s
        settleRun id (onlyIf (r.heldRanges.isEmpty) (translateChunk id 0 r.mover) s)

/-- A write of a status record has been answered (09 R261, R265). -/
def statusAnswered (id : Nat) (pt : StatusPoint) (bad : Bool) (s : State) : State :=
  let s := modRun id (fun r => { r with statusPending := r.statusPending - 1 }) s
  if bad then loseStatus id s
  else match pt with
    | .start => activate id s
    | .progress => tryDone id (settleRun id s)
    | .final => tryDone id s
    | .done => finishRun id s

/-! ### Fetching descriptors (09 R251, R254, R257; 10 R287) -/

/-- Address of a ring slot (09 R254): RING_VA is taken aligned to the ring's size. -/
def slotVa (q : Queue) (i : BitVec 32) : Nat :=
  let n := 2 ^ ringLog2Of q
  q.ringVa.toNat * 4096 + i.toNat % n * 64

/-- How many descriptors may be fetched ahead: 64, and all of them under queue-time translation
(09 R257; log entry 20). -/
def fetchAhead (q : Queue) : Nat := if q.xltMode then 65536 else 64

/-- How far a ring count lies ahead of another, or 0 when it lies behind. -/
def overBy (a b : BitVec 32) : Nat := if (a - b).toNat < 2 ^ 31 then (a - b).toNat else 0

/-- Descriptors fetched and not started. -/
def fetchedOver (q : Queue) : Nat := overBy q.nextFetch q.nextStart

/-- A fetch meets a range that is remote, or fails (09 R254, 10 R294). -/
def ringFault (k : QueueNo) (cause : Nat) (s : State) : State :=
  let q := queueOf s k
  let s := recordFault { cause := cause, source := 1, access := rightRead, ctx := q.ctx, queue := k
                         addr := slotVa q q.nextFetch, index := q.nextFetch.toNat } s
  switchOut k (modQueue k (fun q => { q with ringFault := true }) s)

/-- Fetch descriptors in ring order, up to `fuel` of them (09 R257). -/
def fetchMore (k : QueueNo) : Nat → State → State
  | 0, s => s
  | fuel + 1, s =>
    let q := queueOf s k
    if (q.state ≠ qRunning ∧ q.state ≠ qIdle) ∨ q.ringFault ∨ q.nextFetch = q.tail ∨ fetchAhead q ≤ fetchedOver q then s
    else
      let va := slotVa q q.nextFetch
      match translate (.ring k) q.ctx va rightRead s with
      | (none, s) => s
      | (some e, s) =>
        match placeOf e va with
        | .far _ _ => ringFault k causeRemote s
        | .loc pa =>
          let (ep, s) := beginUse q.ctx s
          let s := memIssue .read (.descFetch k q.nextFetch) pa 64 0 [] (some (q.ctx, ep)) s
          fetchMore k fuel (modQueue k (fun q => { q with nextFetch := q.nextFetch + 1 }) s)

/-- Fetch what may be fetched now. -/
def fetchNow (k : QueueNo) (s : State) : State :=
  let q := queueOf s k
  fetchMore k ((q.tail - q.nextFetch).toNat % 65537) s

/-- Put a fetched descriptor in its place, in ring order. -/
def insertFetched (q : Queue) (f : Fetched) : List Fetched → List Fetched
  | [] => [f]
  | g :: gs =>
    if aheadOf q f.index < aheadOf q g.index then f :: g :: gs
    else if f.index = g.index then g :: gs
    else g :: insertFetched q f gs

/-- The ring count lies among those fetched and not started. -/
def fetchWanted (q : Queue) (i : BitVec 32) : Bool := decide ((i - q.nextStart).toNat < fetchedOver q)

/-- Descriptors with held translations (10 R287, XLT_STATUS HELD). -/
def heldCount (s : State) : Nat :=
  (s.cq.queues.map (fun q => (q.2.fetched.filter (fun f => f.held.isSome)).length)).sum

/-- What a fetched descriptor would run as. -/
def fetchedRun (q : Queue) (k : QueueNo) (f : Fetched) : Run :=
  { id := 0, queue := some k, irqQueue := k, ctx := q.ctx, part := 0, index := f.index, desc := padTo 64 f.desc }

/-- The spans that queue-time translation covers: STATUS_VA and the first chunk's addresses (10 R287). -/
def queueTimeNeeds (s : State) (r : Run) : List (Nat × Nat × BitVec 3) := (r.statusVa, 1, rightWrite) :: chunkNeeds s r 0

/-- Find the entries that cover a span, those already taken for the descriptor first; the first address without one is
asked for (10 R278, R287). -/
def takeSpan (k : QueueNo) (i : BitVec 32) (c : CtxNo) (need : BitVec 3) (taken : List Range) :
    Nat → Nat → Nat → State → Option (List Range) × State
  | 0, _, _, s => (some [], s)
  | fuel + 1, a, len, s =>
    if len = 0 then (some [], s)
    else
      let (e, s) := match taken.find? (answers s c a need) with
        | some r => (some r, s)
        | none => translate (.queueTime k i) c a need s
      match e with
      | none => (none, s)
      | some r =>
        let n := min len (r.start * 4096 + r.pages * 4096 - a)
        let (rs, s) := takeSpan k i c need taken fuel ((a + n) % 2 ^ 64) (len - n) s
        (rs.map (r :: ·), s)

/-- The entries that cover every span, when all are found. -/
def takeSpans (k : QueueNo) (i : BitVec 32) (c : CtxNo) (taken : List Range) :
    List (Nat × Nat × BitVec 3) → State → Option (List Range) × State
  | [], s => (some [], s)
  | x :: rest, s =>
    let (a, s) := takeSpan k i c x.2.2 taken (x.2.1 / 4096 + 2) x.1 x.2.1 s
    let (b, s) := takeSpans k i c taken rest s
    (match a, b with | some a, some b => some (a ++ b) | _, _ => none, s)

/-- A change of a fetched descriptor. -/
def modFetched (k : QueueNo) (i : BitVec 32) (f : Fetched → Fetched) (s : State) : State :=
  modQueue k (fun q => { q with fetched := q.fetched.map (fun g => if g.index = i then f g else g) }) s

/-- Translate a fetched descriptor at queue time, within the limits (10 R287). -/
def holdXlt (k : QueueNo) (i : BitVec 32) (s : State) : State :=
  let q := queueOf s k
  match q.fetched.find? (fun f => f.index == i) with
  | none => s
  | some f =>
    let r := fetchedRun q k f
    if !q.xltMode || f.bad || f.held.isSome || !chunked r.op || !descFormOk r ||
        decide (64 ≤ (q.fetched.filter (fun f => f.held.isSome)).length) || decide (16384 ≤ heldCount s) then s
    else match takeSpans k i q.ctx f.taken (queueTimeNeeds s r) s with
      | (some rs, s) =>
        modFetched k i (fun g => { g with held := some { epoch := (ctxOf s q.ctx).epoch, ranges := rs.eraseDups }, taken := [] }) s
      | (none, s) => s

/-- The service has replied to a queue-time translation: the entry is kept for the descriptor, whose translation goes on
(10 R287). -/
def queueTimeFound (k : QueueNo) (i : BitVec 32) (r : Range) (s : State) : State :=
  holdXlt k i (modFetched k i (fun g => { g with taken := r :: g.taken }) s)

/-- A run that only writes the status record of a descriptor (09 R273). -/
def recordRun (id : Nat) (k : QueueNo) (c : CtxNo) (p : PartNo) (i : BitVec 32) (desc : List Byte) : Run :=
  { id := id, queue := some k, irqQueue := k, ctx := c, part := p, index := i, desc := padTo 64 desc, phase := .ending
    detached := true }

/-- A descriptor that never ran completes with LATE (09 R273). -/
def lateRecord (k : QueueNo) (p : PartNo) (i : BitVec 32) (desc : List Byte) (s : State) : State :=
  let id := s.cq.nextId
  let s := modQueue k (fun q => { q with lateCount := satInc q.lateCount }) s
  finalWrite id stLate { s with cq := { s.cq with
    nextId := id + 1, runs := s.cq.runs ++ [recordRun id k (queueOf s k).ctx p i desc] } }

/-- A descriptor's read has returned (09 R251, R273, 10 R287). -/
def descArrived (k : QueueNo) (i : BitVec 32) (bytes : List Byte) (bad : Bool) (s : State) : State :=
  if (queueOf s k).lateOwed.contains i then
    let s := modQueue k (fun q => { q with lateOwed := q.lateOwed.filter (· != i) }) s
    match queuePart s k with
    | some p => if bad then s else lateRecord k p i bytes s
    | none => s
  else if fetchWanted (queueOf s k) i then
    holdXlt k i (modQueue k (fun q => { q with
      fetched := insertFetched q { index := i, desc := bytes, bad := bad } q.fetched }) s)
  else s

end Sys2Proof.Machine
end

