-- ==== Sys2Proof/Machine/Atomics.lean ====
section
/-! DEFINITION. Atomics: their arithmetic, the four atomic units and the replay table (08 R218 to
R222, R233 to R235). -/

namespace Sys2Proof.Machine

/-! ### Arithmetic (08 R218, R220) -/

/-- A w-bit value as two's complement. -/
def toSigned (w v : Nat) : Int := if bitOf v (w - 1) then (v : Int) - 2 ^ w else (v : Int)

/-- FADD: lane by lane (08 R218, R220). -/
def faddLanes (fmt w m v : Nat) : Nat :=
  let f := if fmt = 0 then fmtFp32 else if fmt = 1 then fmtBf16 else fmtFp16
  let k := f.width
  ((List.range (w / k)).map (fun i => (f.add (bitsOf m (k * i) k) (bitsOf v (k * i) k)).1 * 2 ^ (k * i))).sum

/-- The new memory value of an atomic of `w` bits, with old value m, operand v and compare value c
(08 R218). -/
def atomicNew (attr : Byte) (m v c : Nat) : Nat :=
  let w := 8 * atomicWidth attr
  let op := bitsOf attr.toNat 0 4
  if op = 0 then (m + v) % 2 ^ w
  else if op = 1 then (if toSigned w v < toSigned w m then v else m)
  else if op = 2 then (if toSigned w m < toSigned w v then v else m)
  else if op = 3 then min m v
  else if op = 4 then max m v
  else if op = 5 then v
  else if op = 6 then (if m = c then v else m)
  else if op = 7 then Nat.land m v
  else if op = 8 then Nat.lor m v
  else if op = 9 then Nat.xor m v
  else faddLanes (bitsOf attr.toNat 6 2) w m v

/-- The operand and compare value of an ATOMIC (08 R219). -/
def atomicOperands (m : Msg) : Nat × Nat :=
  let w := atomicWidth m.attr
  if w = 16 then (numAt m.data 0 16, numAt m.data 16 16) else (numAt m.data 0 w, numAt m.data 8 w)

/-- Apply an atomic to the bytes of its line: the old value and the new bytes. -/
def applyAtomic (a : AtomicOp) (line : List Byte) : Nat × List Byte :=
  let w := atomicWidth a.msg.attr
  let off := a.pa % 128
  let (v, c) := atomicOperands a.msg
  let m := numAt line off w
  (m, line.take off ++ leBytes w (atomicNew a.msg.attr m v c) ++ line.drop (off + w))

/-! ### The units (08 R221; 02 R37) -/

def unitOf (s : State) (u : Nat) : AtomicUnit := tabGet {} s.trk.units u

def modUnit (u : Nat) (f : AtomicUnit → AtomicUnit) (s : State) : State :=
  countTrk (fun k => { k with units := tabMod {} u f k.units }) s

/-- The unit of an address. -/
def unitNo (pa : Nat) : Nat := pa / 128 % 4

/-- An idle unit takes the line of the oldest atomic that waits, with READ_LOCK (08 R221, 02 R37). -/
def startUnit (u : Nat) (s : State) : State :=
  let x := unitOf s u
  match x.line, x.waiting with
  | none, a :: _ =>
    memIssue .readLock (.atomicLock u) (a.pa / 128 * 128) 128 0 [] none
      (modUnit u (fun x => { x with line := some (a.pa / 128) }) s)
  | _, _ => s

/-- Hand an atomic to its unit (08 R221). -/
def giveUnit (a : AtomicOp) (s : State) : State :=
  let u := unitNo a.pa
  startUnit u (modUnit u (fun x => { x with waiting := x.waiting ++ [a] }) s)

/-- Apply atomics to a line in order: the old value of each, and the line afterwards. -/
def applyAll : List AtomicOp → List Byte → List Nat × List Byte
  | [], line => ([], line)
  | a :: rest, line =>
    let (m, line) := applyAtomic a line
    let (ms, line) := applyAll rest line
    (m :: ms, line)

/-- MEM_n_WR_STRB of a changed line: the bytes that differ (02 R37, 08 R221). -/
def changedBytes (old new : List Byte) : BitVec 128 :=
  BitVec.ofNat 128 ((List.range 128).foldl (fun a k => a + (if old.getD k 0 = new.getD k 0 then 0 else 2 ^ k)) 0)

/-- End the lock with WRITE_UNLOCK (02 R37). -/
def unlockLine (u line : Nat) (old new : List Byte) (s : State) : State :=
  issueOne { ch := memChannel s (line * 128), tag := 0, op := .writeUnlock, addr := line * 128, len := 128
             data := new, strb := changedBytes old new, owner := .atomicUnlock u } s

/-- The locked line's data has returned: up to 32 waiting atomics on it are applied in order, and
the lock ends (08 R221, R222). -/
def unitData (u : Nat) (bytes : List Byte) (bad : Bool) (s : State) : State :=
  let x := unitOf s u
  match x.line with
  | none => s
  | some line =>
    let mine := (x.waiting.filter (fun a => a.pa / 128 == line)).take 32
    let (olds, new) := if bad then (mine.map (fun _ => 0), bytes) else applyAll mine bytes
    let s := modUnit u (fun x => { x with
      waiting := mine.foldl (fun w a => w.erase a) x.waiting, applied := mine, olds := olds, lockBad := bad
      unlocking := true }) s
    let s := countTrk (fun k => { k with
      executed := if bad then k.executed else satAdd k.executed mine.length
      lockDataErrors := if bad then satInc k.lockDataErrors else k.lockDataErrors }) s
    unlockLine u line bytes new s

/-- The unlock has been answered: the atomics are performed, with their statuses and old values, and
the unit goes on (02 R37, R38; 08 R214, R222). -/
def unitUnlocked (u : Nat) (bad : Bool) (s : State) : List (AtomicOp × Byte × Nat) × State :=
  let x := unitOf s u
  let st := if x.lockBad || bad then stDataError else stOk
  ((x.applied.zip x.olds).map (fun p => (p.1, st, if st = stOk then p.2 else 0)),
    startUnit u (modUnit u (fun x => { x with
      line := none, applied := [], olds := [], lockBad := false, unlocking := false }) s))

/-! ### The replay table (08 R233 to R235) -/

/-- The entry of a SOURCE and TAG. -/
def replayOf (s : State) (m : Msg) : Option ReplayEntry :=
  s.trk.replay.find? (fun e => e.source == m.source && e.tag == m.tag)

/-- The result message of an atomic (08 R219). -/
def atomicResultMsg (s : State) (m : Msg) (status : Byte) (old : Nat) : Msg :=
  let r := responseTo s m opAtomicResult status
  if status = stOk then { r with dslots := 1, data := leBytes 16 old } else r

/-- Reserve an entry for an atomic that will be executed. -/
def reserveEntry (m : Msg) (s : State) : State :=
  countTrk (fun k => { k with
    replay := k.replay ++ [{ source := m.source, tag := m.tag, old := 0, status := 0 }]
    replayPeak := max k.replayPeak (k.replay.length + 1) }) s

/-- Clear the table (08 R235).  Atomics that wait in their VC buffers stay there. -/
def clearReplay (s : State) : State := countTrk (fun k => { k with replay := [], clearedAt := s.nowUs }) s

/-- An error injected into a write of the replay table: corrected, or the table counts as cleared (15 R410,
R430). -/
def replayInject (s : State) : State :=
  if injecting 4 3 s then
    clearReplay (logErr { cls := clsInternal, sev := 2, injected := true, unitKind := 6 } (noteUncorr (injectOne s)))
  else injectCorrected 3 6 s

/-- Store the result of an executed atomic, and answer it and the copies that came meanwhile (08
R219, R222, R233). -/
def storeResult (m : Msg) (status : Byte) (old : Nat) (s : State) : State :=
  let copies := match replayOf s m with | some e => e.copies | none => []
  let s := countTrk (fun k => { k with
    replay := k.replay.map (fun e => if e.source = m.source ∧ e.tag = m.tag then
      { e with old := BitVec.ofNat 128 old, status := status, done := true, copies := [] } else e) }) s
  let s := replayInject s
  forEach (m :: copies) (fun x s => sendOrDrop .steward (atomicResultMsg s x status old) s) s

/-- The table was cleared less than ATOMIC_RETAIN ago (08 R235). -/
def tableFresh (s : State) : Bool := decide (s.nowUs < s.trk.clearedAt + atomicRetainOf s)

/-- Free the entry of a SOURCE and TAG whose result is stored (08 R234). -/
def freeEntry (source tag : BitVec 32) (s : State) : State :=
  countTrk (fun k => { k with replay := k.replay.filter (fun e => !(e.source == source && e.tag == tag && e.done)) }) s

/-- REPLAY_ENTRY_EXPIRY: an entry has been held for ATOMIC_RETAIN (08 R234). -/
def doReplayExpiry (source tag : BitVec 32) (s : State) : State :=
  if s.trk.replay.any (fun e => e.source == source && e.tag == tag && e.done) then
    freeEntry source tag (countTrk (fun k => { k with expiries := satInc k.expiries }) s)
  else s

end Sys2Proof.Machine
end

