-- ==== Sys2Proof/Machine/Gcm.lean ====
section
/-! DEFINITION. AES-256-GCM (16 R441), as NIST SP 800-38D and FIPS 197 define it (log entry 13). -/

namespace Sys2Proof.Machine

/-- Multiply by x in the field of AES. -/
def xtime (a : Nat) : Nat := if a < 128 then 2 * a else Nat.xor (2 * a % 256) 0x1B

/-- Multiply in the field of AES, by the low 8 bits of `b`. -/
def gmulAes : Nat → Nat → Nat → Nat
  | 0, _, _ => 0
  | fuel + 1, a, b => Nat.xor (if b % 2 = 1 then a else 0) (gmulAes fuel (xtime a) (b / 2))

/-- a^(2^k − 2 …): the inverse in the field of AES, a^254, and 0 for 0. -/
def aesInv (a : Nat) : Nat :=
  let sq (x : Nat) := gmulAes 8 x x
  let a2 := sq a
  let a4 := sq a2
  let a8 := sq a4
  let a16 := sq a8
  let a32 := sq a16
  let a64 := sq a32
  let a128 := sq a64
  gmulAes 8 a128 (gmulAes 8 a64 (gmulAes 8 a32 (gmulAes 8 a16 (gmulAes 8 a8 (gmulAes 8 a4 a2)))))

/-- Rotate a byte left. -/
def rotl8 (a k : Nat) : Nat := (a * 2 ^ k + a / 2 ^ (8 - k)) % 256

/-- The S-box of AES. -/
def sbox (a : Nat) : Nat :=
  let b := aesInv (a % 256)
  Nat.xor b (Nat.xor (rotl8 b 1) (Nat.xor (rotl8 b 2) (Nat.xor (rotl8 b 3) (Nat.xor (rotl8 b 4) 0x63))))

def xorWords (a b : List Nat) : List Nat := List.zipWith Nat.xor a b

/-- The expanded key of AES-256, 60 words of four bytes each, latest first; `i` counts the words
made. -/
def aesExpand : Nat → Nat → Nat → List (List Nat) → List (List Nat)
  | 0, _, _, ws => ws
  | fuel + 1, i, rcon, ws =>
    let prev := ws.headD []
    let t := if i % 8 = 0 then
        match (prev.drop 1 ++ prev.take 1).map sbox with
        | x :: xs => Nat.xor x rcon :: xs
        | [] => []
      else if i % 8 = 4 then prev.map sbox else prev
    aesExpand fuel (i + 1) (if i % 8 = 0 then xtime rcon else rcon) (xorWords (ws.getD 7 []) t :: ws)

/-- The round keys of AES-256: 15 lists of 16 bytes. -/
def aesKeys (key : List Byte) : List (List Nat) :=
  let k := key.map BitVec.toNat
  let first := (upTo 8 (fun i => (k.drop (4 * i)).take 4)).reverse
  let ws := (aesExpand 52 8 1 first).reverse
  upTo 15 (fun r => ((ws.drop (4 * r)).take 4).flatten)

/-- ShiftRows on 16 bytes, column by column. -/
def shiftRows (b : List Nat) : List Nat := upTo 16 (fun i => b.getD ((i + 4 * (i % 4)) % 16) 0)

/-- MixColumns on one column. -/
def mixColumn (c : List Nat) : List Nat :=
  upTo 4 (fun i =>
    let g (k : Nat) := c.getD ((i + k) % 4) 0
    Nat.xor (xtime (g 0)) (Nat.xor (Nat.xor (xtime (g 1)) (g 1)) (Nat.xor (g 2) (g 3))))

def mixColumns (b : List Nat) : List Nat := (upTo 4 (fun k => mixColumn ((b.drop (4 * k)).take 4))).flatten

/-- Encrypt one block of 16 bytes under the round keys. -/
def aesBlock (keys : List (List Nat)) (b : List Nat) : List Nat :=
  match keys with
  | [] => b
  | k0 :: rest =>
    let mid := (rest.take 13).foldl (fun x k => xorWords (mixColumns (shiftRows (x.map sbox))) k) (xorWords b k0)
    xorWords (shiftRows (mid.map sbox)) (rest.getD 13 [])

/-- A block as a number, most significant byte first. -/
def beNat (b : List Nat) : Nat := b.foldl (fun a x => a * 256 + x) 0

/-- `n` bytes of a number, most significant first. -/
def beBytes : Nat → Nat → List Nat
  | 0, _ => []
  | n + 1, v => beBytes n (v / 256) ++ [v % 256]

/-- Multiply in the field of GHASH: bit 0 is the most significant bit. -/
def gmulGhash : Nat → Nat → Nat → Nat → Nat
  | 0, _, _, z => z
  | fuel + 1, x, v, z =>
    let z := if x / 2 ^ fuel % 2 = 1 then Nat.xor z v else z
    let v := if v % 2 = 1 then Nat.xor (v / 2) 0xE1000000000000000000000000000000 else v / 2
    gmulGhash fuel x v z

/-- GHASH over blocks. -/
def ghash (h : Nat) (blocks : List (List Nat)) : Nat :=
  blocks.foldl (fun y b => gmulGhash 128 (Nat.xor y (beNat b)) h 0) 0

/-- A byte string as blocks of 16, the last one filled with zeros. -/
def blocks16 : Nat → List Nat → List (List Nat)
  | 0, _ => []
  | fuel + 1, l => if l.isEmpty then [] else (l.take 16 ++ List.replicate (16 - min 16 l.length) 0) :: blocks16 fuel (l.drop 16)

/-- Counter block `n` for a 96-bit IV; block 1 is J0. -/
def gcmCounter (iv : List Byte) (n : Nat) : List Nat := iv.map BitVec.toNat ++ beBytes 4 (n % 2 ^ 32)

/-- The plaintext of ciphertext bytes that begin at an offset of the message. -/
def gcmDecrypt (key iv : List Byte) (off : Nat) (ct : List Byte) : List Byte :=
  let keys := aesKeys key
  let first := off / 16
  let n := (off % 16 + ct.length + 15) / 16
  let stream := (upTo n (fun i => aesBlock keys (gcmCounter iv (2 + first + i)))).flatten
  List.zipWith (fun c (k : Nat) => c ^^^ BitVec.ofNat 8 k) ct (stream.drop (off % 16))

/-- The 16-byte authentication tag. -/
def gcmTag (key iv aad ct : List Byte) : List Byte :=
  let keys := aesKeys key
  let h := beNat (aesBlock keys (List.replicate 16 0))
  let a := aad.map BitVec.toNat
  let c := ct.map BitVec.toNat
  let y := ghash h (blocks16 (a.length + 1) a ++ blocks16 (c.length + 1) c ++
    [beBytes 8 (8 * a.length) ++ beBytes 8 (8 * c.length)])
  (beBytes 16 (Nat.xor y (beNat (aesBlock keys (gcmCounter iv 1))))).map (BitVec.ofNat 8)

end Sys2Proof.Machine
end

