-- ==== Sys2Proof/Machine/Movers.lean ====
section
/-! DEFINITION. The movers: scheduling, chunks, transfers, and the actions of descriptors other
than COLLECTIVE (09 R258 to R270, 10 R301, R302, 14 R391). -/

namespace Sys2Proof.Machine

/-! ### Scheduling (09 R259, 14 R387, R391) -/

/-- In P0 or P1, and not on the way out of them: movers work (03 R70, R74). -/
def awake (s : State) : Bool :=
  decide (s.power.cur.toNat ≤ 1) && s.power.transition != some 2 && s.power.transition != some 3

/-- Queues are scheduled: the block is ready, in P0 or P1 with no P2 order under way, and not
suspect (03 R73, 04 R107, 15 R426). -/
def schedules (s : State) : Bool :=
  s.pins.ready && s.power.draining.isNone && awake s && s.err.drainState == 0

/-- A mover is busy. -/
def moverBusy (s : State) (m : Nat) : Bool :=
  s.cq.runs.any (fun r => r.mover == some m || r.chunks.any (fun j => j.mover == m))

/-- The lowest free mover of the 32 (log entry 17). -/
def freeMover (s : State) : Option Nat := firstFree (moverBusy s) 32 0

/-- The run may issue requests now (09 R247, R251; 08 R228; 14 R399). -/
def mayIssue (s : State) (r : Run) : Bool :=
  r.phase == .active && r.failed.isNone && (!r.faulted || r.op == dCollective) && !r.fencing && takesTurns s r.part

/-- The run waits for a mover for its next chunk. -/
def wantsChunk (s : State) (r : Run) : Bool :=
  r.queue.isSome && chunked r.op && awake s && mayIssue s r && !r.stopping && s.err.drainState == 0 &&
    (r.op != dSealed || r.key.isSome) && decide (r.nextChunk < chunkCount s r) &&
    decide (r.chunks.length < spreadOf (queueOf s r.irqQueue))

/-- Work that waits for a mover (14 R391). -/
structure Work where
  /-- the queue, or 4,096 + id for a triggered operation -/
  key  : Nat
  part : Nat
  /-- µs × 750 at which the period of a periodic queue ends -/
  ends : Option Nat := none
  cost : Nat
  deriving DecidableEq, Repr, Inhabited

/-- The period of a queue in force (09 Q_PERIOD). -/
def periodOf (q : Queue) : Nat := min 750000000 (max 7500 q.periodCclk.toNat)

/-- Bytes of the first chunk of a descriptor's work, for a triggered operation. -/
def firstCost (s : State) (a : Armed) : Nat :=
  let r : Run := { (default : Run) with desc := a.desc, irqQueue := a.queue, queue := none }
  if chunked r.op then chunkLen s r 0 else 0

/-- Everything that waits for a mover. -/
def moverWork (s : State) : List Work :=
  (s.cq.runs.filter (wantsChunk s)).map (fun r =>
    let q := queueOf s r.irqQueue
    { key := r.irqQueue, part := r.part, cost := (chunkSpan s r r.nextChunk).2
      ends := if q.periodic then some (q.periodStart * 750 + periodOf q) else none }) ++
  (s.cq.armed.filter (fun a => a.fired && takesTurns s a.part && s.err.drainState == 0)).map (fun a =>
    { key := 4096 + a.id, part := a.part, cost := firstCost s a })

/-- Within a partition: periodic queues first, the soonest end first, then round robin (14 R391). -/
def pickWork (s : State) (p : Nat) (ws : List Work) : Option Work :=
  let mine := ws.filter (fun w => w.part == p)
  let periodic := mine.filter (fun w => w.ends.isSome)
  let best (f : Work → Nat) (l : List Work) : Option Work :=
    l.foldl (fun b w => match b with | none => some w | some x => if f w < f x then some w else b) none
  match best (fun w => w.ends.getD 0) periodic with
  | some w => some w
  | none =>
    let last := tabGet 0 s.cq.lastQueue p
    match best Work.key (mine.filter (fun w => decide (last ≤ w.key))) with
    | some w => some w
    | none => best Work.key mine

/-- Partitions with work that waits for a mover. -/
def moverParts (ws : List Work) : List Nat := (List.range 16).filter (fun p => ws.any (fun w => w.part == p))

/-- The work that the queue scheduler serves next, with its turn taken (14 R387, R391). -/
def schedule (s : State) : Option (Nat × State) :=
  let ws := moverWork s
  let ring := ringUpdate s.cq.ring (moverParts ws)
  let d := deficitUpdate id ring s.cq.deficit
  let cost (p : Nat) : Nat := match pickWork s p ws with | some w => w.cost | none => 0
  match drrPick cost (portWeight s) 65536 id (drrFuel ring 67108864 65536) ring d with
  | none => none
  | some (p, ring', d') =>
    match pickWork s p ws with
    | none => none
    | some w => some (w.key, { s with cq := { s.cq with
        ring := ring', deficit := d', lastQueue := tabSet 0 p (w.key + 1) s.cq.lastQueue } })

/-! ### Chunks and their entries (10 R286, R289) -/

def modJob (id k : Nat) (f : ChunkJob → ChunkJob) (s : State) : State :=
  modRun id (fun r => { r with chunks := r.chunks.map (fun j => if j.no = k then f j else j) }) s

def modXfer (id x : Nat) (f : Xfer → Xfer) (s : State) : State :=
  modRun id (fun r => { r with xfers := r.xfers.map (fun t => if t.id = x then f t else t) }) s

def dropXfer (id x : Nat) (s : State) : State :=
  modRun id (fun r => { r with xfers := r.xfers.filter (fun t => t.id != x) }) s

def xferOf (r : Run) (x : Nat) : Option Xfer := r.xfers.find? (fun t => t.id == x)

/-- Take an entry for a chunk: one already taken, or one looked up; the chunk's use begins with the
first (10 R278, R289). -/
def takeEntry (r : Run) (j : ChunkJob) (a : Nat) (need : BitVec 3) (s : State) : Option Place × State :=
  match j.ranges.find? (fun e => rangeHas e a && grants e.rights need) with
  | some e => (some (placeOf e a), s)
  | none =>
    match translate (.chunk r.id (some j.mover)) r.ctx a need s with
    | (none, s) => (none, s)
    | (some e, s) =>
      let (ep, s) := if j.use.isNone then (let b := beginUse r.ctx s; (some b.1, b.2)) else (j.use, s)
      (some (placeOf e a), modJob r.id j.no (fun j => { j with use := ep, ranges := e :: j.ranges }) s)

/-! ### The end of chunks and of runs (09 R266 to R268) -/

/-- The source bytes of a chunk, in order. -/
def chunkBytes (r : Run) (k : Nat) : List Byte :=
  (r.xfers.filter (fun x => x.chunk == k)).flatMap (fun x => x.got.flatMap (·.2))

/-- A DIGEST takes a complete chunk into its partial result (09 R267, 12 R351). -/
def absorb (s : State) (k : Nat) (r : Run) : Run :=
  if r.op = dDigest then
    let bs := chunkBytes r k
    if r.num 40 1 = 1 then
      { r with wm := r.wm + wmWords (bs.length / 8 + 1) (k * chunkSize s r / 8) bs }
    else { r with shaBytes := r.shaBytes ++ bs }
  else r

/-- Advance PROGRESS over the chunks that are complete without a gap (09 R266). -/
def advance (s : State) : Nat → Run → Run
  | 0, r => r
  | fuel + 1, r =>
    let k := r.progress / chunkSize s r
    if r.doneChunks.contains k then
      let r := absorb s k r
      advance s fuel { r with
        progress := r.progress + chunkLen s r k
        doneChunks := r.doneChunks.filter (· != k)
        xfers := r.xfers.filter (fun x => x.chunk != k) }
    else r

/-- The ciphertext and the tag of a SEALED_COPY, in order (09 R268). -/
def sealedBytes (s : State) (r : Run) : List Byte := (List.range (chunkCount s r)).flatMap (chunkBytes r)

/-- Check the tag of a SEALED_COPY whose bytes have all come (09 R268, 16 R441). -/
def sealedOk (s : State) (r : Run) : Bool :=
  let bs := sealedBytes s r
  gcmTag (r.key.getD []) (bytesAt r.desc 48 12) (bytesAt r.desc 40 8 ++ leBytes 8 r.length) (bs.take r.length) ==
    bs.drop r.length

/-- The end of a SEALED_COPY: PROGRESS becomes LENGTH with a good tag (09 R268). -/
def endSealed (r : Run) (s : State) : State :=
  if sealedOk s r then endRun r.id stOk (modRun r.id (fun r => { r with progress := r.length }) s)
  else endRun r.id stSealed { s with sec := { s.sec with tagFails := satInc s.sec.tagFails } }

/-- The end of a DIGEST: its result, measured first when MEASURE is set (09 R263, 12 R351, 16
R440). -/
def endDigest (r : Run) (s : State) : State :=
  if r.num 40 1 = 1 then
    endRun r.id stOk (modRun r.id (fun r => { r with
      resBytes := leBytes 8 (r.wm + BitVec.ofNat 64 r.length * 0x9E3779B97F4A7C15).toNat }) s)
  else
    let d := sha384 r.shaBytes
    let s := modRun r.id (fun r => { r with resBytes := d }) s
    if r.num 40 1 = 0x82 then
      measure measRange r.part r.ctx (leBytes 8 r.src ++ leBytes 8 r.length) d (some r.id)
        (modRun r.id (fun r => { r with phase := .waitRot }) (endChunks r.id s))
    else endRun r.id stOk s

/-- All chunks are complete. -/
def completeRun (id : Nat) (s : State) : State :=
  match runOf s id with
  | none => s
  | some r =>
    if r.op = dSealed then endSealed r s
    else if r.op = dDigest then endDigest r s
    else endRun id stOk s

/-- Every chunk of the run is complete. -/
def runDone (s : State) (r : Run) : Bool :=
  if r.op = dSealed then decide (r.doneChunks.length = chunkCount s r) else decide (r.progress = r.length)

/-- A chunk may have become complete: PROGRESS is advanced and written (09 R265, R266). -/
def checkChunk (id k : Nat) (s : State) : State :=
  match runOf s id with
  | none => s
  | some r =>
    match r.chunks.find? (fun j => j.no == k) with
    | none => settleRun id s
    | some j =>
      if j.issued = j.len ∧ (r.xfers.filter (fun x => x.chunk == k)).all (fun x => x.stage == .done) = true then
        let s := endUseOpt r.ctx j.use s
        let was := r.progress
        let s := modRun id (fun r =>
          let r := { r with chunks := r.chunks.filter (fun j => j.no != k), doneChunks := k :: r.doneChunks }
          if r.op = dSealed then r else advance s r.doneChunks.length r) s
        let now := match runOf s id with | some r => r.progress | none => was
        let s := if now ≠ was then putStatus id .progress s else s
        match runOf s id with
        | none => s
        | some r => if r.phase = .active ∧ r.failed = none ∧ runDone s r then completeRun id s else settleRun id s
      else settleRun id s

/-- A transfer is final at its destination. -/
def xferDone (id x : Nat) (s : State) : State :=
  match runOf s id with
  | none => s
  | some r =>
    match xferOf r x with
    | none => settleRun id s
    | some t => checkChunk id t.chunk (modXfer id x (fun t => { t with stage := .done }) s)

/-! ### Transfers (08 R209; 09 R264) -/

/-- Count a wait for a tracker (14 PAR_TRACKERS WAITS). -/
def noteTrkWait (r : Run) (s : State) : State :=
  if r.waitTrk then s
  else modPart r.part (fun p => { p with waits := satInc p.waits }) (modRun r.id (fun r => { r with waitTrk := true }) s)

/-- Send a request of a transfer; `sent` is applied when it has gone, and the run fails
UNREACHABLE when it cannot go (07 R189, R198). -/
def xferRequest (r : Run) (x : Nat) (rank : Nat) (mk : Nat → List Msg) (sent : State → State) (s : State) : State :=
  match rankTarget rank s with
  | (.error st, s) => failRun st r.id (sent s)
  | (.ok ep, s) =>
    match issueRequest (.xfer r.id x) r.ctx r.part ep (mk ep) s with
    | (.waits, s) => noteTrkWait r s
    | (.issued, s) => sent (modRun r.id (fun r => { r with waitTrk := false }) s)
    | (.noRoute, s) => failRun stUnreachable r.id (sent s)

/-- CLASS of a run's requests (09 R260 RELAXED). -/
def Run.cls (r : Run) : Nat := b2n r.relaxed

/-- The bytes of a FILL's pattern from an offset on (09 R263). -/
def patternAt (r : Run) (off n : Nat) : List Byte :=
  let p := bytesAt r.desc 40 16
  upTo n (fun i => p.getD ((off + i) % 16) 0)

/-- Write the bytes of a transfer to its destination (09 R264, 16 R441). -/
def writeXfer (id x : Nat) (s : State) : State :=
  match runOf s id with
  | none => s
  | some r =>
    match xferOf r x with
    | none => s
    | some t =>
      let got := t.got.flatMap (·.2)
      let data := if r.op = dSealed then gcmDecrypt (r.key.getD []) (bytesAt r.desc 48 12) t.off got
        else if r.op = dFill then patternAt r t.off t.len else got
      let writing (n : Nat) (s : State) : State := modXfer id x (fun t => { t with stage := .writing, pending := n }) s
      let wrote (pa : Nat) (s : State) : State :=
        onlyIf (r.op == dSealed) (modRun id (fun r => { r with wrote := (pa, t.len) :: r.wrote.erase (pa, t.len) })) s
      match t.dst with
      | none => xferDone id x s
      | some (.loc pa) =>
        memIssue .write (.xferWrite id x) pa t.len 0 data none (wrote pa (writing (memCount s pa t.len) s))
      | some (.far rank a) =>
        xferRequest r x rank (fun ep =>
          if r.op = dFill then [reqMsg s opFill r.cls r.part ep a t.len 0 (data.take 16 ++ List.replicate (16 - data.length) 0)]
          else writeRun s r.cls r.part ep a data) (writing 0) s

/-- All source bytes of a transfer have come.  They are not written while the run may issue nothing: its chunk then stays
incomplete, or waits for the reissue (08 R228; 09 R247, R267). -/
def xferRead (id x : Nat) (s : State) : State :=
  match runOf s id with
  | none => s
  | some r =>
    let ready := modXfer id x (fun t => { t with stage := .ready }) s
    if mayIssue s r then writeXfer id x ready else settleRun id ready

/-- Bytes of a chunk's next transfer: no 4 KiB boundary of either end is crossed (09 R264). -/
def xferSize (r : Run) (off left : Nat) : Nat :=
  let s := 4096 - (r.src + off) % 4096
  let d := 4096 - (r.dst + off) % 4096
  min left (if r.op = dFill then d else if r.op = dDigest then s else min s d)

/-- The bytes that a read for a transfer brings beyond it: the rest of the source's 4 KiB, when the destination's boundary
falls inside a span of the source that is read as one (02 R32). -/
def mateSize (s : State) (r : Run) (off n left : Nat) : Nat :=
  if (r.src + off + n) % memUnit s = 0 then 0 else min (left - n) (4096 - (r.src + off + n) % 4096)

/-- A transfer joins those of its run. -/
def addXfer (r : Run) (t : Xfer) (s : State) : State :=
  modJob r.id t.chunk (fun j => { j with issued := j.issued + t.len })
    (modRun r.id (fun r => { r with xfers := r.xfers ++ [t] }) { s with cq := { s.cq with nextId := s.cq.nextId + 1 } })

/-- The reads of a span that bring bytes [a, b) of it. -/
def readsOver (s : State) (pa n a b : Nat) : Nat :=
  ((memPieces (memUnit s) (n + 1) pa n 0).filter (fun x => decide (x.2.2 < b) && decide (a < x.2.2 + x.2.1))).length

/-- Start a transfer whose ends are translated; one from local memory may come with the one that goes on from it, of `m`
bytes (02 R32). -/
def startXfer (r : Run) (j : ChunkJob) (off n : Nat) (src dst : Option Place) (m : Nat) (next : Option Place) (s : State) : State :=
  let x := s.cq.nextId
  let t : Xfer := { id := x, chunk := j.no, off := off, len := n, stage := .ready, src := src, dst := dst }
  match src with
  | none => writeXfer r.id x (addXfer r t s)
  | some (.loc pa) =>
    let s := addXfer r { t with
      stage := .reading, pending := readsOver s pa (n + m) 0 n, mate := if m = 0 then none else some (x + 1) } s
    let s := onlyIf (decide (0 < m)) (addXfer r { t with
      id := x + 1, off := off + n, len := m, stage := .reading, pending := readsOver s pa (n + m) n (n + m), dst := next
      src := some (.loc (pa + n)) }) s
    memIssue .read (.xferRead r.id x) pa (n + m) 0 [] none s
  | some (.far rank a) =>
    xferRequest r x rank (fun ep => [reqMsg s opRead r.cls r.part ep a n 0 []]) (addXfer r { t with stage := .reading }) s

/-- The address a transfer at an offset writes to is translated: nothing to write, or a place, or no answer yet. -/
def takeDst (r : Run) (j : ChunkJob) (off : Nat) (s : State) : Option (Option Place) × State :=
  if r.op != dDigest && decide (off < r.length) then
    let q := takeEntry r j ((r.dst + off) % 2 ^ 64) rightWrite s
    (q.1.map some, q.2)
  else (some none, s)

/-- The chunk's job as it now stands. -/
def jobNow (s : State) (r : Run) (j : ChunkJob) : ChunkJob :=
  match runOf s r.id with | some r => (r.chunks.find? (fun k => k.no == j.no)).getD j | none => j

/-- A place is remote. -/
def isFar (p : Option Place) : Bool := match p with | some (.far _ _) => true | _ => false

/-- Issue the next transfer of a chunk (09 R264; 10 R286). -/
def issueNext (r : Run) (j : ChunkJob) (s : State) : State :=
  let (base, _) := chunkSpan s r j.no
  let off := base + j.issued
  let n := xferSize r off (j.len - j.issued)
  let (src, s) := if r.op = dFill then (some none, s)
    else (let q := takeEntry r j ((r.src + off) % 2 ^ 64) rightRead s; (q.1.map some, q.2))
  match src with
  | none => s
  | some src =>
    match takeDst r (jobNow s r j) off s with
    | (none, s) => s
    | (some dst, s) =>
      let m := if isFar src || dst.isNone then 0 else mateSize s r off n (j.len - j.issued)
      let (next, s) := if m = 0 then (some none, s) else takeDst r (jobNow s r j) (off + n) s
      match next with
      | none => s
      | some next =>
        if r.op = dSealed ∧ (isFar dst || isFar next) = true then failRun stMalformed r.id s
        else startXfer r j off n src dst m next s

/-- The words that a run is held in, and its key registers, are read (15 R410; 16 R443); the answer says whether one is lost. -/
def readAction (r : Run) (m : Nat) (s : State) : Bool × State :=
  let e : Evt := { cls := 0, sev := 2, part := r.part, unitKind := 4, unitIndex := m, ctx := r.ctx, queue := r.irqQueue }
  match readRam (.action r.id) e s with
  | (true, s) => (true, s)
  | (false, s) => if r.op = dSealed then readRam (.key r.id) e s else (false, s)

/-- Give a run's next chunk a mover (09 R259, R266): it takes the entries held since queue time into its range buffer, and
translates the chunk and the one after it (10 R286, R288). -/
def takeChunk (id m : Nat) (s : State) : State :=
  match runOf s id with
  | none => s
  | some r =>
    let j : ChunkJob := { mover := m, no := r.nextChunk, len := (chunkSpan s r r.nextChunk).2 }
    match readAction r m s with
    | (true, s) => failRun stDataError id s
    | (false, s) =>
      translateOn id m (forEach r.heldRanges (bufferPlace m)
        (modRun id (fun r => { r with chunks := r.chunks ++ [j], nextChunk := r.nextChunk + 1, heldRanges := [] }) s))

/-- The next chunk of a run goes to a mover: its own for a triggered operation, and otherwise a
free one when the scheduler's turn is this run's queue (09 R259, R270; 14 R391). -/
def nextChunkTo (r : Run) (s : State) : Option State :=
  match r.queue with
  | none =>
    match r.mover with
    | some m =>
      if r.chunks.isEmpty ∧ r.nextChunk < chunkCount s r ∧ (r.op ≠ dSealed ∨ r.key.isSome) then some (takeChunk r.id m s) else none
    | none => none
  | some q =>
    match freeMover s with
    | none => none
    | some m =>
      if !wantsChunk s r then none
      else match schedule s with
        | some (k, s) => if k = q.val then some (takeChunk r.id m s) else none
        | none => none

/-- One turn of a run's movers: a transfer that waits for a tracker goes first, then the next
transfer of a chunk under way, then the next chunk (09 R259, R264). -/
def moverTurn (id : Nat) (s : State) : State :=
  match runOf s id with
  | none => s
  | some r =>
    if !awake s || !mayIssue s r then s
    else match r.xfers.find? (fun t => t.stage == .ready) with
      | some t => writeXfer id t.id s
      | none =>
        match r.chunks.find? (fun j => decide (j.issued < j.len)) with
        | some j => issueNext r j s
        | none =>
          match nextChunkTo r s with
          | none => s
          | some s =>
            match runOf s id with
            | none => s
            | some r =>
              match r.chunks.find? (fun j => decide (j.issued < j.len)) with
              | some j => issueNext r j s
              | none => s

/-- A command that acts on a run of its opcode. -/
def onRun (op : Nat) (id : Nat) (f : Run → State → State) (s : State) : State :=
  match runOf s id with
  | none => s
  | some r => if r.op = op then f r s else s

/-- A SEALED_COPY asks for its key first (16 R441). -/
def sealedTurn (r : Run) (s : State) : State :=
  if r.phase = .active ∧ r.key = none ∧ r.failed = none then
    rotSend rotKeyRequest (bytesAt r.desc 40 8 ++ leBytes 1 r.part ++ [0] ++ leBytes 2 r.ctx) (.key r.id)
      (modRun r.id (fun r => { r with phase := .waitRot }) s)
  else moverTurn r.id s

/-! ### PREFETCH and ADVISE (10 R301, R302) -/

/-- The next step of a walk: complete, or one more request. -/
def walkStep (id : Nat) (s : State) : State :=
  match runOf s id with
  | none => s
  | some r =>
    let last := r.src + r.length
    let at_ := max r.cover r.src
    if r.phase ≠ .active ∨ r.walking ∨ r.stopping ∨ !takesTurns s r.part then s
    else if last ≤ at_ ∨ 2 ^ 64 ≤ at_ then endRun id stOk s
    else
      let s := modRun id (fun r => { r with walking := true }) s
      if r.op = dPrefetch then missForWalk id r.ctx at_ prefetchKind 0 0 s
      else missForWalk id r.ctx at_ adviseKind (BitVec.ofNat 4 (r.num 40 1)) ((last + 4095) / 4096 - at_ / 4096) s

/-- Entries of a span of a context. -/
def inSpan (c : CtxNo) (a n : Nat) (r : Range) : Bool :=
  r.ctx == c && decide (r.start * 4096 < a + n) && decide (a < (r.start + r.pages) * 4096)

/-- Entries a partition keeps under ADVISE (10 XLT_PAR KEPT). -/
def keptCount (s : State) (p : Nat) : Nat :=
  (s.xlt.cache.filter (fun r => r.keep && (match rangePart s r with | some q => q.val == p | none => false))).length

/-- The effect of an ADVICE code on the cache (10 R302). -/
def applyAdvice (r : Run) (e : Range) (s : State) : State :=
  let mark (f : Range → Range) : State :=
    { s with xlt := { s.xlt with cache := s.xlt.cache.map (fun x =>
        if x.ctx = e.ctx ∧ x.start = e.start ∧ inSpan r.ctx r.src r.length x = true then f x else x) } }
  if r.num 40 1 = 1 then
    (if keptCount s r.part < cacheQuotaOf s r.part / 4 then mark (fun x => { x with keep := true, first := false }) else s)
  else if r.num 40 1 = 2 then mark (fun x => { x with keep := false, first := true })
  else s

/-- A walk's request has been answered (10 R301, R302). -/
def walkAnswered (id : Nat) (e : XltEnd) (s : State) : State :=
  match runOf s id with
  | none => s
  | some r =>
    let s := modRun id (fun r => { r with walking := false }) s
    if r.phase ≠ .active then settleRun id s
    else match e with
      | .found g =>
        let s := if r.op = dAdvise then applyAdvice r g s else s
        walkStep id (modRun id (fun r => { r with cover := (g.start + g.pages) * 4096 }) s)
      | .fault _ => endRun id stFault (countXlt (fun x => { x with prefetchFails := satInc x.prefetchFails }) s)
      | .again => walkStep id s

/-! ### WAIT, FENCE, NOP (09 R258, R269) -/

/-- A WAIT whose condition holds completes; another holds its queue (09 R269). -/
def waitTurn (r : Run) (s : State) : State :=
  if r.phase ≠ .active then s
  else if r.num 24 8 ≤ (cntOf s (r.num 16 2)).toNat then endRun r.id stOk s
  else modRun r.id (fun r => { r with phase := .holding, since := s.nowUs }) s

/-- A FENCE completes when every earlier descriptor has its final status, and holds its queue until
then (09 R258, 08 R217). -/
def fenceTurn (r : Run) (s : State) : State :=
  if r.phase ≠ .active then s
  else if fenceReady s r then endRun r.id stOk s
  else modRun r.id (fun r => { r with phase := .holding }) s

/-! ### SIGNAL (09 R263, 08 R218) -/

/-- End the use of a run that is no chunk's. -/
def endRunUse (id : Nat) (s : State) : State :=
  match runOf s id with
  | none => s
  | some r => modRun id (fun r => { r with use := none }) (endUseOpt r.ctx r.use s)

/-- The message of a SIGNAL's atomic (08 R218, R219). -/
def signalMsg (s : State) (r : Run) (ep a : Nat) : Msg :=
  let attr : Byte := BitVec.ofNat 8 (r.num 17 1)
  reqMsg s opAtomic r.cls r.part ep a (atomicWidth attr) attr
    (atomicData attr (bytesAt r.desc 32 16) (bytesAt r.desc 48 16))

/-- A SIGNAL's single transfer, marked as under way. -/
def markXfer (r : Run) (s : State) : State :=
  modRun r.id (fun r => { r with xfers := [{ id := 0, off := 0, len := 0, stage := .reading }] }) s

/-- A SIGNAL adds to its counter, or performs an atomic at its address (09 R263). -/
def signalTurn (r : Run) (s : State) : State :=
  if !mayIssue s r || !r.xfers.isEmpty then s
  else if r.num 16 1 = 0 then
    endRun r.id stOk (addCounter (r.num 18 2) (BitVec.ofNat 64 (r.num 32 8)) s)
  else
    match translate (.chunk r.id none) r.ctx (r.num 24 8) rightAtomic s with
    | (none, s) => s
    | (some e, s) =>
      let begun (s : State) : State :=
        let (ep, s) := beginUse r.ctx s
        markXfer r (modRun r.id (fun r => { r with use := some ep }) s)
      match placeOf e (r.num 24 8) with
      | .loc pa =>
        giveUnit { msg := signalMsg s r (selfEp s) pa, pa := pa, localOwner := some (.xfer r.id 0) } (begun s)
      | .far rank a => xferRequest r 0 rank (fun ep => [signalMsg s r ep a]) begun s

/-! ### Starting a run (09 R258, R260, R261) -/

/-! ### TRIGGER and triggered operations (09 R270) -/

/-- TRIGGERs that read their descriptor: each has an entry reserved. -/
def arming (s : State) : List Run := s.cq.runs.filter (fun r => r.op == dTrigger && r.xfers.any (fun x => x.stage == .reading))

/-- A free entry for a context: 16,384 in all, 256 for one context. -/
def trigFree (s : State) (c : CtxNo) : Bool :=
  decide (s.cq.armed.length + (arming s).length < 16384) &&
    decide ((s.cq.armed.filter (fun a => a.ctx == c)).length + ((arming s).filter (fun r => r.ctx == c)).length < 256)

/-- The descriptor at DESC_VA has been read: the operation is armed, or completes MALFORMED when its
opcode is not allowed (09 R270). -/
def armTrigger (id : Nat) (desc : List Byte) (s : State) : State :=
  match runOf s id with
  | none => s
  | some r =>
    let n := s.cq.nextId
    let k := r.num 16 2
    let th : Word := BitVec.ofNat 64 (r.num 24 8)
    let a : Armed := { id := n, ctx := r.ctx, part := r.part, queue := r.irqQueue, counter := k, threshold := th
                       desc := padTo 64 desc, fired := decide (th.toNat ≤ (cntOf s k).toNat) }
    let s := { s with cq := { s.cq with nextId := n + 1 } }
    let s := if notTriggered (numAt desc 0 1) then beginRun (triggeredRun a n none) s
      else { s with cq := { s.cq with
        armed := s.cq.armed ++ [a], armedPeak := max s.cq.armedPeak (s.cq.armed.length + 1) } }
    endRun id stOk (endRunUse id s)

/-- A TRIGGER reads its descriptor once an entry is free, and keeps its queue waiting until then
(09 R270). -/
def triggerTurn (r : Run) (s : State) : State :=
  if !(mayIssue s r || (r.phase == .holding && takesTurns s r.part)) || !r.xfers.isEmpty then s
  else if !trigFree s r.ctx then
    (if r.phase = .holding then s
     else modRun r.id (fun r => { r with phase := .holding })
       { s with cq := { s.cq with trigWaits := satInc s.cq.trigWaits } })
  else
    let s := modRun r.id (fun r => { r with phase := .active }) s
    match translate (.chunk r.id none) r.ctx (r.num 32 8) rightRead s with
    | (none, s) => s
    | (some e, s) =>
      let begun (s : State) : State :=
        let (ep, s) := beginUse r.ctx s
        markXfer r (modRun r.id (fun r => { r with use := some ep }) s)
      match placeOf e (r.num 32 8) with
      | .loc pa => memIssue .read (.trigDesc r.id) pa 64 0 [] none (begun s)
      | .far rank a => xferRequest r 0 rank (fun ep => [reqMsg s opRead r.cls r.part ep a 64 0 []]) begun s

/-- A fired triggered operation takes a free mover when the scheduler's turn is its own (09 R270,
14 R391). -/
def runTriggered (id : Nat) (s : State) : State :=
  match s.cq.armed.find? (fun a => a.id == id), freeMover s with
  | some a, some m =>
    if !a.fired || !schedules s || !takesTurns s a.part then s
    else match schedule s with
      | some (k, s) =>
        if k = 4096 + id then
          beginRun (triggeredRun a id (some m)) { s with cq := { s.cq with armed := s.cq.armed.erase a } }
        else s
      | none => s
  | _, _ => s

/-- Disarm triggered operations: each is given ABORTED in its own status record (09 R247 steps 1
and 5). -/
def disarm (f : Armed → Bool) (s : State) : State := endArmed stAborted f s

/-! ### DESCRIPTOR_START (09 R258 to R261; 10 R286 to R288) -/

/-- A run that keeps later descriptors of its queue from starting (09 R258). -/
def holdsQueue (r : Run) : Bool :=
  (r.op == dWait || r.op == dFence || r.op == dTrigger) &&
    !(r.phase == .ending || r.phase == .doneWrite || r.phase == .aborting)

/-- A periodic queue runs only up to its release point (09 R272). -/
def released (q : Queue) : Bool :=
  if q.periodic then q.nextStart != q.releasePt else q.nextStart != q.tail

/-- The queue may start its next descriptor now (09 R258, R272). -/
def mayStart (s : State) (k : QueueNo) : Bool :=
  let q := queueOf s k
  q.state == qRunning && schedules s && released q &&
    (match queuePart s k with | some p => takesTurns s p | none => false) &&
    decide ((queueRuns s k).length < maxInflightOf q) && !(queueRuns s k).any holdsQueue

/-- A descriptor could not be read: it is not started, and the queue drains (09 R251). -/
def startBad (k : QueueNo) (s : State) : State :=
  let s := modQueue k (fun q => { q with failedIndex := q.nextStart }) s
  queueSettle k (setDraining k 6 s)

/-- A descriptor whose STATUS_VA cannot be written is not run, and the queue drains (09 R261). -/
def startLost (k : QueueNo) (s : State) : State := queueSettle k (setDraining k 3 s)

/-- The entry of a descriptor's STATUS_VA when it starts: held since queue time, or looked up (10 R286, R288). -/
def startEntry (k : QueueNo) (r : Run) (s : State) : Option Range × State :=
  match r.heldRanges.find? (answers s r.ctx r.statusVa rightWrite) with
  | some e => (some e, s)
  | none => translate (.startRec k r.index) r.ctx r.statusVa rightWrite s

/-- Start the descriptor at the front of those fetched (09 R258). -/
def startFetched (k : QueueNo) (p : PartNo) (f : Fetched) (s : State) : State :=
  let q := queueOf s k
  let id := s.cq.nextId
  let stale := match f.held with | some h => h.epoch != (ctxOf s q.ctx).epoch | none => false
  let held := match f.held with | some h => if stale then [] else h.ranges | none => []
  let r : Run := { id := id, queue := some k, irqQueue := k, ctx := q.ctx, part := p, index := f.index
                   desc := padTo 64 f.desc, heldRanges := held }
  let s := if stale then
      modQueue k (fun q => { q with fetched := q.fetched.map (fun g => if g.index = f.index then { g with held := none } else g) })
        (countXlt (fun x => { x with staleRetrans := satInc x.staleRetrans }) s)
    else s
  if r.op = dCollective ∧ 16 ≤ (s.cq.runs.filter (fun t => t.op == dCollective)).length then s
  else if r.statusVa % 64 ≠ 0 then startLost k s
  else match startEntry k r s with
    | (none, s) => s
    | (some e, s) =>
      let t := modQueue k (fun q => { q with nextStart := q.nextStart + 1, fetched := q.fetched.drop 1 }) s
      match statusTo e r .start (joinRun r t) with
      | (t, true) => fetchNow k t
      | (_, false) => startLost k s

/-- The queue scheduler starts the next fetched descriptor in ring order (09 R258). -/
def startNext (k : QueueNo) (s : State) : State :=
  let q := queueOf s k
  if !mayStart s k then s
  else match q.fetched, queuePart s k with
    | f :: _, some p =>
      if f.index ≠ q.nextStart then s
      else if f.bad then startBad k s
      else startFetched k p f s
    | _, _ => s

/-- A fault on the STATUS_VA of a descriptor about to start (10 R294): the queue is switched out. -/
def faultStart (k : QueueNo) (i : BitVec 32) (cause : Nat) (s : State) : State :=
  let q := queueOf s k
  match q.fetched.find? (fun f => f.index == i) with
  | none => s
  | some f =>
    let va := numAt f.desc 8 8
    switchOut k (recordFault { cause := cause, source := 2, access := rightWrite, ctx := q.ctx, queue := k
                               addr := va, index := i.toNat, statusVa := va } s)

/-! ### Answers to a run's requests (08 R227, R228, R239; 09 R266) -/

/-- A SIGNAL's atomic has its old value (08 R219). -/
def signalDone (id : Nat) (old : List Byte) (s : State) : State :=
  endRun id stOk (endRunUse id (modRun id (fun r => { r with resBytes := padTo 16 old, xfers := [] }) s))

/-- A transfer of a run has failed with a status: its chunk never becomes complete (09 R266). -/
def xferFail (id x : Nat) (st : Byte) (s : State) : State :=
  failRun st id (endRunUse id (modXfer id x (fun t => { t with stage := .failed }) s))

/-- Read data of a transfer, at an offset of it (02 R34; 08 R223). -/
def xferData (id x off : Nat) (bytes : List Byte) (s : State) : State :=
  modXfer id x (fun t => { t with got := tabSet [] off bytes t.got }) s

/-- What a read at an offset of a transfer brings to it and to the one it is read with: transfer, offset, bytes (02 R32). -/
def readShares (s : State) (id x off : Nat) (bytes : List Byte) : List (Nat × Nat × List Byte) :=
  match (runOf s id).bind (fun r => xferOf r x) with
  | none => []
  | some t =>
    (if off < t.len then [(x, off, bytes.take (t.len - off))] else []) ++
      (match t.mate with
       | some y => if t.len < off + bytes.length then [(y, off - t.len, bytes.drop (t.len - off))] else []
       | none => [])

/-- The operation of a run that a completed READ belongs to. -/
def readDone (id x : Nat) (bytes : List Byte) (s : State) : State :=
  match runOf s id with
  | none => s
  | some r =>
    if r.op = dTrigger then
      (if r.phase = .active ∧ r.failed = none then armTrigger id bytes s else settleRun id (endRunUse id (dropXfer id x s)))
    else xferRead id x (xferData id x 0 bytes s)

/-- A request of a run has its final status (08 R223, R239). -/
def runAnswered (id x : Nat) (op : Byte) (st : Byte) (data : List Byte) (s : State) : State :=
  if st ≠ stOk then xferFail id x st s
  else if op = opRead then readDone id x data s
  else if op = opAtomic then
    match runOf s id with
    | none => s
    | some r => if r.phase = .active ∧ r.failed = none then signalDone id data s else settleRun id (endRunUse id (dropXfer id x s))
  else xferDone id x s

/-- A memory access of a transfer has been answered. -/
def xferAccess (id x : Nat) (bad : Bool) (s : State) : State :=
  let s := modXfer id x (fun t => { t with pending := t.pending - 1, failed := t.failed || bad }) s
  match runOf s id with
  | none => s
  | some r =>
    match xferOf r x with
    | none => settleRun id s
    | some t =>
      if t.pending ≠ 0 then settleRun id s
      else if t.failed then xferFail id x stDataError s
      else if t.stage = .reading then xferRead id x s
      else xferDone id x s

/-- A read of local memory for a transfer has been answered (02 R32, R34, R38). -/
def xferReadBack (id x off : Nat) (bytes : List Byte) (bad : Bool) (s : State) : State :=
  forEach (readShares s id x off bytes) (fun y s =>
    xferAccess id y.1 bad (onlyIf (!bad) (xferData id y.1 y.2.1 y.2.2) s)) s

end Sys2Proof.Machine
end

