-- ==== Sys2Proof/Machine/Plans.lean ====
section
/-! DEFINITION. Plans of collectives: their layout, their checks, the division of the vector, the
schedule of a sub-ring and the layout of a Felt (11 R307 to R320, R332). -/

namespace Sys2Proof.Machine

/-- Codes of KIND (11 R308). -/
def kAllreduce : Nat := 1
def kReduceScatter : Nat := 2
def kAllgather : Nat := 3
def kCompare : Nat := 4

/-! ### Reading a plan (11 R308, R311) -/

/-- The axis record at an offset of a plan. -/
def axisAt (b : List Byte) (off : Nat) : Axis :=
  { size := numAt b off 1, pos := numAt b (off + 1) 1
    plus := BitVec.ofNat 32 (numAt b (off + 4) 4), minus := BitVec.ofNat 32 (numAt b (off + 8) 4) }

/-- The fields of a plan, with the operands of its COLLECTIVE. -/
def planDef (b : List Byte) (r : Run) : PlanDef :=
  { collId := BitVec.ofNat 16 (numAt b 6 2), kind := numAt b 8 1, dtype := numAt b 9 1
    axes := BitVec.ofNat 8 (numAt b 10 1), slotLog2 := numAt b 11 1, slots := numAt b 12 1, depth := numAt b 13 1
    cntBase := numAt b 14 2, chunkBytes := numAt b 16 8, feltBase := numAt b 24 4, feltSize := numAt b 28 4
    stepLimit := numAt b 32 4, axisX := axisAt b 48, axisY := axisAt b 64, axisZ := axisAt b 80
    src := r.num 24 8, dst := r.num 32 8, length := r.num 40 8, round := BitVec.ofNat 8 (r.num 48 1) }

/-- The record of an axis. -/
def axisRec (d : PlanDef) (a : Nat) : Axis := if a = 0 then d.axisX else if a = 1 then d.axisY else d.axisZ

/-- The active axes, in the order of the levels (11 R312). -/
def planAxes (d : PlanDef) : List Nat := (List.range 3).filter (fun a => d.axes.getLsbD a)

/-- L. -/
def levels (d : PlanDef) : Nat := (planAxes d).length

/-- The axis record of a level. -/
def levelAxis (d : PlanDef) (l : Nat) : Axis := axisRec d ((planAxes d).getD l 3)

/-- The level of an axis. -/
def levelOf (d : PlanDef) (a : Nat) : Option Nat := (planAxes d).findIdx? (· == a)

/-- The product of the sizes of levels below `l`. -/
def below (d : PlanDef) (l : Nat) : Nat := ((List.range l).map (fun j => (levelAxis d j).size)).foldl (· * ·) 1

/-- The member count M (11 R332). -/
def members (d : PlanDef) : Nat := below d (levels d)

/-- This member's index m (11 R332): axes that are not active have position 0. -/
def memberIndex (d : PlanDef) : Nat := ((List.range (levels d)).map (fun l => (levelAxis d l).pos * below d l)).sum

/-- The slot size S. -/
def slotBytes (d : PlanDef) : Nat := 2 ^ d.slotLog2

/-- The granule Q (11 R312). -/
def granuleBytes (d : PlanDef) : Nat := 256 * 4 ^ levels d * members d

/-! ### Division of the vector (11 R312, R313) -/

/-- The number of chunks N; a COMPARE has one operation a level and no chunks. -/
def planChunks (d : PlanDef) : Nat := (d.length + d.chunkBytes - 1) / max 1 d.chunkBytes

/-- Bytes of chunk c. -/
def chunkOf (d : PlanDef) (c : Nat) : Nat := min d.chunkBytes (d.length - c * d.chunkBytes)

/-- Bytes of one sub-ring's part at a level, for chunk c. -/
def partBytes (d : PlanDef) (l c : Nat) : Nat := chunkOf d c / (4 * below d l)

/-- Bytes of a segment at a level, for chunk c; for a COMPARE, of the vector gathered below it. -/
def segBytes (d : PlanDef) (l c : Nat) : Nat :=
  if d.kind = kCompare then 256 * below d l else chunkOf d c / (4 * below d (l + 1))

/-- Pieces of a segment. -/
def piecesOf (d : PlanDef) (l c : Nat) : Nat := (segBytes d l c + slotBytes d - 1) / slotBytes d

/-- Bytes of piece q of a segment. -/
def pieceBytes (d : PlanDef) (l c q : Nat) : Nat := min (slotBytes d) (segBytes d l c - q * slotBytes d)

/-- Where the part of sub-ring r at a level starts within its chunk. -/
def partStart (d : PlanDef) (l r c : Nat) : Nat :=
  r * (chunkOf d c / 4) + ((List.range l).map (fun j => (levelAxis d j).pos * segBytes d j c)).sum

/-- Where piece q of segment k of sub-ring r at a level starts within the vector. -/
def vecOff (d : PlanDef) (l r c k q : Nat) : Nat :=
  c * d.chunkBytes + partStart d l r c + k * segBytes d l c + q * slotBytes d

/-- The bytes of a chunk that a sub-ring's chain makes final in DST. -/
def ownedPart (d : PlanDef) (c : Nat) : Nat :=
  if d.kind = kReduceScatter then segBytes d (levels d - 1) c else chunkOf d c / 4

/-! ### The schedule of a sub-ring (11 R314, R318) -/

/-- Sub-rings of a level: four, or sub-ring 0 alone for a COMPARE (11 R332). -/
def ringsOf (d : PlanDef) : List Nat := if d.kind = kCompare then [0] else [0, 1, 2, 3]

/-- Every sub-ring of a plan, as (level, r). -/
def allRings (d : PlanDef) : List (Nat × Nat) :=
  (List.range (levels d)).flatMap (fun l => (ringsOf d).map (fun r => (l, r)))

/-- A position moved by a number of steps downstream (positive) on a ring of n. -/
def stepPos (n p : Nat) (minus back : Bool) (k : Nat) : Nat :=
  if minus == back then (p + k % n) % n else (p + (n - k % n)) % n

/-- p − dir × k, modulo n. -/
def upstreamPos (d : PlanDef) (l r k : Nat) : Nat :=
  let a := levelAxis d l
  stepPos a.size a.pos (decide (2 ≤ r)) true k

/-- Operations of a sub-ring in the round. -/
def opCount (d : PlanDef) : Nat :=
  if d.kind = kCompare then 1 else if d.kind = kAllreduce then 2 * planChunks d else planChunks d

/-- Operation j of a sub-ring: allgather or not, and its chunk (11 R318). -/
def opAt (d : PlanDef) (j : Nat) : Bool × Nat :=
  if d.kind = kCompare then (true, 0)
  else if d.kind = kReduceScatter then (false, j)
  else if d.kind = kAllgather then (true, j)
  else
    let n := planChunks d
    let h := min d.depth n
    if j < h then (false, j)
    else
      let i := j - h
      if i < 2 * (n - h) then (if i % 2 = 0 then (false, h + i / 2) else (true, i / 2))
      else (true, n - h + (i - 2 * (n - h)))

/-- Pieces sent, and pieces consumed, in an operation for a chunk. -/
def opPieces (d : PlanDef) (l c : Nat) : Nat := ((levelAxis d l).size - 1) * piecesOf d l c

/-- The operation, and the place in it, of a piece a number of places ahead of operation j. -/
def locate (d : PlanDef) (l : Nat) : Nat → Nat → Nat → Option (Nat × Nat)
  | 0, _, _ => none
  | fuel + 1, j, k =>
    if opCount d ≤ j then none
    else
      let n := opPieces d l (opAt d j).2
      if k < n then some (j, k) else locate d l fuel (j + 1) (k - n)

/-- What piece t of those consumed in an operation is: its segment, its number in the segment, and
whether it is of the last segment that arrives (11 R314). -/
def takeAt (d : PlanDef) (l r : Nat) (ag : Bool) (c t : Nat) : Nat × Nat × Bool :=
  let n := max 1 (piecesOf d l c)
  let s := t / n + 1
  (upstreamPos d l r (if ag then s else s + 1), t % n, decide (s + 1 = (levelAxis d l).size))

/-! ### The Felt (11 R319, R320, R332) -/

/-- The sub-ring stages from SRC, through a LOCAL ring. -/
def hasLocal (d : PlanDef) (l : Nat) : Bool :=
  if d.kind = kCompare then false
  else if d.kind = kAllgather then l + 1 == levels d
  else l == 0

/-- Slot rings before those of a sub-ring. -/
def ringUnit (d : PlanDef) (l r : Nat) : Nat :=
  if d.kind = kCompare then 2 * l
  else if d.kind = kAllgather then 8 * l + (if l + 1 = levels d then 3 else 2) * r
  else if l = 0 then 3 * r else 12 + 8 * (l - 1) + 2 * r

/-- Slot rings of the plan. -/
def ringUnits (d : PlanDef) : Nat := if d.kind = kCompare then 2 * levels d else 8 * (levels d - 1) + 12

/-- Bytes of a slot ring. -/
def ringBytes (d : PlanDef) : Nat := d.slots * slotBytes d

/-- A share of a level buffer: one chunk's input of a level. -/
def shareBytes (d : PlanDef) (l : Nat) : Nat := d.chunkBytes / below d l

/-- Bytes of the level buffers of levels 1 to l − 1. -/
def bufBytes (d : PlanDef) (l : Nat) : Nat :=
  ((List.range l).map (fun m => if m = 0 then 0 else 2 * d.depth * shareBytes d m)).sum

/-- The need of a plan (11 R320). -/
def feltNeed (d : PlanDef) : Nat :=
  if d.kind = kCompare then members d * 256 + ringUnits d * ringBytes d
  else ringUnits d * ringBytes d + bufBytes d (levels d)

/-- Vat address of a plan's Felt. -/
def feltStart (s : State) (p : Nat) (d : PlanDef) : Nat := ((partRec s p).vatBase + d.feltBase) * 0x10000

/-- Offset in the Felt of slot i of ring `which` of a sub-ring: 0 IN, 1 OUT, 2 LOCAL. -/
def slotOff (d : PlanDef) (l r which i : Nat) : Nat :=
  (if d.kind = kCompare then members d * 256 else 0) +
    (ringUnit d l r + which) * ringBytes d + i % max 1 d.slots * slotBytes d

/-- Offset in the Felt of a place in a level buffer: the input buffer, or the gathered one.  Part r
of a share starts at r quarters of it (log entry 24). -/
def bufOff (d : PlanDef) (l : Nat) (gathered : Bool) (r c off : Nat) : Nat :=
  ringUnits d * ringBytes d + bufBytes d l + (if gathered then d.depth * shareBytes d l else 0) +
    c % max 1 d.depth * shareBytes d l + r * partBytes d l c + off

/-- Offset in the Felt of segment k of a COMPARE's vector, at a level (11 R332). -/
def compareOff (d : PlanDef) (l k : Nat) : Nat :=
  256 * (((List.range (levels d)).map (fun j => if l < j then (levelAxis d j).pos * below d j else 0)).sum + k * below d l)

/-! ### The checks of R310 -/

/-- Bytes [a, b) of a plan are zero. -/
def planZero (b : List Byte) (x y : Nat) : Bool := (bytesAt b x (y - x)).all (· == 0)

/-- An axis record agrees with AXES, and its fields are in range. -/
def axisOk (b : List Byte) (d : PlanDef) (a : Nat) : Bool :=
  let off := 48 + 16 * a
  if d.axes.getLsbD a then
    let x := axisRec d a
    decide (2 ≤ x.size) && decide (x.size ≤ 64) && decide (x.pos < x.size) && planZero b (off + 2) (off + 4) &&
      decide (x.plus.toNat < 2 ^ 17) && decide (x.minus.toNat < 2 ^ 17) && planZero b (off + 12) (off + 16)
  else planZero b off (off + 16)

/-- form (11 R308, R309, R311, R312, R332). -/
def planFormOk (b : List Byte) (d : PlanDef) : Bool :=
  numAt b 0 4 == 0x4E414C50 && numAt b 4 2 == 1 && d.collId != 0 && decide (1 ≤ d.kind) && decide (d.kind ≤ 4) &&
    d.axes != 0 && decide (d.axes.toNat < 8) && decide (14 ≤ d.slotLog2) && decide (d.slotLog2 ≤ 18) &&
    decide (2 ≤ d.slots) && decide (d.slots ≤ 32) && d.cntBase % 32 == 0 &&
    planZero b 36 48 && planZero b 96 128 && (List.range 3).all (axisOk b d) &&
    (if d.kind = kCompare then
      d.dtype == 0 && d.chunkBytes == 0 && d.depth == 0 && decide (members d ≤ 256) && d.dst == 0
     else
      decide (1 ≤ d.dtype) && decide (d.dtype ≤ 12) && decide (1 ≤ d.depth) && decide (d.depth ≤ 4) &&
        decide (1 ≤ d.chunkBytes) && decide (d.chunkBytes ≤ 2 ^ 26) && d.chunkBytes % granuleBytes d == 0)

/-- identity. -/
def planNew (s : State) (k p : Nat) (d : PlanDef) : Bool :=
  (List.range 16).all (fun j => j == k ||
    !((planOf s j).state != 0 && (planOf s j).part.val == p && (planOf s j).defn.collId == d.collId))

/-- ownership. -/
def planOwned (s : State) (p : Nat) (d : PlanDef) : Bool :=
  cntIn s p d.cntBase && cntIn s p (d.cntBase + 31) && decide (d.feltBase + d.feltSize ≤ (partRec s p).vatSize)

/-- ranks. -/
def planRanks (s : State) (d : PlanDef) : Bool :=
  (planAxes d).all (fun a =>
    (rankEp s (axisRec d a).plus.toNat).isSome && (rankEp s (axisRec d a).minus.toNat).isSome)

/-- size. -/
def planSizeOk (d : PlanDef) : Bool :=
  decide (feltNeed d ≤ d.feltSize * 0x10000) &&
    (if d.kind = kCompare then d.length % 8192 == 0 && decide (8192 ≤ d.length)
     else d.length % granuleBytes d == 0 && decide (granuleBytes d ≤ d.length))

/-- The status that the first failing check of R310 gives a COLLECTIVE. -/
def planVerdict (s : State) (k p : Nat) (b : List Byte) (d : PlanDef) : Option Byte :=
  if !planFormOk b d || !planNew s k p d then some stMalformed
  else if !planOwned s p d then some stRights
  else if 6 ≤ d.dtype ∧ d.dtype ≤ 10 ∧ !licensed s 2 then some stUnlicensed
  else if !planRanks s d then some stUnreachable
  else if !planSizeOk d then some stMalformed
  else none

end Sys2Proof.Machine
end

