-- ==== Sys2Proof/Machine/Headbox.lean ====
section
/-! DEFINITION. The Headbox: opening a plan, staging and storing, pieces, credits, release, and the
end of a plan (11 R307, R314, R317, R321 to R330, R334; 16 R439). -/

namespace Sys2Proof.Machine

def countHbx (f : Hbx → Hbx) (s : State) : State := { s with hbx := f s.hbx }

/-- Key of a sub-ring in the tables of its plan. -/
def ringKey (l r : Nat) : Nat := 4 * l + r

def ringAt (p : Plan) (l r : Nat) : SubRing := tabGet {} p.rings (ringKey l r)

def modRing (k l r : Nat) (f : SubRing → SubRing) (s : State) : State :=
  modPlan k (fun p => { p with rings := tabMod {} (ringKey l r) f p.rings }) s

/-- Sub-rings 2 and 3 run in the − direction; 1 and 3 on lane 1, stream class 3 (11, "Segments, pieces
and ownership"). -/
def ringMinus (r : Nat) : Bool := decide (2 ≤ r)
def ringClass (r : Nat) : Nat := 2 + r % 2

/-- A counter of the plan, less its base (11 R317). -/
def planCount (s : State) (p : Plan) (i : Nat) : Nat :=
  (cntOf s (p.defn.cntBase + i) - tabGet 0 p.bases i).toNat

/-- One of the plan's counters advances (11 R317). -/
def planIncr (k i : Nat) (s : State) : State := addCounter ((planOf s k).defn.cntBase + i) 1 s

/-- Restart the time of a sub-ring's present wait (11 R327). -/
def touchRing (k l r : Nat) (s : State) : State := modRing k l r (fun x => { x with waitSince := s.nowUs }) s

/-- A place in a plan's Felt, as a Vat address. -/
def feltAddr (s : State) (p : Plan) (off : Nat) : Nat := feltStart s p.part p.defn + off

/-- Masters 0 to 3 touch only the own region of the plan's partition (13 R364). -/
def feltAllowed (s : State) (m : Nat) (p : Plan) (a n : Nat) (wr : Bool) : Bool := vatAllowed s m (some p.part.val) a n wr

/-- Read the Felt; a blocked read returns zero (13 R365). -/
def feltRead (s : State) (p : Plan) (off n : Nat) : List Byte :=
  let a := feltAddr s p off
  if feltAllowed s 1 p a n false then Memory.readBytes s.vat.mem a n else List.replicate n 0

/-- The plan ends with DATA_ERROR. -/
def feltFail (p : Plan) (s : State) : State :=
  modRun p.run (fun r => { r with failed := some (r.failed.getD stDataError) }) s

/-- Master m writes the Felt; a blocked write, and a word lost to an injected error, end the plan with DATA_ERROR (12 R355;
13 R365, R370; 15 R430). -/
def feltWrite (m k off : Nat) (bs : List Byte) (s : State) : State :=
  let p := planOf s k
  let a := feltAddr s p off
  if feltAllowed s m p a bs.length true then
    let (lost, s) := vatInject a (vatWrite a bs s)
    if lost then feltFail p s else s
  else feltFail p (vatViolation m (some p.part.val) a s)

/-! ### The end of a plan (11 R328, R329, R334) -/

/-- The neighbours of a plan on its active axes. -/
def neighbours (p : Plan) : List (BitVec 17) :=
  ((allRings p.defn).flatMap (fun x => [(ringAt p x.1 x.2).up, (ringAt p x.1 x.2).down])).eraseDups

/-- COLL_ABORT to a neighbour, on lane 0 (11 R324, R328). -/
def abortMsg (s : State) (p : Plan) (st : Byte) (e : BitVec 17) : Msg :=
  { opcode := opCollAbort, flags := 2, aux := st, source := BitVec.ofNat 32 (selfEp s), target := BitVec.ofNat 32 e.toNat
    tag := BitVec.ofNat 32 (p.defn.collId.toNat + p.defn.round.toNat * 2 ^ 16) }

/-- RESULT (11 R334). -/
def planResult (p : Plan) : List Byte :=
  leBytes 8 p.pieces ++ leBytes 4 p.resends ++ leBytes 4 p.recomputes ++ leBytes 8 (tabGet 0 p.bases 24).toNat ++ [p.abortCause]

/-- Pieces of a plan leave the Beaters (12 R355). -/
def dropBeats (k : Nat) (s : State) : State :=
  { s with btr := { s.btr with
    queue := s.btr.queue.filter (fun j => j.plan != k)
    units := s.btr.units.map (fun u => match u.2.job with
      | some j => if j.plan = k then (u.1, { u.2 with job := none }) else u
      | none => u) } }

/-- The uses begun for a plan end (10 R289, R293). -/
def endPlanUses (p : Plan) (s : State) : State :=
  forEach p.uses (fun u s => forEach (List.range u.2) (fun _ => endUse p.ctx (BitVec.ofNat 16 u.1)) s) s

/-- A plan slot is free, and the uses begun for its plan end. -/
def freePlan (k : Nat) (s : State) : State := modPlan k (fun _ => {}) (endPlanUses (planOf s k) s)

/-- The contents of the Felt of a plan that did not end with OK: any (11 R329, 00 R13). -/
def spoilFelt (k : Nat) (s : State) : State :=
  let p := planOf s k
  let (n, s) := takeFree s
  vatWrite (feltAddr s p 0) (upTo (p.defn.feltSize * 0x10000) (fun i => Config.undefinedByte n i)) s

/-- A plan's run ends with a status: at once with OK, and otherwise when what it has issued has
resolved (09 R247). -/
def endPlanRun (k : Nat) (id : Nat) (st : Byte) (res : List Byte) (s : State) : State :=
  match runOf s id with
  | none => freePlan k s
  | some _ =>
    if st = stOk then freePlan k (endRun id stOk (modRun id (fun r => { r with plan := none, resBytes := res }) s))
    else
      settleRun id (dropUnsent id (modRun id (fun r => { r with
        plan := none, resBytes := res, phase := .aborting, failed := some (r.failed.getD st), statusWait := none }) s))

/-- End a plan with a status (11 R328): COLL_ABORT to its neighbours first, unless the status is OK
or nothing has been sent; one that ends by a COLL_ABORT passes its cause on.  A partition in RESETTING takes no turn (14 R395), so its COLL_ABORTs go
with the messages of no partition (log entry 27). -/
def endPlanWith (k : Nat) (st : Byte) (res : List Byte) (s : State) : State :=
  let p := planOf s k
  if p.state ≠ 1 ∧ p.state ≠ 2 then s
  else
    let cause := if p.abortCause = 0 then st else p.abortCause
    let s := if st ≠ stOk ∧ p.state = 2 then
        spoilFelt k (forEach (neighbours p) (fun e s =>
          sendOrDrop (if takesTurns s p.part then .own p.part else .steward) (abortMsg s p cause e) s)
          (countHbx (fun h => { h with abortsSent := satInc h.abortsSent }) s))
      else s
    endPlanRun k p.run st res (modPlan k (fun p => { p with state := 3, stores := [] }) (dropBeats k s))

def endPlan (k : Nat) (st : Byte) (s : State) : State := endPlanWith k st (planResult (planOf s k)) s

/-- A COLLECTIVE ended by R310. -/
def refusePlan (k : Nat) (st : Byte) (s : State) : State :=
  endPlanWith k st [] (countHbx (fun h => { h with planRefused := satInc h.planRefused }) s)

/-! ### Staging and storing (11 R330) -/

/-- A use begins for a plan. -/
def planUse (k : Nat) (c : CtxNo) (s : State) : State :=
  let (e, s) := beginUse c s
  modPlan k (fun p => { p with uses := tabMod 0 e.toNat (· + 1) p.uses }) s

/-- The spans of a piece: (address, bytes, offset), none across a 4 KiB boundary. -/
def pageSpans (va n : Nat) : List (Nat × Nat × Nat) := memPieces 4096 (n + 1) (va % 2 ^ 64) n 0

/-- A span of a job has been issued. -/
def hasSpan (r : Run) (job off : Nat) : Bool := r.xfers.any (fun x => x.chunk == job && x.off == off)

/-- Issue one span of a read, or of a write of these bytes; one whose page has faulted waits (11
R330). -/
def issueSpan (k : Nat) (r : Run) (job : Nat) (sp : Nat × Nat × Nat) (data : Option (List Byte)) (s : State) : State :=
  let need := if data.isSome then rightWrite else rightRead
  if (planOf s k).faulted.contains (sp.1 / 4096) then s
  else match translate (.headbox r.id) r.ctx sp.1 need s with
    | (none, s) => s
    | (some e, s) =>
      let x := s.cq.nextId
      let t : Xfer := { id := x, chunk := job, off := sp.2.2, len := sp.2.1, stage := .reading }
      let add (t : Xfer) (s : State) : State :=
        planUse k r.ctx (modRun r.id (fun r => { r with xfers := r.xfers ++ [t] })
          { s with cq := { s.cq with nextId := x + 1 } })
      match data, placeOf e sp.1 with
      | none, .loc pa =>
        memIssue .read (.xferRead r.id x) pa sp.2.1 0 [] none
          (add { t with src := some (.loc pa), pending := memCount s pa sp.2.1 } s)
      | none, .far rank a =>
        xferRequest r x rank (fun ep => [reqMsg s opRead r.cls r.part ep a sp.2.1 0 []])
          (add { t with src := some (.far rank a) }) s
      | some bs, .loc pa =>
        memIssue .write (.xferWrite r.id x) pa sp.2.1 0 (bytesAt bs sp.2.2 sp.2.1) none
          (add { t with stage := .writing, dst := some (.loc pa), pending := memCount s pa sp.2.1 } s)
      | some bs, .far rank a =>
        xferRequest r x rank (fun ep => writeRun s r.cls r.part ep a (bytesAt bs sp.2.2 sp.2.1))
          (add { t with stage := .writing, dst := some (.far rank a) }) s

/-- Issue what can be issued of a job. -/
def stepJob (k id job va n : Nat) (data : Option (List Byte)) (s : State) : State :=
  forEach (pageSpans va n) (fun sp s => match runOf s id with
    | none => s
    | some r => if !mayIssue s r || hasSpan r job sp.2.2 then s else issueSpan k r job sp data s) s

/-- Every span of a job has been issued; every one is final. -/
def jobIssued (s : State) (id job va n : Nat) : Bool :=
  match runOf s id with
  | none => false
  | some r => (pageSpans va n).all (fun sp => hasSpan r job sp.2.2)
def jobDone (s : State) (id job va n : Nat) : Bool :=
  match runOf s id with
  | none => false
  | some r => (pageSpans va n).all (fun sp => r.xfers.any (fun x => x.chunk == job && x.off == sp.2.2 && x.stage == .done))

/-- The bytes that a job has read, in order. -/
def jobBytes (s : State) (id job : Nat) : List Byte :=
  match runOf s id with
  | none => []
  | some r =>
    ((r.xfers.filter (fun x => x.chunk == job)).foldl
      (fun t x => tabSet [] x.off (x.got.flatMap (·.2)) t) ([] : Tab (List Byte))).flatMap (·.2)

def dropJob (id job : Nat) (s : State) : State :=
  modRun id (fun r => { r with xfers := r.xfers.filter (fun x => x.chunk != job) }) s

/-- A translation fault of a plan (10 R294, 11 R330): its page waits for Q_RESUME; where the queue
is not to run again, the plan ends with FAULT. -/
def headboxFault (id : Nat) (addr : Nat) (acc : BitVec 3) (cause : Nat) (s : State) : State :=
  match runOf s id with
  | none => s
  | some r =>
    match r.plan, r.queue with
    | some k, some q =>
      let s := recordFault { cause := cause, source := 5, access := acc, ctx := r.ctx, queue := q, addr := addr
                             index := r.index.toNat, progress := r.progress, statusVa := r.statusVa } s
      if (queueOf s q).state = qRunning ∨ (queueOf s q).state = qSwitchedOut then
        switchOut q (modRun id (fun r => { r with faulted := true })
          (modPlan k (fun p => { p with faulted := (addr / 4096) :: p.faulted }) s))
      else endPlan k stFault s
    | _, _ => s

/-! ### Opening a plan (11 R307, R310, R322; 16 R439) -/

/-- A free plan slot. -/
def freeSlot (s : State) : Option Nat := firstFree (fun k => (planOf s k).state != 0) 16 0

/-- A COLLECTIVE takes a plan slot (11 R307). -/
def collTurn (r : Run) (s : State) : State :=
  if !mayIssue s r || r.plan.isSome then s
  else match freeSlot s with
    | none => s
    | some k =>
      modRun r.id (fun r => { r with plan := some k })
        (modPlan k (fun _ => { state := 1, part := r.part, ctx := r.ctx, queue := r.irqQueue, run := r.id }) s)

/-- COLL_CREDIT to the upstream member: the sub-ring's latest (11 R321, R322, R324). -/
def creditMsg (s : State) (p : Plan) (l r : Nat) : Msg :=
  let x := ringAt p l r
  let lim := x.given % 8192
  { opcode := opCollCredit, flags := BitVec.ofNat 8 (ringClass r)
    aux := BitVec.ofNat 8 (b2n (x.given == p.defn.slots) + 2 * b2n (ringMinus r) + 4 * (lim % 32))
    source := BitVec.ofNat 32 (selfEp s), target := BitVec.ofNat 32 x.up.toNat
    tag := BitVec.ofNat 32 (p.defn.collId.toNat + p.defn.round.toNat * 2 ^ 16 + lim / 32 * 2 ^ 24) }

def sendCredit (k l r : Nat) (s : State) : State :=
  let p := planOf s k
  sendOrDrop (.own p.part) (creditMsg s p l r) s

/-- Triggered operations that the Headbox has armed (11 R318, HBX_STATUS ARMED). -/
def armedNow (s : State) : Nat :=
  ((List.range 16).map (fun k =>
    let p := planOf s k
    if p.state = 2 then
      ((allRings p.defn).map (fun x => min (p.defn.slots + 2) (opCount p.defn - (ringAt p x.1 x.2).op))).sum
    else 0)).sum

/-- A sub-ring of a plan that has been read: its members are resolved (11 R307, 07 R189). -/
def newRing (s : State) (d : PlanDef) (l r : Nat) : SubRing :=
  let a := levelAxis d l
  let plus := BitVec.ofNat 17 ((rankEp s a.plus.toNat).getD 0)
  let minus := BitVec.ofNat 17 ((rankEp s a.minus.toNat).getD 0)
  { up := if ringMinus r then plus else minus, down := if ringMinus r then minus else plus
    given := d.slots }

/-- The sub-rings of a plan that has been read. -/
def newRings (s : State) (d : PlanDef) : Tab SubRing :=
  (allRings d).foldl (fun t x => tabSet {} (ringKey x.1 x.2) (newRing s d x.1 x.2) t) []

/-- The round starts: bases are recorded, the IN rings are empty, and every upstream member is given
its OPEN credit (11 R317, R322). -/
def startPlan (k : Nat) (s : State) : State :=
  let d := (planOf s k).defn
  let bases : Tab Word := (List.range 32).foldl (fun t i => tabSet 0 i (cntOf s (d.cntBase + i)) t) []
  let now := s.nowUs
  let s := modPlan k (fun p => { p with
    state := 2, bases := bases, rings := p.rings.map (fun x => (x.1, { x.2 with waitSince := now })) }) s
  let s := modRun (planOf s k).run (fun r => { r with phase := .active }) s
  let s := countHbx (fun h => { h with armedPeak := max h.armedPeak (armedNow s) }) s
  forEach (allRings d) (fun x => sendCredit k x.1 x.2) s

/-- The rank entries that a plan names are read: the answer says whether one is lost (07 R189; 15 R410). -/
def readRanks (r : Run) : List Nat → State → Bool × State
  | [], s => (false, s)
  | k :: ks, s =>
    match readRam (.rank k) { cls := 0, sev := 2, part := r.part, unitKind := 3, ctx := r.ctx } s with
    | (true, s) => (true, s)
    | (false, s) => readRanks r ks s

/-- The ranks of a plan's neighbours. -/
def rankNames (d : PlanDef) : List Nat :=
  (planAxes d).flatMap (fun a => [(axisRec d a).plus.toNat, (axisRec d a).minus.toNat])

/-- A plan has been read: it is checked, measured, and started (11 R307, R310; 16 R439). -/
def planLoaded (k : Nat) (r : Run) (b : List Byte) (s : State) : State :=
  let d := planDef b r
  let verdict := planVerdict s k r.part b d
  let (lost, s) := if verdict.isSome then (false, s) else readRanks r (rankNames d) s
  match (if lost then some stDataError else verdict) with
  | some st => refusePlan k st s
  | none =>
    let rings := newRings s d
    let s := modPlan k (fun p => { p with defn := d, rings := rings }) s
    let g := sha384 b
    if s.sec.planTable.contains (g, r.part.val) then startPlan k s
    else
      measure measPlan r.part r.ctx (leBytes 2 d.collId.toNat ++ leBytes 2 r.irqQueue) g (some r.id)
        (modRun r.id (fun r => { r with phase := .waitRot }) s)

/-- The measurement of a plan has its answer: its digest joins the table while it has room (16
R439). -/
def planMeasured (id : Nat) (ok : Bool) (digest : List Byte) (st : Byte) (s : State) : State :=
  match runOf s id with
  | none => s
  | some r =>
    match r.plan with
    | none => s
    | some k =>
      let known := s.sec.planTable.contains (digest, r.part.val)
      let s := if ok && !known && decide (s.sec.planTable.length < 1024) then
          { s with sec := { s.sec with planTable := s.sec.planTable ++ [(digest, r.part.val)] } }
        else s
      if r.phase ≠ .waitRot then s
      else if ok then startPlan k s
      else endPlan k st s

/-- PLAN_VA leads to a remote range (11 R307). -/
def planRemote (s : State) (r : Run) : Bool :=
  (pageSpans r.src 128).any (fun sp => match (lookupRange (.headbox r.id) r.ctx sp.1 rightRead s).1 with
    | some e => (match placeOf e sp.1 with | .far _ _ => true | .loc _ => false)
    | none => false)

/-- Read the plan at PLAN_VA (11 R307). -/
def readPlan (k : Nat) (r : Run) (s : State) : State :=
  if r.phase ≠ .active then s
  else if planRemote s r then refusePlan k stMalformed s
  else
    let s := stepJob k r.id 0 r.src 128 none s
    if jobDone s r.id 0 r.src 128 then
      let b := jobBytes s r.id 0
      planLoaded k r b (dropJob r.id 0 s)
    else s

/-! ### Staging from SRC (11 R314, R319; 12 R352) -/

/-- The operation stages its own pieces through the LOCAL ring. -/
def staged (d : PlanDef) (l : Nat) (ag : Bool) : Bool := hasLocal d l && (ag == (d.kind == kAllgather))

/-- Pieces staged for one chunk. -/
def localItems (d : PlanDef) (l c : Nat) : Nat :=
  if d.kind = kAllgather then piecesOf d l c else (levelAxis d l).size * piecesOf d l c

/-- Segment and number of the i-th piece staged for a chunk, in the order of use. -/
def localItem (d : PlanDef) (l r c i : Nat) : Nat × Nat :=
  let n := max 1 (piecesOf d l c)
  (if d.kind = kAllgather then (levelAxis d l).pos else upstreamPos d l r (i / n + 1), i % n)

/-- The number, in the order of use, of the j-th piece staged for a chunk: what is sent first and the operands of the first
additions in turn, so that neither waits for a slot of the other (11 R318, R319; log entry 25). -/
def stageOrder (d : PlanDef) (l c j : Nat) : Nat :=
  let n := piecesOf d l c
  if d.kind = kAllgather ∨ 2 * n ≤ j then j else if j % 2 = 0 then j / 2 else n + j / 2

/-- Take the next LOCAL slots, K pieces at most (11 R319; log entry 25). -/
def planSlots (k l r : Nat) : Nat → State → State
  | 0, s => s
  | fuel + 1, s =>
    let d := (planOf s k).defn
    let x := ringAt (planOf s k) l r
    if planChunks d ≤ x.stageChunk ∨ x.locals.any (fun t => decide (t.idx + d.slots ≤ x.stageIdx)) = true then s
    else
      let c := x.stageChunk
      let item := stageOrder d l c x.stageItem
      let (seg, q) := localItem d l r c item
      let slot : LocalSlot := { idx := x.stageIdx, chunk := c, item := item, job := s.cq.nextId
                                va := (d.src + vecOff d l r c seg q) % 2 ^ 64, size := pieceBytes d l c q }
      let last := decide (localItems d l c ≤ x.stageItem + 1)
      planSlots k l r fuel (modRing k l r (fun x => { x with
        locals := x.locals ++ [slot], stageIdx := x.stageIdx + 1
        stageItem := if last then 0 else x.stageItem + 1, stageChunk := if last then c + 1 else c })
        { s with cq := { s.cq with nextId := s.cq.nextId + 1 } })

/-- A mover stages one piece into its LOCAL slot, and computes its watermark. -/
def stageSlot (k l r id : Nat) (t : LocalSlot) (s : State) : State :=
  if t.ready then s
  else
    let s := stepJob k id t.job t.va t.size none s
    if jobDone s id t.job t.va t.size then
      let b := jobBytes s id t.job
      let s := feltWrite 0 k (slotOff (planOf s k).defn l r 2 t.idx) b (dropJob id t.job s)
      modRing k l r (fun x => { x with locals := x.locals.map (fun u =>
        if u.idx = t.idx then { u with ready := true, wm := watermark b } else u) }) s
    else s

def stageRing (k l r id : Nat) (s : State) : State :=
  if !hasLocal (planOf s k).defn l then s
  else
    let s := planSlots k l r (planOf s k).defn.slots s
    forEach (ringAt (planOf s k) l r).locals (stageSlot k l r id) s

/-- A staged piece. -/
def localAt (x : SubRing) (c i : Nat) : Option LocalSlot := x.locals.find? (fun t => t.chunk == c && t.item == i)

/-- A staged piece has been sent: its slot is kept until a credit covers it (11 R321). -/
def keepLocal (k l r c i seq : Nat) (s : State) : State :=
  modRing k l r (fun x => { x with
    locals := x.locals.map (fun t => if t.chunk = c ∧ t.item = i then { t with sent := some seq } else t) }) s

/-- A staged operand has been used. -/
def useLocal (k l r c i : Nat) (s : State) : State :=
  modRing k l r (fun x => { x with locals := x.locals.filter (fun t => !(t.chunk == c && t.item == i)) }) s

/-- The next of the 32 parts of a COMPARE is read, and its watermark computed (11 R332). -/
def digestParts (k id : Nat) : Nat → State → State
  | 0, s => s
  | fuel + 1, s =>
    let p := planOf s k
    let i := p.parts.length
    if 32 ≤ i then s
    else
      let n := p.defn.length / 32
      let va := (p.defn.src + i * n) % 2 ^ 64
      let s := stepJob k id (i + 1) va n none s
      if jobDone s id (i + 1) va n then
        let w := watermark (jobBytes s id (i + 1))
        let s := modPlan k (fun p => { p with parts := p.parts ++ [w] }) (dropJob id (i + 1) s)
        let s := putStatus id .progress (modRun id (fun r => { r with progress := (i + 1) * n }) s)
        let ws := (planOf s k).parts
        let s := if ws.length = 32 then
            feltWrite 0 k (256 * memberIndex p.defn) (ws.flatMap (fun w => leBytes 8 w.toNat)) s
          else s
        digestParts k id fuel s
      else s

/-! ### Operations of a sub-ring (11 R317, R318) -/

/-- The counters that an operation waits on have come (11 R318). -/
def opReady (s : State) (p : Plan) (l r : Nat) : Bool :=
  let d := p.defn
  let (ag, c) := opAt d (ringAt p l r).op
  let last := levels d - 1
  let rs (m v : Nat) : Bool := decide (v ≤ planCount s p (4 * m + r))
  let agd (m v : Nat) : Bool := decide (v ≤ planCount s p (12 + 4 * m + r))
  if d.kind = kCompare then
    (if l = 0 then decide (p.parts.length = 32) else decide (1 ≤ (ringAt p (l - 1) 0).op))
  else if ag then
    (if l = last then d.kind == kAllgather || rs last (c + 1) else agd (l + 1) (c + 1)) &&
      (l == 0 || agd (l - 1) (c + 1 - d.depth))
  else (l == 0 || rs (l - 1) (c + 1)) && (l == last || rs (l + 1) (c + 1 - d.depth))

/-- RING_STEP_START (11 R318). -/
def doRingStep (k l r : Nat) (s : State) : State :=
  let p := planOf s k
  if p.state = 2 ∧ l < levels p.defn ∧ (ringsOf p.defn).contains r = true ∧ (ringAt p l r).op < opCount p.defn ∧
      (ringAt p l r).started = false ∧ opReady s p l r = true then
    touchRing k l r (modRing k l r (fun x => { x with started := true, sends := 0, takes := 0 }) s)
  else s

/-- Pieces sent, and consumed, in the sub-ring's present operation. -/
def opTotal (p : Plan) (l r : Nat) : Nat := opPieces p.defn l (opAt p.defn (ringAt p l r).op).2

/-- An operation whose sends and receives are all made is finished (11 R317); at level 0 an allgather
counts when its stores have their responses. -/
def opDone (k l r : Nat) (s : State) : State :=
  let p := planOf s k
  let x := ringAt p l r
  let n := opTotal p l r
  if x.started = true ∧ x.sends = n ∧ x.takes = n then
    let (ag, c) := opAt p.defn x.op
    let s := modRing k l r (fun x => { x with op := x.op + 1, started := false, sends := 0, takes := 0 }) s
    if p.defn.kind = kCompare then s
    else if !ag then planIncr k (4 * l + r) s
    else if l = 0 then modRing k l r (fun x => { x with agWait := x.agWait ++ [c] }) s
    else planIncr k (12 + 4 * l + r) s
  else s

/-! ### Stores to DST, and WRITTEN (11 R314, R317, R334) -/

/-- Begin a store to DST of bytes at an offset of the vector; the answer is its number. -/
def beginStore (k r c off : Nat) (bs : List Byte) (s : State) : Nat × State :=
  let job := s.cq.nextId
  let t : StoreOp := { job := job, va := ((planOf s k).defn.dst + off) % 2 ^ 64, chunk := c, ring := r, bytes := bs }
  let s := modPlan k (fun p => { p with stores := p.stores ++ [t] }) { s with cq := { s.cq with nextId := job + 1 } }
  (job, stepJob k (planOf s k).run job t.va bs.length (some bs) s)

/-- A store goes on; when it is final its bytes are counted. -/
def stepStore (k id : Nat) (t : StoreOp) (s : State) : State :=
  let s := stepJob k id t.job t.va t.bytes.length (some t.bytes) s
  if jobDone s id t.job t.va t.bytes.length then
    modPlan k (fun p => { p with
      stores := p.stores.filter (fun u => u.job != t.job)
      written := tabMod 0 (4 * t.chunk + t.ring) (· + t.bytes.length) p.written }) (dropJob id t.job s)
  else s

/-- The bytes of a chunk that a sub-ring makes final are all final. -/
def partFinal (p : Plan) (c r : Nat) : Bool := decide (ownedPart p.defn c ≤ tabGet 0 p.written (4 * c + r))

/-- Allgathers at level 0 that waited for their stores are counted (11 R317). -/
def countAg (k r : Nat) (s : State) : State :=
  let p := planOf s k
  let done := (ringAt p 0 r).agWait.filter (fun c => partFinal p c r)
  forEach done (fun _ => planIncr k (12 + r)) (modRing k 0 r (fun x => { x with
    agWait := x.agWait.filter (fun c => !partFinal p c r) }) s)

/-- WRITTEN advances over the chunks whose bytes are all final, in order, and PROGRESS with it (11
R317, R334). -/
def countWritten (k id : Nat) : Nat → State → State
  | 0, s => s
  | fuel + 1, s =>
    let p := planOf s k
    let c := p.chunksDone
    if c < planChunks p.defn ∧ (List.range 4).all (partFinal p c) = true then
      let s := planIncr k 24 (modPlan k (fun p => { p with chunksDone := c + 1 }) s)
      countWritten k id fuel (putStatus id .progress
        (modRun id (fun r => { r with progress := min p.defn.length ((c + 1) * p.defn.chunkBytes) }) s))
    else s

/-! ### Sending pieces (11 R313, R321, R324) -/

/-- The runs of a piece: each a COLL_OPEN and its continuations (11 R313, R324). -/
def pieceRuns (s : State) (p : Plan) (l r : Nat) (re : Bool) (o : OutPiece) : List (List Msg) :=
  let d := p.defn
  let axis := (planAxes d).getD l 0
  upTo ((o.bytes.length + 4095) / 4096) (fun i =>
    let b := bytesAt o.bytes (4096 * i) 4096
    let b0 := b.take 192
    let h : Msg :=
      { opcode := opCollOpen, flags := BitVec.ofNat 8 (ringClass r + 8 * b2n re), pkey := (partRec s p.part).key
        dslots := BitVec.ofNat 8 (slotsFor b0.length), source := BitVec.ofNat 32 (selfEp s)
        target := BitVec.ofNat 32 (ringAt p l r).down.toNat
        tag := BitVec.ofNat 32 (d.collId.toNat + o.seq % 2 ^ 16 * 2 ^ 16)
        addr := if i = 0 then o.wm else 0, length := BitVec.ofNat 16 b.length, attr := BitVec.ofNat 8 i
        tail := BitVec.ofNat 32 (axis + 4 * b2n (ringMinus r) + 8 * b2n o.ag + d.round.toNat * 2 ^ 8)
        data := padTo (16 * slotsFor b0.length) b0 }
    let t := BitVec.ofNat 32 (d.collId.toNat + i * 2 ^ 16 + o.seq % 32 * 2 ^ 22 + b2n (ringMinus r) * 2 ^ 27)
    h :: contMsgs opCollCont { h with tag := t } 20 1 (b.drop 192))

/-- Send a piece; a run that no route takes is discarded (07 R198). -/
def shipPiece (k l r : Nat) (re : Bool) (o : OutPiece) (s : State) : State :=
  let p := planOf s k
  forEach (pieceRuns s p l r re o) (fun ms s =>
    let (s, ok) := sendMsgs (.own p.part) ms s
    if ok then s else countRoute (fun x => { x with unreachDrops := satInc x.unreachDrops }) s) s

/-- The key of a piece of the member's own in a plan of one level. -/
def ownKey (c r q : Nat) : Nat := 65536 * (4 * c + r) + q

/-- Piece q that an operation sends first: its bytes and its watermark, when it is ready (11 R314; 12
R352). -/
def firstPiece (s : State) (p : Plan) (l r : Nat) (ag : Bool) (c q : Nat) : Option (List Byte × Word) :=
  let d := p.defn
  let n := pieceBytes d l c q
  let with_ (b : List Byte) : Option (List Byte × Word) := some (b, watermark b)
  if staged d l ag then
    match localAt (ringAt p l r) c q with
    | none => none
    | some t => if t.ready then some (feltRead s p (slotOff d l r 2 t.idx) n, t.wm) else none
  else if !ag then
    with_ (feltRead s p (bufOff d l false r c (upstreamPos d l r 1 * segBytes d l c + q * slotBytes d)) n)
  else if d.kind = kCompare then
    with_ (feltRead s p (compareOff d l (levelAxis d l).pos + q * slotBytes d) n)
  else if l + 1 < levels d then with_ (feltRead s p (bufOff d (l + 1) true r c (q * slotBytes d)) n)
  else if l = 0 then with_ (tabGet [] p.own (ownKey c r q))
  else with_ (feltRead s p (bufOff d l true r c ((levelAxis d l).pos * segBytes d l c + q * slotBytes d)) n)

/-- A member's own piece joins what it gathers, as it is sent (11 R314): in the level's gathered
buffer, or in DST at level 0. -/
def gatherOwn (k l r c q : Nat) (b : List Byte) (s : State) : State :=
  let d := (planOf s k).defn
  let pos := (levelAxis d l).pos
  if d.kind = kCompare ∨ (d.kind = kAllreduce ∧ l + 1 = levels d) then s
  else if l = 0 then (beginStore k r c (vecOff d 0 r c pos q) b s).2
  else feltWrite 0 k (bufOff d l true r c (pos * segBytes d l c + q * slotBytes d)) b s

/-- A piece goes out: it is kept until a credit covers it (11 R321). -/
def sendOut (k l r : Nat) (o : OutPiece) (s : State) : State :=
  let s := touchRing k l r (modRing k l r (fun x => { x with
    nextSend := x.nextSend + 1, sends := x.sends + 1, unacked := x.unacked ++ [o] }) s)
  shipPiece k l r false o s

/-! ### Failed checks (12 R352 to R355) -/

/-- CHECK of BTR_LAST_FAIL. -/
def checkCode : CheckKind → Nat
  | .arriveWm => 1 | .sendWm => 2 | .special => 3 | .magnitude => 4 | .sign => 5 | .zero => 6
  | .residue => 7 | .mxScale => 8 | .copyWm => 9

/-- The status of a lasting failure (12 R354, R355). -/
def checkStatus (c : CheckKind) : Byte :=
  match c with | .arriveWm | .sendWm | .copyWm => stWatermark | _ => stPlausibility

/-- BTR_LAST_FAIL after a failed check. -/
def noteFail (k b seq : Nat) (c : CheckKind) (lasting : Bool) (s : State) : State :=
  let p := planOf s k
  let w := packFields
    [(0, 3, b), (3, 4, checkCode c), (7, 1, b2n lasting), (8, 4, p.part), (16, 16, p.defn.collId.toNat),
     (32, 16, seq % 2 ^ 16), (48, 8, p.defn.round.toNat)]
  { s with btr := { s.btr with lastFail := w } }

/-- The record of a failed check (15 R405, 12 R354). -/
def failRecord (s : State) (k b seq : Nat) (c : CheckKind) (lasting inj : Bool) : Evt :=
  let p := planOf s k
  { cls := clsReduction, sev := if lasting then 3 else 0, injected := inj, lasting := lasting, transient := !lasting
    part := p.part, unitKind := 9, unitIndex := b, ctx := p.ctx, queue := p.queue, cause := checkCode c
    detail := leBytes 2 p.defn.collId.toNat ++ leBytes 2 (seq % 2 ^ 16) ++ [p.defn.round] }

/-- A repeat has passed: the failure was transient (12 R354). -/
def transientFail (k b seq : Nat) (c : CheckKind) (inj : Bool) (s : State) : State :=
  let s := modPlan k (fun p => { p with recomputes := p.recomputes + 1 }) s
  let s := { s with btr := match c with
    | .arriveWm | .copyWm => { s.btr with wmTransient := satInc s.btr.wmTransient }
    | .sendWm => { s.btr with txWmTransient := satInc s.btr.txWmTransient }
    | _ => { s.btr with plTransient := satInc s.btr.plTransient } }
  logErr (failRecord s k b seq c false inj) s

/-- A repeat has failed: the plan ends, and the endpoint is suspect (12 R354, 15 R425). -/
def lastingFail (k b seq : Nat) (c : CheckKind) (inj : Bool) (s : State) : State :=
  let e := failRecord s k b seq c true inj
  let s := noteFail k b seq c true s
  let s := { s with
    btr := { s.btr with lasting := satInc s.btr.lasting }
    err := { s.err with suspectDue := true } }
  endPlan k (checkStatus c) (logErr e s)

/-! ### Sending a sub-ring's next piece (11 R321, R322; 12 R352, R354) -/

/-- The two circuits that computed the watermark of a member's own piece have disagreed: nothing is sent before the repeat,
which sends the agreed value or ends the plan (12 R352, R354; log entry 117). -/
def checkSending (k seq : Nat) (w : WmObs) (send : State → State) (s : State) : State :=
  match w with
  | .agree => send s
  | .transient => send (transientFail k 0 seq .sendWm false (noteFail k 0 seq .sendWm false s))
  | .lasting => lastingFail k 0 seq .sendWm false s

/-- PIECE_SEND: the sub-ring's next piece, when a credit covers it and it is ready. -/
def doPieceSend (k l r : Nat) (w : WmObs) (s : State) : State :=
  let p := planOf s k
  let x := ringAt p l r
  if p.state ≠ 2 ∨ x.started = false ∨ x.opened = false ∨ x.limit ≤ x.nextSend ∨ opTotal p l r ≤ x.sends then s
  else
    let (ag, c) := opAt p.defn x.op
    if x.sends < piecesOf p.defn l c then
      match firstPiece s p l r ag c x.sends with
      | none => s
      | some (b, wm) =>
        checkSending k x.nextSend w (fun s =>
          let s := if staged p.defn l ag then keepLocal k l r c x.sends x.nextSend s else s
          let s := sendOut k l r { seq := x.nextSend, wm := wm, ag := ag, bytes := b } s
          opDone k l r (if ag then gatherOwn k l r c x.sends b s else s)) s
    else
      match x.ready with
      | [] => s
      | o :: rest => opDone k l r (sendOut k l r o (modRing k l r (fun x => { x with ready := rest }) s))

/-! ### Handing pieces to the Beaters, and release (11 R314, R321; 12 R337, R353) -/

/-- All runs of a piece have landed. -/
def landed (x : Piece) : Bool := (x.runs.map (·.2)).sum == x.size

def modPiece (k l r seq : Nat) (f : Piece → Piece) (s : State) : State :=
  modRing k l r (fun x => { x with pieces := x.pieces.map (fun t => if t.seq = seq then f t else t) }) s

/-- The local operand of an addition (11 R314). -/
def localOperand (s : State) (p : Plan) (l r c t : Nat) : Option (List Byte) :=
  let d := p.defn
  let (seg, q, _) := takeAt d l r false c t
  let n := pieceBytes d l c q
  if staged d l false then
    match localAt (ringAt p l r) c (piecesOf d l c + t) with
    | none => none
    | some u => if u.ready then some (feltRead s p (slotOff d l r 2 u.idx) n) else none
  else some (feltRead s p (bufOff d l false r c (seg * segBytes d l c + q * slotBytes d)) n)

/-- The bytes of a piece as they stand in its IN slot. -/
def inSlot (s : State) (p : Plan) (l r : Nat) (x : Piece) : List Byte := feltRead s p (slotOff p.defn l r 0 x.seq) x.size

/-- The last arriving segment of an allgather is stored without a Beater; its watermark is checked
all the same (11, worked example; 12 R353, R354). -/
def passStored (k l r : Nat) (x : Piece) (s : State) : State :=
  let b := inSlot s (planOf s k) l r x
  let pass : State → State := modPiece k l r x.seq (fun t => { t with handed := true, passed := true, out := b })
  if watermark b ≠ x.wm then lastingFail k 0 x.seq .arriveWm false (noteFail k 0 x.seq .arriveWm false s)
  else if injecting 6 x.port s then
    pass (transientFail k 0 x.seq .arriveWm true (injectOne (noteFail k 0 x.seq .arriveWm false s)))
  else pass s

/-- The place in the order of SEQ whose OUT slot a piece needs free: that of its output, K before which a credit must cover.
Where a segment has K pieces or more no K slots could hold them all, and R318's own bound is taken: the place after the piece
(11 R318, R321; log entry 25). -/
def outPlace (d : PlanDef) (l c : Nat) (x : SubRing) (seq t : Nat) : Nat :=
  if piecesOf d l c < d.slots then x.nextSend - x.sends + piecesOf d l c + t else seq + 1

/-- Hand the next piece over, when it has landed, its operation runs, its operand is ready and an OUT
slot is free (11 R318, R321; log entry 25). -/
def handNext (k l r : Nat) (s : State) : Option State :=
  let p := planOf s k
  let x := ringAt p l r
  let h := (x.pieces.filter (·.handed)).length
  let seq := x.nextTake + h
  let t := x.takes + h
  if p.state ≠ 2 ∨ x.started = false ∨ opTotal p l r ≤ t then none
  else match x.pieces.find? (fun u => u.seq == seq) with
    | none => none
    | some u =>
      let (ag, c) := opAt p.defn x.op
      let (_, _, last) := takeAt p.defn l r ag c t
      if !landed u || (!last && decide (x.oldest + p.defn.slots ≤ outPlace p.defn l c x seq t)) ||
          (!ag && (localOperand s p l r c t).isNone) then none
      else if ag && last then some (passStored k l r u s)
      else
        let j : BeatJob := { plan := k, ring := ringKey l r, seq := seq, add := !ag }
        some { modPiece k l r seq (fun u => { u with handed := true }) s with
          btr := { s.btr with queue := s.btr.queue ++ [j] } }

/-- Where a finished piece is to be stored in DST, as an offset of the vector. -/
def storeAt (d : PlanDef) (l r : Nat) (ag : Bool) (c t : Nat) : Option Nat :=
  let (seg, q, last) := takeAt d l r ag c t
  if d.kind = kCompare then none
  else if ag then (if l = 0 then some (vecOff d 0 r c seg q) else none)
  else if last && l + 1 == levels d && (d.kind == kReduceScatter || l == 0) then some (vecOff d l r c seg q)
  else none

/-- Where a finished piece is written in the Felt, other than an OUT slot. -/
def keepAt (d : PlanDef) (l r : Nat) (ag : Bool) (c t : Nat) : Option Nat :=
  let (seg, q, last) := takeAt d l r ag c t
  if d.kind = kCompare then some (compareOff d l seg + q * slotBytes d)
  else if ag then
    (if l = 0 then none else some (bufOff d l true r c (seg * segBytes d l c + q * slotBytes d)))
  else if !last then none
  else if l + 1 < levels d then some (bufOff d (l + 1) false r c (q * slotBytes d))
  else if d.kind = kAllreduce ∧ l ≠ 0 then some (bufOff d l true r c (seg * segBytes d l c + q * slotBytes d))
  else none

/-- The next piece's store to DST, if it has one, has been issued (11 R321: its output is written). -/
def storeReady (k l r : Nat) (u : Piece) (ag : Bool) (c t : Nat) (s : State) : State × Bool :=
  let p := planOf s k
  match storeAt p.defn l r ag c t with
  | none => (s, true)
  | some off =>
    let (job, s) := match u.store with
      | some j => (j, s)
      | none =>
        let (j, s) := beginStore k r c off u.out s
        (j, modPiece k l r u.seq (fun u => { u with store := some j }) s)
    (s, jobIssued s p.run job ((p.defn.dst + off) % 2 ^ 64) u.out.length)

/-- Release a piece: its output goes on, it counts as consumed, and a credit is returned (11 R321;
12 R337). -/
def releasePiece (k l r : Nat) (u : Piece) (ag : Bool) (c t : Nat) (s : State) : State :=
  let p := planOf s k
  let d := p.defn
  let x := ringAt p l r
  let (_, q, last) := takeAt d l r ag c t
  let o : OutPiece := { seq := x.nextSend - x.sends + piecesOf d l c + t, bytes := u.out, ag := ag
                        wm := if ag then u.wm else watermark u.out }
  let s := match keepAt d l r ag c t with | none => s | some off => feltWrite 1 k off u.out s
  let s := if last then s else feltWrite 1 k (slotOff d l r 1 o.seq) u.out s
  let s := if !ag && last && d.kind == kAllreduce && levels d == 1 then
      modPlan k (fun p => { p with own := tabSet [] (ownKey c r q) u.out p.own }) s
    else s
  let s := if staged d l false && !ag then useLocal k l r c (piecesOf d l c + t) s else s
  let s := modRing k l r (fun x => { x with
    ready := if last then x.ready else x.ready ++ [o]
    pieces := x.pieces.filter (fun v => v.seq != u.seq)
    nextTake := u.seq + 1, takes := x.takes + 1, given := u.seq + d.slots + 1, waitSince := s.nowUs }) s
  let s := if ag && last then s
    else
      let s := modPlan k (fun p => { p with pieces := p.pieces + 1 }) s
      if (planOf s k).pieces % 256 = 0 then planIncr k 25 s else s
  opDone k l r (sendCredit k l r s)

/-- Hand over and release what can be, in SEQ order. -/
def pumpRing (k l r : Nat) : Nat → State → State
  | 0, s => s
  | fuel + 1, s =>
    match handNext k l r s with
    | some s => pumpRing k l r fuel s
    | none =>
      let p := planOf s k
      let x := ringAt p l r
      match x.pieces.find? (fun u => u.seq == x.nextTake && u.passed) with
      | none => s
      | some u =>
        if p.state ≠ 2 then s
        else
          let (ag, c) := opAt p.defn x.op
          match storeReady k l r u ag c x.takes s with
          | (s, false) => s
          | (s, true) => pumpRing k l r fuel (releasePiece k l r u ag c x.takes s)

/-! ### The result of COMPARE (11 R333) -/

/-- The value of part i of member m. -/
def partValue (s : State) (p : Plan) (m i : Nat) : List Byte := feltRead s p (256 * m + 8 * i) 8

/-- The majority value of part i, if there is one. -/
def majority (s : State) (p : Plan) (i : Nat) : Option (List Byte) :=
  let vs := (List.range (members p.defn)).map (fun m => partValue s p m i)
  vs.find? (fun v => decide (members p.defn < 2 * (vs.filter (· == v)).length))

/-- A mask of the numbers below n that satisfy a test. -/
def maskOf (n : Nat) (f : Nat → Bool) : Nat := ((List.range n).map (fun i => b2n (f i) * 2 ^ i)).sum

def compareResult (s : State) (p : Plan) : List Byte :=
  let m := members p.defn
  let odd (j i : Nat) : Bool := match majority s p i with | none => false | some v => partValue s p j i != v
  let oddMember (j : Nat) : Bool := (List.range 32).any (odd j)
  let odds := (List.range m).filter oddMember
  leBytes 4 (maskOf 32 (odd (memberIndex p.defn))) ++ leBytes 4 (maskOf 32 (fun i => (majority s p i).isNone)) ++
    leBytes 2 odds.length ++ leBytes 2 (odds.headD 0xFFFF) ++ leBytes 2 m ++ [0, 0] ++ leBytes 32 (maskOf m oddMember)

/-! ### Driving the plans -/

/-- The round is over (11 R317, R332). -/
def finishPlan (k : Nat) (s : State) : State :=
  let p := planOf s k
  if p.state ≠ 2 ∨ (allRings p.defn).any (fun x => decide ((ringAt p x.1 x.2).op < opCount p.defn)) = true then s
  else if p.defn.kind = kCompare then endPlanWith k stOk (compareResult s p) s
  else if p.chunksDone = planChunks p.defn then endPlan k stOk s
  else s

/-- A running plan goes as far as it can without a further event. -/
def runPlan (k id : Nat) (s : State) : State :=
  let d := (planOf s k).defn
  let s := if d.kind = kCompare then digestParts k id 33 s
    else forEach (allRings d) (fun x => stageRing k x.1 x.2 id) s
  let s := forEach (allRings d) (fun x => pumpRing k x.1 x.2 (2 * d.slots + 2)) s
  let s := forEach (planOf s k).stores (stepStore k id) s
  let s := if d.kind = kCompare then s
    else countWritten k id (d.depth + planChunks d) (forEach (ringsOf d) (countAg k) s)
  finishPlan k s

/-- One plan slot (11 R307, R330). -/
def pumpPlan (k : Nat) (s : State) : State :=
  let p := planOf s k
  if p.state = 0 then s
  else match runOf s p.run with
    | none => if p.state = 3 then freePlan k s else endPlan k stAborted s
    | some r =>
      if p.state = 3 then (if r.phase = .aborting then s else freePlan k s)
      else if r.phase = .aborting ∨ r.failed.isSome then endPlan k (r.failed.getD stAborted) s
      else
        let s := if r.faulted then s else modPlan k (fun p => { p with faulted := [] }) s
        if p.state = 1 then readPlan k r s
        else if r.phase = .active then runPlan k r.id s
        else s

/-- Every plan. -/
def pumpPlans (s : State) : State := forEach (List.range 16) pumpPlan s

/-! ### Arriving messages (11 R321, R322, R325, R328) -/

def countMismatch : State → State := countHbx (fun h => { h with mismatch := satInc h.mismatch })
def countStale : State → State := countHbx (fun h => { h with stale := satInc h.stale })
def countDuplicate : State → State := countHbx (fun h => { h with duplicates := satInc h.duplicates })

/-- Running plans with a COLL_ID. -/
def plansWith (s : State) (id : Nat) : List Nat :=
  (List.range 16).filter (fun k => (planOf s k).state == 2 && (planOf s k).defn.collId.toNat == id)

/-- Sub-rings of plans that a direction, a lane and a neighbour name. -/
def ringsWith (s : State) (ks : List Nat) (minus : Bool) (cls : Nat) (nb : SubRing → BitVec 17) (e : Nat) :
    List (Nat × Nat × Nat) :=
  ks.flatMap (fun k =>
    ((allRings (planOf s k).defn).filter (fun x => ringMinus x.2 == minus && ringClass x.2 == cls &&
      (nb (ringAt (planOf s k) x.1 x.2)).toNat == e)).map (fun x => (k, x.1, x.2)))

/-- The size of the piece with an unbounded SEQ, as the schedule gives it. -/
def expectedSize (p : Plan) (l r seq : Nat) : Option Nat :=
  let x := ringAt p l r
  match locate p.defn l 64 x.op (seq - (x.nextTake - x.takes)) with
  | none => none
  | some (j, t) =>
    let c := (opAt p.defn j).2
    some (pieceBytes p.defn l c (t % max 1 (piecesOf p.defn l c)))

/-- Land bytes of a run of a piece in its IN slot (11 R321, R325). -/
def landBytes (k l r seq run off : Nat) (bs : List Byte) (s : State) : State :=
  let s := feltWrite 2 k (slotOff (planOf s k).defn l r 0 seq + 4096 * run + off) bs s
  touchRing k l r (modPiece k l r seq (fun u => { u with
    runs := tabMod 0 run (fun n => max n (off + bs.length)) u.runs }) s)

/-- A COLL_OPEN that has passed its checks. -/
def landOpen (k l r seq size : Nat) (port : Nat) (m : Msg) (s : State) : State :=
  let run := m.attr.toNat
  let x := ringAt (planOf s k) l r
  let s := if x.pieces.any (fun u => u.seq == seq) then s
    else modRing k l r (fun x => { x with pieces := x.pieces ++ [{ seq := seq, size := size }] }) s
  let s := if run = 0 then modPiece k l r seq (fun u => { u with wm := m.addr, port := port }) s else s
  landBytes k l r seq run 0 (m.data.take (min 192 m.length.toNat)) s

/-- The port a message came by, for 15 R430. -/
def arrivalPort : Arrival → Nat | .port n _ => n.val | .self => 255

/-- COLL_OPEN (11 R325). -/
def takeCollOpen (arr : Arrival) (m : Msg) (s : State) : State :=
  let ks := (plansWith s (m.tag.toNat % 2 ^ 16)).filter (fun k => (partRec s (planOf s k).part).key == m.pkey)
  let ring := m.tail.toNat
  let xs := (ringsWith s ks (bitOf ring 2) (classOf m.flags) SubRing.up (srcEp m)).filter
    (fun x => (planAxes (planOf s x.1).defn).getD x.2.1 3 == bitsOf ring 0 2)
  match xs with
  | [] => countMismatch s
  | (k, l, r) :: _ =>
    let p := planOf s k
    let x := ringAt p l r
    let d := (m.tag.toNat / 2 ^ 16 + 2 ^ 16 - x.nextTake % 2 ^ 16) % 2 ^ 16
    let seq := x.nextTake + d
    if BitVec.ofNat 8 (bitsOf ring 8 8) ≠ p.defn.round then countStale s
    else if 2 ^ 15 ≤ d ∨ x.pieces.any (fun u => u.seq == seq && landed u) = true then countDuplicate s
    else if x.given ≤ seq then s
    else match expectedSize p l r seq with
      | none => s
      | some size =>
        let at_ := 4096 * m.attr.toNat
        if at_ < size ∧ m.length.toNat = min 4096 (size - at_) then landOpen k l r seq size (arrivalPort arr) m s
        else s

/-- The unbounded SEQ that a SEQ modulo 32 stands for on a sub-ring. -/
def seqOf32 (x : SubRing) (v : Nat) : Nat := x.nextTake + (v + 32 - x.nextTake % 32) % 32

/-- COLL_CONT (11 R325). -/
def takeCollCont (m : Msg) (s : State) : State :=
  let t := m.tag.toNat
  let xs := ringsWith s (plansWith s (t % 2 ^ 16)) (bitOf t 27) (classOf m.flags) SubRing.up (srcEp m)
  let run := bitsOf t 16 6
  let off := 192 + 224 * (m.aux.toNat - 1)
  let open_ (y : Nat × Nat × Nat) : Option (Nat × Nat × Nat × Piece) :=
    let x := ringAt (planOf s y.1) y.2.1 y.2.2
    match x.pieces.find? (fun u => u.seq == seqOf32 x (bitsOf t 22 5)) with
    | none => none
    | some u => if !landed u && decide (1 ≤ m.aux.toNat) && decide (off ≤ tabGet 0 u.runs run) && decide (192 ≤ tabGet 0 u.runs run) then
        some (y.1, y.2.1, y.2.2, u) else none
  match xs with
  | [] => countMismatch s
  | (k, l, r) :: _ =>
    match xs.findSome? open_ with
    | some (k, l, r, u) =>
      let n := min 224 (min 4096 (u.size - 4096 * run) - off)
      landBytes k l r u.seq run off (m.data.take n) s
    | none =>
      let x := ringAt (planOf s k) l r
      let seq := seqOf32 x (bitsOf t 22 5)
      if x.given ≤ seq ∨ x.pieces.any (fun u => u.seq == seq && landed u) = true then countDuplicate s else s

/-- COLL_CREDIT (11 R321, R322, R324). -/
def takeCollCredit (m : Msg) (s : State) : State :=
  let t := m.tag.toNat
  let a := m.aux.toNat
  match ringsWith s (plansWith s (t % 2 ^ 16)) (bitOf a 1) (classOf m.flags) SubRing.down (srcEp m) with
  | [] => countMismatch s
  | (k, l, r) :: _ =>
    let p := planOf s k
    let x := ringAt p l r
    if BitVec.ofNat 8 (bitsOf t 16 8) ≠ p.defn.round then countStale s
    else
      let lim13 := bitsOf a 2 5 + 32 * bitsOf t 24 8
      let lim := x.oldest + (lim13 + 8192 - x.oldest % 8192) % 8192
      let lim := max lim x.limit
      let oldest := max x.oldest (lim - p.defn.slots)
      touchRing k l r (modRing k l r (fun x => { x with
        opened := x.opened || bitOf a 0, limit := lim, oldest := oldest
        unacked := x.unacked.filter (fun o => decide (oldest ≤ o.seq))
        locals := x.locals.filter (fun t => match t.sent with | some q => decide (oldest ≤ q) | none => true) }) s)

/-- COLL_ABORT (11 R328). -/
def takeCollAbort (m : Msg) (s : State) : State :=
  let t := m.tag.toNat
  match (plansWith s (t % 2 ^ 16)).filter (fun k => (neighbours (planOf s k)).any (fun e => e.toNat == srcEp m)) with
  | [] => countMismatch s
  | k :: _ =>
    if BitVec.ofNat 8 (bitsOf t 16 8) ≠ (planOf s k).defn.round then countStale s
    else
      endPlan k stAborted (modPlan k (fun p => { p with abortCause := m.aux })
        (countHbx (fun h => { h with abortsRcvd := satInc h.abortsRcvd }) s))

def doCollOpen (arr : Arrival) (m : Msg) (s : State) : State := onArrival arr m (takeCollOpen arr m) s
def doCollCont (arr : Arrival) (m : Msg) (s : State) : State := onArrival arr m (takeCollCont m) s
def doCollCredit (arr : Arrival) (m : Msg) (s : State) : State := onArrival arr m (takeCollCredit m) s
/-- COLL_ABORT; a message of a reserved collective opcode matches no plan. -/
def doCollAbort (arr : Arrival) (m : Msg) (s : State) : State :=
  onArrival arr m (if m.opcode = opCollAbort then takeCollAbort m else countMismatch) s

/-- CREDIT_REPEAT_TIMER (11 R322). -/
def doCreditRepeat (k l r : Nat) (s : State) : State :=
  let p := planOf s k
  if p.state = 2 ∧ l < levels p.defn ∧ (ringsOf p.defn).contains r = true ∧ (ringAt p l r).pieces = [] then
    sendCredit k l r s
  else s

/-! ### Lost pieces and limits (11 R326, R327; 15 R416) -/

/-- What a discarded COLL_OPEN or COLL_CONT of this endpoint says of its piece: the sub-ring, the
piece, and whether it had been resent. -/
def lostPiece (s : State) (m : Msg) : Option (Nat × Nat × Nat × Nat × Bool) :=
  let t := m.tag.toNat
  let isOpen := m.opcode == opCollOpen
  if !(isOpen || m.opcode == opCollCont) || srcEp m != selfEp s then none
  else
    let minus := if isOpen then bitOf m.tail.toNat 2 else bitOf t 27
    let xs := ringsWith s (plansWith s (t % 2 ^ 16)) minus (classOf m.flags) SubRing.down (dstEp m)
    xs.findSome? (fun y =>
      match (ringAt (planOf s y.1) y.2.1 y.2.2).unacked.find? (fun o =>
        if isOpen then o.seq % 2 ^ 16 == t / 2 ^ 16 else o.seq % 32 == bitsOf t 22 5) with
      | none => none
      | some o => some (y.1, y.2.1, y.2.2, o.seq, reissueOf m.flags))

/-- A piece is path-lost: resent once, and the second time the plan ends (11 R326). -/
def losePiece (k l r seq : Nat) (again : Bool) (s : State) : State :=
  let p := planOf s k
  let x := ringAt p l r
  if p.state ≠ 2 then s
  else if again then endPlan k stUnreachable s
  else if x.resent.contains seq then s
  else match x.unacked.find? (fun o => o.seq == seq) with
    | none => s
    | some o =>
      let s := modPlan k (fun p => { p with resends := p.resends + 1 }) (modRing k l r (fun x => { x with resent := seq :: x.resent }) s)
      let s := countHbx (fun h => { h with resends := satInc h.resends }) s
      shipPiece k l r true o s

/-- Pieces whose messages sat in a discarded Broke store (11 R326). -/
def collLost (ms : List Msg) (s : State) : State :=
  forEach (ms.filterMap (lostPiece s)).eraseDups (fun y => losePiece y.1 y.2.1 y.2.2.1 y.2.2.2.1 y.2.2.2.2) s

/-- STEP_LIMIT_EXPIRY (11 R327). -/
def doStepLimit (k : Nat) (s : State) : State :=
  let p := planOf s k
  if p.state = 2 ∧ p.defn.stepLimit ≠ 0 then
    endPlan k stTimeout (countHbx (fun h => { h with stepLimits := satInc h.stepLimits }) s)
  else s

end Sys2Proof.Machine
end

