-- ==== Sys2Proof/Machine/Aperture.lean ====
section
/-! DEFINITION. The load/store aperture (08 R240 to R243, R471; 02 R40 to R42; 10 R294). -/

namespace Sys2Proof.Machine

def aperOf (s : State) (id : Nat) : Option Aperture := s.aper.find? (fun a => a.id == id)

def modAper (id : Nat) (f : Aperture → Aperture) (s : State) : State :=
  { s with aper := s.aper.map (fun a => if a.id = id then f a else a) }

/-- Make a response (02, LSA_n_RSP). -/
def lsaAnswer (r : LsaReq) (st : Byte) (data : List Byte) (s : State) : State :=
  { s with out := { s.out with lsaRsps := s.out.lsaRsps ++ [{ ch := r.ch, tag := r.tag, status := st
                                                              data := BitVec.ofNat 512 (leNat data) }] } }

/-- A FENCE at the front of its channel and context is answered (08 R240). -/
def nextFence (s : State) : Option Aperture :=
  s.aper.find? (fun a => a.kind == .fence &&
    (s.aper.takeWhile (fun b => b.id != a.id)).all (fun b => !(b.req.ch == a.req.ch && b.req.ctx == a.req.ctx)))

/-- Answer every FENCE whose earlier requests all have their responses (08 R240). -/
def answerFences : Nat → State → State
  | 0, s => s
  | fuel + 1, s =>
    match nextFence s with
    | none => s
    | some a => answerFences fuel (lsaAnswer a.req stOk [] { s with aper := s.aper.erase a })

/-- Answer a request: its use ends, and FENCEs behind it are looked at (08 R240, 10 R289). -/
def aperEnd (id : Nat) (st : Byte) (data : List Byte) (s : State) : State :=
  match aperOf s id with
  | none => s
  | some a =>
    let s := endUseOpt a.req.ctx a.use { s with aper := s.aper.filter (fun b => b.id != id) }
    answerFences s.aper.length (lsaAnswer a.req st data s)

/-- Bytes of a request. -/
def lsaBytes (r : LsaReq) : Nat := 2 ^ r.size.toNat
def lsaLane (r : LsaReq) : Nat := r.addr.toNat % 64

/-- The ATTR byte of an aperture atomic, v and c (08 R242). -/
def lsaAttr (r : LsaReq) : Byte := BitVec.ofNat 8 (bitsOf r.wdata.toNat 256 8)
def lsaV (r : LsaReq) : List Byte := leBytes 16 (bitsOf r.wdata.toNat 0 128)
def lsaC (r : LsaReq) : List Byte := leBytes 16 (bitsOf r.wdata.toNat 128 128)

/-- The request is well formed (08 R242; log entry 21 on enables outside its lanes). -/
def lsaFormOk (k : ApertureKind) (r : LsaReq) : Bool :=
  decide (r.size.toNat ≤ 6) && r.addr.toNat % (lsaBytes r) == 0 &&
    (match k with | .atomic => attrOk (lsaAttr r) && atomicWidth (lsaAttr r) == (lsaBytes r) | _ => true)

/-- The enabled bytes of a store, as offsets in the 64-byte block (08 R242). -/
def lsaEnabled (r : LsaReq) : List Nat := (upTo (lsaBytes r) (fun i => lsaLane r + i)).filter (fun i => r.be.getLsbD i)

/-- Contiguous spans of enabled bytes, in ascending order (08 R471). -/
def spansOf : List Nat → List AperPart → List AperPart
  | [], acc => acc.reverse
  | i :: rest, p :: acc => if p.lane + p.len = i then spansOf rest ({ p with len := p.len + 1 } :: acc)
      else spansOf rest ({ lane := i, len := 1 } :: p :: acc)
  | i :: rest, [] => spansOf rest [{ lane := i, len := 1 }]

/-- The right a request needs. -/
def aperRight (k : ApertureKind) : BitVec 3 :=
  match k with | .load => rightRead | .store => rightWrite | .atomic => rightAtomic | .fence => 0

/-- The address of a part. -/
def partVa (a : Aperture) (p : AperPart) : Nat := a.req.addr.toNat / 64 * 64 + p.lane

/-- The response's data in the byte lanes of the address (08 R242). -/
def laneData (a : Aperture) (bytes : List Byte) : List Byte := List.replicate (lsaLane a.req) 0 ++ bytes

/-- The status of a store from those of its spans (08 R471). -/
def spanStatus (ps : List AperPart) : Byte :=
  if ps.any (fun p => p.status == some stAmbiguous) then stAmbiguous
  else match ps.find? (fun p => p.status != some stOk) with | some p => p.status.getD stOk | none => stOk

/-- Log a store that ends AMBIGUOUS or TIMEOUT, and raise ERROR for AMBIGUOUS (08 R243, 15 R403). -/
def logStore (a : Aperture) (st : Byte) (s : State) : State :=
  match ctxPart s a.req.ctx with
  | none => s
  | some p =>
    let s := logErr { cls := clsTransaction, sev := 2, part := p, unitKind := 15, unitIndex := a.req.ch
                      ctx := a.req.ctx, addr := a.req.addr.toNat, cause := st.toNat
                      detail := leBytes 1 (lsaBytes a.req) } s
    if st = stAmbiguous then irqMapped p causeError s else s

/-- A part has its final status; the request is answered when every part has one (08 R243, R471). -/
def partEnd (id k : Nat) (st : Byte) (data : List Byte) (s : State) : State :=
  let s := modAper id (fun a => { a with parts := a.parts.mapIdx (fun i p => if i = k then { p with status := some st, sent := true } else p) }) s
  match aperOf s id with
  | none => s
  | some a =>
    if a.parts.any (fun p => p.status.isNone) then s
    else
      let st := spanStatus a.parts
      let s := if a.kind = .store ∧ (st = stAmbiguous ∨ st = stTimeout) then logStore a st s else s
      aperEnd id st (if st = stOk ∧ a.kind ≠ .store then laneData a data else []) s

/-- The messages of a part's request (08 R218, R242, R471). -/
def partMsgs (s : State) (a : Aperture) (p : AperPart) (part ep addr : Nat) : List Msg :=
  let cls := b2n a.relaxed
  match a.kind with
  | .load => [reqMsg s opRead cls part ep addr p.len 0 []]
  | .store => writeRun s cls part ep addr (bytesAt (leBytes 64 a.req.wdata.toNat) p.lane p.len)
  | _ => [reqMsg s opAtomic cls part ep addr p.len (lsaAttr a.req) (atomicData (lsaAttr a.req) (lsaV a.req) (lsaC a.req))]

/-- The distance of a part from the first one. -/
def partOff (a : Aperture) (p : AperPart) : Nat := p.lane - (a.parts.head?.map (·.lane)).getD 0

/-- Issue one part to the place its translation gave (07 R189, R190; 08 R471). -/
def issuePart (a : Aperture) (k : Nat) (p : AperPart) (s : State) : State :=
  let sent (s : State) : State :=
    modAper a.id (fun a => { a with parts := a.parts.mapIdx (fun i p => if i = k then { p with sent := true } else p) }) s
  match a.place, ctxPart s a.req.ctx with
  | some (.loc pa), _ =>
    let pa := pa + partOff a p
    match a.kind with
    | .load => memIssue .read (.aperture a.id) pa p.len k [] none (sent s)
    | .store => memIssue .write (.aperture a.id) pa p.len k (bytesAt (leBytes 64 a.req.wdata.toNat) p.lane p.len) none (sent s)
    | _ => giveUnit { msg := (partMsgs s a p 16 (selfEp s) pa).headD default, pa := pa, localOwner := some (.aperture a.id k) } (sent s)
  | some (.far rank addr), some q =>
    match rankTarget rank s with
    | (.error st, s) => partEnd a.id k st [] s
    | (.ok ep, s) =>
      match issueRequest (.aperture a.id k) a.req.ctx q ep (partMsgs s a p q ep (addr + partOff a p)) s with
      | (.waits, s) =>
        if a.waited then s
        else modPart q (fun r => { r with waits := satInc r.waits }) (modAper a.id (fun a => { a with waited := true }) s)
      | (.issued, s) => sent s
      | (.noRoute, s) => partEnd a.id k stUnreachable [] s
  | _, _ => s

/-- An earlier request of the channel waits for a tracker, and the channel with it (08 R223). -/
def channelWaits (s : State) (a : Aperture) : Bool :=
  (s.aper.takeWhile (fun b => b.id != a.id)).any (fun b =>
    b.req.ch == a.req.ch && b.waited && b.parts.any (fun p => !p.sent))

/-- Issue every part of a request that has not been sent. -/
def issueParts (id : Nat) (s : State) : State :=
  match aperOf s id with
  | none => s
  | some a =>
    if channelWaits s a then s
    else forEach (List.range a.parts.length) (fun k s =>
      match aperOf s id with
      | none => s
      | some a => match a.parts[k]? with
        | some p => if p.sent then s else issuePart a k p s
        | none => s) s

/-- Translate a request and issue it (08 R241, 10 R278). -/
def aperGo (id : Nat) (s : State) : State :=
  match aperOf s id with
  | none => s
  | some a =>
    if a.place.isSome then issueParts id s
    else match a.parts with
      | [] => s
      | p :: _ =>
        match translate (.aperture id) a.req.ctx (partVa a p) (aperRight a.kind) s with
        | (none, s) => s
        | (some e, s) =>
          let (ep, s) := beginUse a.req.ctx s
          issueParts id (modAper id (fun x => { x with use := some ep, place := some (placeOf e (partVa a p)) }) s)

/-- Requests that wait for a tracker are tried again, oldest first (08 R223). -/
def aperRetry (s : State) : State :=
  forEach ((s.aper.filter (fun a => a.waited && a.parts.any (fun p => !p.sent))).map (·.id)) issueParts s

/-- Requests that can be issued and wait behind none of their channel: a channel that waited goes on (08 R223). -/
def channelReady (s : State) : List Aperture :=
  s.aper.filter (fun a => a.place.isSome && !a.waited && a.parts.any (fun p => !p.sent) && !channelWaits s a)

/-- A translation fault answers the request with FAULT (08 R241, 10 R294). -/
def aperFault (id : Nat) (cause : Nat) (s : State) : State :=
  match aperOf s id with
  | none => s
  | some a =>
    let va := match a.parts with | p :: _ => partVa a p | [] => a.req.addr.toNat
    aperEnd id stFault [] (recordFault { cause := cause, source := 3, access := aperRight a.kind, ctx := a.req.ctx, addr := va } s)

/-- What R41, 03 R74 and 15 R426 answer at once, if anything. -/
def aperGate (s : State) (r : LsaReq) : Option Byte :=
  if !s.pins.ready then some stUnreachable
  else if s.err.drainState ≠ 0 ∨ 2 ≤ s.power.cur.toNat then some stUnreachable
  else if (ctxOf s r.ctx).state ≠ ctxOpen then some stRights
  else match ctxPart s r.ctx with
    | none => some stRights
    | some p => if takesTurns s p then none else some stRights

/-- The parts of a request. -/
def lsaParts (k : ApertureKind) (r : LsaReq) : List AperPart :=
  match k with
  | .store => spansOf (lsaEnabled r) []
  | _ => [{ lane := (lsaLane r), len := (lsaBytes r) }]

/-- LSA_n_REQ_OP names an operation (08 R240). -/
def lsaOpOk (r : LsaReq) : Bool := decide (r.op.toNat < 7)

/-- An aperture request (08 R240 to R242, R471). -/
def aperRequest (k : ApertureKind) (relaxed : Bool) (r : LsaReq) (s : State) : State :=
  match aperGate s r with
  | some st => lsaAnswer r st [] s
  | none =>
    if !lsaOpOk r then lsaAnswer r stMalformed [] s
    else if k = .store ∧ r.be = 0 then lsaAnswer r stOk [] s
    else if !lsaFormOk k r then lsaAnswer r stMalformed [] s
    else if k = .store ∧ (lsaEnabled r).isEmpty then lsaAnswer r stOk [] s
    else
      let id := s.trk.nextId
      let a : Aperture := { id := id, req := r, kind := k, relaxed := relaxed, parts := lsaParts k r }
      aperGo id { s with trk := { s.trk with nextId := id + 1 }, aper := s.aper ++ [a] }

/-- A memory access of a request on local memory has been answered (02 R38, R42). -/
def aperAccess (id k : Nat) (bytes : List Byte) (bad : Bool) (s : State) : State :=
  partEnd id k (if bad then stDataError else stOk) bytes s

/-- A request's tracker has its final status (08 R227, R239). -/
def aperAnswered (id k : Nat) (st : Byte) (data : List Byte) (s : State) : State :=
  match aperOf s id with
  | none => s
  | some a => partEnd id k st (if a.kind = .atomic then data.take (lsaBytes a.req) else data) s

/-- A FENCE is answered once every earlier request of its context on its channel has its response
(08 R240). -/
def fenceRequest (r : LsaReq) (s : State) : State :=
  match aperGate s r with
  | some st => lsaAnswer r st [] s
  | none =>
    if !lsaOpOk r then lsaAnswer r stMalformed [] s else
    let id := s.trk.nextId
    answerFences (s.aper.length + 1) { s with
      trk := { s.trk with nextId := id + 1 }, aper := s.aper ++ [{ id := id, req := r, kind := .fence, relaxed := false }] }

end Sys2Proof.Machine
end

