-- ==== Sys2Proof/Machine/Source.lean ====
section
/-! DEFINITION. The source side of remote requests: responses, timeouts, lost paths and reissues
(08 R223 to R231). -/

namespace Sys2Proof.Machine

/-! ### The end of a request (08 R223, R239) -/

/-- The request is a store of the aperture (08 R227). -/
def isAperStore (t : Tracker) : Bool :=
  match t.owner with | .aperture _ _ => trkOp t == opWrite | .xfer _ _ => false

/-- The tracker's request is a WRITE run or a FILL. -/
def isWriting (t : Tracker) : Bool := trkOp t == opWrite || trkOp t == opFill

/-- AMBIGUOUS and TIMEOUT completions are events of class TRANSACTION (15 R403); an aperture store
logs its own (08 R243). -/
def logTracker (t : Tracker) (st : Byte) (s : State) : State :=
  let s := onlyIf (st == stAmbiguous) (countTrk (fun k => { k with ambiguous := satInc k.ambiguous })) s
  onlyIf ((st == stAmbiguous || st == stTimeout) && !isAperStore t)
    (logErr { cls := clsTransaction, sev := 2, part := t.part, unitKind := 5, unitIndex := t.index % 65536
              ctx := t.ctx, cause := st.toNat }) s

/-- A request has its final status: its tracker is free, and its owner goes on. -/
def finishTracker (t : Tracker) (st : Byte) (data : List Byte) (s : State) : State :=
  let s := logTracker t st (freeTracker t.index s)
  match t.owner with
  | .xfer id x => runAnswered id x (trkOp t) st data s
  | .aperture id k => aperAnswered id k st data s

/-- The status of an UNREACHABLE answer to a reissued request (08 R231). -/
def unreachableReissue (t : Tracker) : Byte :=
  if trkOp t = opRead ∨ t.origNotDone = true then stUnreachable else stAmbiguous

/-- Send requests that waited behind their stream's reissues (08 R230). -/
def sendHeld : Nat → State → State
  | 0, s => s
  | fuel + 1, s =>
    match nextHeld s with
    | none => s
    | some t =>
      let s := countTrk (fun k => { k with held := k.held.filter (· != t.index) }) s
      match sendMsgs (.own t.part) t.msgs s with
      | (s, true) => sendHeld fuel s
      | (s, false) => sendHeld fuel (finishTracker t stUnreachable [] s)

/-- Reissue a request, at most once, with the same TAG (08 R227, R229). -/
def reissue (t : Tracker) (lost : Bool) (s : State) : State :=
  let ms := reissueMsgs t.msgs
  let now := s.nowUs
  let s := modTracker t.index (fun t => { t with msgs := ms, reissued := true, lost := lost, since := now }) s
  let s := countTrk (fun k => { k with reissues := satInc k.reissues }) s
  match sendMsgs (.own t.part) ms s with
  | (s, true) => s
  | (s, false) => finishTracker t (unreachableReissue t) [] s

/-! ### Chunk reissue (08 R228) -/

/-- Trackers of a run's writes. -/
def runWrites (s : State) (id : Nat) : List Tracker :=
  s.trk.trackers.filter (fun t => reqOfRun id t.owner && isWriting t)

/-- The request may be reissued: not twice, and not for what is closing, ending or resetting (08
R229, 09 R247 step 4). -/
def mayReissue (s : State) (t : Tracker) : Bool :=
  !t.reissued && takesTurns s t.part && (ctxOf s t.ctx).state == ctxOpen &&
    (match t.owner with
     | .aperture _ _ => true
     | .xfer id _ => match runOf s id with
       | some r => r.phase != .aborting
       | none => false)

/-- Every run of the descriptor already issued has resolved: the path-lost ones are reissued, and
the mover goes on (08 R228). -/
def chunkReissue (id : Nat) (s : State) : State :=
  if (runWrites s id).all (fun t => t.lost && mayReissue s t) then
    let ts := runWrites s id
    let s := modRun id (fun r => { r with
      fencing := false
      xfers := r.xfers.map (fun x => if x.stage = .lost then { x with stage := .writing } else x) }) s
    forEach ts (fun t => reissue t false) s
  else s

/-- Every run that waits for its fence. -/
def fenceRuns (s : State) : State :=
  forEach ((s.cq.runs.filter (·.fencing)).map (·.id)) chunkReissue s

/-- What may go on when a tracker has been freed (08 R223, R228, R230). -/
def afterTracker (s : State) : State := aperRetry (sendHeld (s.trk.held.length + 1) (fenceRuns s))

/-- A request is complete. -/
def completeTracker (t : Tracker) (st : Byte) (data : List Byte) (s : State) : State :=
  afterTracker (finishTracker t st data s)

/-! ### Lost paths and timeouts (08 R225 to R228) -/

/-- A write run waits for its chunk's reissue (08 R228). -/
def loseWrite (id x : Nat) (t : Tracker) (s : State) : State :=
  modTracker t.index (fun t => { t with lost := true })
    (modXfer id x (fun t => { t with stage := .lost }) (modRun id (fun r => { r with fencing := true }) s))

/-- A request is path-lost (08 R226, R227).  One that may not be reissued holds its stream (08 R230) until its timeout. -/
def pathLost (t : Tracker) (s : State) : State :=
  if isAperStore t then finishTracker t stAmbiguous [] s
  else if !mayReissue s t then modTracker t.index (fun t => { t with lost := true }) s
  else match t.owner, isWriting t with
    | .xfer id x, true => loseWrite id x t s
    | _, _ => reissue t true s

/-- The requests of these TAGs are path-lost (08 R226 to R228). -/
def pathLostTags (tags : List (BitVec 32)) (s : State) : State :=
  afterTracker (forEach tags (fun tag s =>
    match s.trk.trackers.find? (fun t => trkTag t.index t.gen == tag) with
    | some t => pathLost t s
    | none => s) s)

/-- A tracker has had no final response for its timeout (08 R225, R227). -/
def timeOut (t : Tracker) (s : State) : State :=
  let s := countTrk (fun k => { k with timeouts := satInc k.timeouts }) s
  let fencing : Bool := match t.owner with
    | .xfer id _ => match runOf s id with | some r => r.fencing | none => false
    | .aperture _ _ => false
  if isAperStore t || !mayReissue s t then finishTracker t stTimeout [] s
  else match t.owner, isWriting t && fencing with
    | .xfer id x, true => loseWrite id x t s
    | _, _ => reissue t t.lost s

/-- RESPONSE_TIMEOUT of a tracker whose request has been sent (08 R225).  One held back or waiting
for its chunk's reissue has not been sent, while it may still be (log entry 22). -/
def doResponseTimeout (i : Nat) (s : State) : State :=
  match trackerOf s i with
  | none => s
  | some t =>
    if s.trk.held.contains i || (isWriting t && t.lost && mayReissue s t) then s
    else afterTracker (timeOut t s)

/-! ### Responses (08 R224, R229, R231) -/

/-- A response that R224 discards although its tracker is in use: a malformed event of its port, or
a record of class INTERNAL. -/
def badResponse (arr : Arrival) (s : State) : State :=
  let s := countTrk (fun k => { k with lateDiscards := satInc k.lateDiscards }) s
  match arr with
  | .port n _ => malformedAt n s
  | .self => logErr { cls := clsInternal, sev := 0, unitKind := 5 } s

/-- The codes a response may carry (08 R239). -/
def responseStatus (st : Byte) : Bool :=
  st == stOk || st == stAmbiguous || st == stRights || st == stUnreachable || st == stDataError || st == stMalformed

/-- A tracker's word is lost, which is met when its response comes: the tracker is retired, its request completes with
DATA_ERROR, and the response is discarded (15 R410). -/
def loseTracker (t : Tracker) (s : State) : State :=
  let s := countTrk (fun k => { k with lateDiscards := satInc k.lateDiscards }) s
  completeTracker t stDataError [] (retireTracker t.index (some t.part) s)

/-- The tracker of a response is read: whether its word is lost, by an injected error or another (15 R410, R430). -/
def responseTracker (t : Tracker) (s : State) : Bool × State :=
  if injecting 4 0 s then
    (true, logErr { cls := clsInternal, sev := 2, injected := true, unitKind := 5, unitIndex := t.index % 65536 }
      (noteUncorr (injectOne s)))
  else readTracker t.index (some t.part) s

/-- Act on a response whose tracker is in use with its GEN (08 R224). -/
def onResponse (arr : Arrival) (m : Msg) (f : Tracker → State → State) (s : State) : State :=
  onArrival arr m (fun s =>
    match s.trk.trackers.find? (fun t => trkTag t.index t.gen == m.tag) with
    | none => countTrk (fun k => { k with lateDiscards := satInc k.lateDiscards }) s
    | some t =>
      let st := if m.opcode = opReadData then stOk else m.aux
      let (lost, s) := responseTracker t s
      if lost then loseTracker t s
      else if !responseStatus st || (st != stUnreachable && srcEp m != t.target.toNat) then badResponse arr s
      else f t s) s

/-- A response of the copy of a READ whose pieces are not taken (08 R229). -/
def otherInstance (t : Tracker) (m : Msg) : Bool :=
  match t.readInst with | some b => b != reissueOf m.flags | none => false

/-- A final status has come (08 R231). -/
def takeStatus (t : Tracker) (m : Msg) (data : List Byte) (s : State) : State :=
  let st := m.aux
  if st = stUnreachable ∧ t.reissued = true then
    if reissueOf m.flags then completeTracker t (unreachableReissue t) [] s
    else modTracker t.index (fun t => { t with origNotDone := true }) s
  else if otherInstance t m then s
  else completeTracker t st data s

/-- ACK (08 R208, R223). -/
def takeAck (arr : Arrival) (m : Msg) (t : Tracker) (s : State) : State :=
  let op := trkOp t
  if m.opcode ≠ opAck ∨ op = opAtomic ∨ (op = opRead ∧ m.aux = stOk) ∨ m.dslots ≠ 0 then badResponse arr s
  else takeStatus t m [] s

def doAck (arr : Arrival) (m : Msg) (s : State) : State := onResponse arr m (takeAck arr m) s

/-- Bytes that a READ's tracker asked for. -/
def trkLength (t : Tracker) : Nat := match t.msgs with | m :: _ => m.length.toNat | [] => 0

/-- Bytes of piece k of a read of `n` bytes (08 R209). -/
def pieceLen (n k : Nat) : Nat := min 224 (n - 224 * k)

/-- READ_DATA: a piece is taken, and the last one completes the READ (08 R209, R229). -/
def takePiece (arr : Arrival) (m : Msg) (t : Tracker) (s : State) : State :=
  let n := trkLength t
  let k := m.aux.toNat
  if trkOp t ≠ opRead ∨ n ≤ 224 * k ∨ m.dslots.toNat ≠ slotsFor (pieceLen n k) then badResponse arr s
  else if otherInstance t m then s
  else
    let ps := tabSet [] k (m.data.take (pieceLen n k)) t.pieces
    if ps.length * 224 < n then
      modTracker t.index (fun t => { t with pieces := ps, readInst := some (reissueOf m.flags) }) s
    else completeTracker t stOk (ps.flatMap (·.2)) s

def doReadData (arr : Arrival) (m : Msg) (s : State) : State := onResponse arr m (takePiece arr m) s

/-! ### Requests without a route (07 R198) -/

/-- A message of this endpoint for which no route is left (07 R198, 08 R231). -/
def noRoute (m : Msg) (s : State) : State :=
  if vcOf m.opcode = 0 then
    match s.trk.trackers.find? (fun t => trkTag t.index t.gen == m.tag) with
    | some t => completeTracker t (if t.reissued then unreachableReissue t else stUnreachable) [] s
    | none => s
  else countRoute (fun r => { r with unreachDrops := satInc r.unreachDrops }) s

/-- A transit message that cannot be forwarded (07 R198): a request, of a reserved opcode too (log entry 14), is answered
UNREACHABLE, or completes here when this endpoint is its source; a continuation ends with its opener. -/
def cannotForward (m : Msg) (s : State) : State :=
  if srcEp m = selfEp s ∧ vcOf m.opcode = 0 then noRoute m s
  else if m.opcode = opCont then s
  else if vcOf m.opcode = 0 then
    match sendMsgs .steward [refusalOf s m stUnreachable] s with
    | (s, true) => countRoute (fun r => { r with unreachSent := satInc r.unreachSent }) s
    | (s, false) => countRoute (fun r => { r with unreachDrops := satInc r.unreachDrops }) s
  else countRoute (fun r => { r with unreachDrops := satInc r.unreachDrops }) s

/-- Forward a transit message (07 R197, R203). -/
def forwardMsg (port vcb : Nat) (m : Msg) (s : State) : State :=
  let (lost, s) := readRam (.transit port) { cls := 0, sev := 2, port := port, unitKind := 3 } s
  if lost then s else
  match transitHop s port vcb m with
  | .here => s
  | .stuck => cannotForward m s
  | .out p v flags turned =>
    let s := countRoute (fun r => { r with
      transitMsgs := satInc r.transitMsgs
      turned := if turned then satInc r.turned else r.turned }) s
    enqueue p v (.port ⟨port % 12, Nat.mod_lt _ (by decide)⟩) [{ m with flags := flags }] s

/-- RELEASE for a result that has been taken (08 R234). -/
def releaseMsg (s : State) (t : Tracker) : Msg :=
  { opcode := opRelease, flags := BitVec.ofNat 8 (trkClass t), source := BitVec.ofNat 32 (selfEp s)
    target := BitVec.ofNat 32 t.target.toNat, tag := trkTag t.index t.gen }

/-- ATOMIC_RESULT (08 R219, R234): a result that the target recorded is released. -/
def takeResult (arr : Arrival) (m : Msg) (t : Tracker) (s : State) : State :=
  if trkOp t ≠ opAtomic ∨ m.dslots.toNat ≠ (if m.aux = stOk then 1 else 0) then badResponse arr s
  else
    let s := onlyIf (m.aux == stOk || m.aux == stDataError) (sendOrDrop (.own t.part) (releaseMsg s t)) s
    takeStatus t m (m.data.take 16) s

def doAtomicResult (arr : Arrival) (m : Msg) (s : State) : State := onResponse arr m (takeResult arr m) s

end Sys2Proof.Machine
end

