-- ==== Sys2Proof/Machine/Target.lean ====
section
/-! DEFINITION. The target side of remote requests: checks, import windows, open runs, the order in
which requests are performed, and atomics (08 R209 to R215, R221, R233 to R237; 10 R303, R304). -/

namespace Sys2Proof.Machine

/-! ### Import windows (10 R303, R304, R306) -/

def winDisabled : BitVec 2 := 0
def winEnabled : BitVec 2 := 1
def winWithdrawing : BitVec 2 := 2

/-- First byte of a window, and bytes it covers. -/
def winBase (w : Window) : Nat := w.base.toNat * 4096
def winBytes (w : Window) : Nat := w.pages.toNat * 4096

/-- The enabled window that covers every byte of a span (08 R212, 10 R306). -/
def findWindow (s : State) (a n : Nat) : Option Nat :=
  (s.xlt.windows.find? (fun x =>
    x.2.state == winEnabled && decide (winBase x.2 ≤ a) && decide (a + n ≤ winBase x.2 + winBytes x.2))).map (·.1)

/-- The local physical address that a window gives (10 R303). -/
def winPa (w : Window) (a : Nat) : Nat := bitsOf w.map.toNat 12 36 * 4096 + (a - winBase w)

/-- The counter at an address of a counter window (10 R304). -/
def winCounter (w : Window) (a : Nat) : Nat := bitsOf w.map.toNat 0 16 + (a - winBase w) / 8

/-- The window admits a source (10 R303). -/
def winAdmits (w : Window) (src : Nat) : Bool := Nat.land src w.srcMask.toNat == Nat.land w.srcValue.toNat w.srcMask.toNat

/-! ### The checks of R212 -/

/-- Reserved fields of a full header, and bytes within one 4 KiB granule (08 R206, R209). -/
def headerOk (m : Msg) : Bool :=
  m.flags.toNat / 16 == 0 && m.source.toNat / 2 ^ 17 == 0 && m.target.toNat / 2 ^ 17 == 0 && m.tail == 0 &&
    decide (1 ≤ m.length.toNat) && decide (m.length.toNat ≤ 4096) &&
    decide (m.addr.toNat % 4096 + m.length.toNat ≤ 4096)

/-- The form check (08 R208, R209, R212, R218, R219). -/
def formOk (m : Msg) : Bool :=
  headerOk m &&
    (if m.opcode = opRead then m.dslots == 0 && m.attr == 0
     else if m.opcode = opWrite then m.dslots.toNat == slotsFor (min m.length.toNat 192) && m.attr == 0
     else if m.opcode = opFill then m.dslots == 1 && m.attr == 0
     else m.opcode == opAtomic && attrOk m.attr && m.length.toNat == atomicWidth m.attr &&
       m.addr.toNat % atomicWidth m.attr == 0 &&
       m.dslots.toNat == (if atomicWidth m.attr = 16 ∧ bitsOf m.attr.toNat 0 4 = 6 then 2 else 1))

/-- The right that a request needs (08 R212). -/
def reqRight (m : Msg) : BitVec 3 :=
  if m.opcode = opRead then rightRead else if m.opcode = opAtomic then rightAtomic else rightWrite

/-- What a counter window accepts (10 R304). -/
def counterOk (m : Msg) : Bool :=
  (m.opcode == opAtomic && bitsOf m.attr.toNat 0 4 == 0 && atomicWidth m.attr == 8) ||
    (m.opcode == opRead && m.length.toNat % 8 == 0 && m.addr.toNat % 8 == 0)

/-- The window, key and access checks: the window admitted under, or `none` for RIGHTS (08 R212). -/
def checkWindow (s : State) (m : Msg) : Option Nat :=
  match findWindow s m.addr.toNat m.length.toNat with
  | none => none
  | some w =>
    let x := winOf s w
    match winPart s w with
    | none => none
    | some p =>
      if m.pkey = (partRec s p).key ∧ (partOf s p).state = partReady ∧ grants x.rights (reqRight m) ∧
          winAdmits x (srcEp m) ∧ (!x.counter || counterOk m) then some w
      else none

/-- An endpoint that drains admits nothing new (15 R426 step 4, R427). -/
def admits (s : State) : Bool := s.err.drainState == 0

/-- Refuse a request (08 R208, R212). -/
def refuse (m : Msg) (st : Byte) (s : State) : State := sendOrDrop .steward (refusalOf s m st) s

/-! ### Performing requests in order (08 R214, R215) -/

def modTarget (id : Nat) (f : TargetOp → TargetOp) (s : State) : State :=
  countTrk (fun k => { k with targetOps := k.targetOps.map (fun o => if o.id = id then f o else o) }) s

def targetOf (s : State) (id : Nat) : Option TargetOp := s.trk.targetOps.find? (fun o => o.id == id)

/-- The request acts on counters (10 R304). -/
def onCounters (s : State) (o : TargetOp) : Bool := (winOf s o.window).counter

/-- The channels that a span touches. -/
def spanChannels (s : State) (a n : Nat) : List (Fin 16) := (memPieces (memUnit s) (n + 1) a n 0).map (fun x => memChannel s x.1)

/-- Earlier unfinished class 0 requests of the same source. -/
def earlierOps (s : State) (o : TargetOp) : List TargetOp :=
  if classOf o.msg.flags ≠ 0 then []
  else (s.trk.targetOps.takeWhile (fun e => e.id != o.id)).filter (fun e =>
    classOf e.msg.flags == 0 && e.msg.source == o.msg.source)

/-- A later access may follow an earlier request at once: both lie on one memory channel (08
R214). -/
def mayFollow (s : State) (c : Fin 16) (e : TargetOp) : Bool :=
  e.kind != .atomic && !onCounters s e && e.complete && e.waiting.isEmpty &&
    (spanChannels s e.pa e.length).all (· == c)

/-- An atomic follows one on the same line, which its unit applies in order (08 R221). -/
def sameLine (s : State) (pa : Nat) (e : TargetOp) : Bool :=
  e.kind == .atomic && !onCounters s e && decide (e.pending = 1) && e.pa / 128 == pa / 128

/-- The bytes of counters from an address on (10 R304). -/
def counterBytes (s : State) (w : Window) (a n : Nat) : List Byte :=
  (upTo (n / 8) (fun i => leBytes 8 (cntOf s (winCounter w a + i)).toNat)).flatten

/-- READ_DATA pieces of a read (08 R209). -/
def dataMsgs (s : State) (m : Msg) : Nat → Nat → List Byte → List Msg
  | 0, _, _ => []
  | fuel + 1, k, bs =>
    if bs.isEmpty then []
    else
      let d := bs.take 224
      { responseTo s m opReadData (BitVec.ofNat 8 k) with
          dslots := BitVec.ofNat 8 (slotsFor d.length), data := padTo (16 * slotsFor d.length) d } ::
        dataMsgs s m fuel (k + 1) (bs.drop 224)

/-- Send the pieces of a read. -/
def sendData (m : Msg) (bs : List Byte) (s : State) : State :=
  forEach (dataMsgs s m (bs.length + 1) 0 bs) (sendOrDrop .steward) s

/-- The response of a request that has been performed (08 R208, R212, R237). -/
def answerTarget (o : TargetOp) (s : State) : State :=
  if o.silent ∨ o.kind = .atomic then s
  else if o.failed then
    refuse o.msg stDataError (countTrk (fun k => { k with dataErrorsSent := satInc k.dataErrorsSent }) s)
  else match o.kind with
    | .read => sendData o.msg (o.got.flatMap (·.2)) s
    | _ => sendOrDrop .steward (responseTo s o.msg opAck stOk) s

/-- Issue the parts of a request whose turn has come. -/
def issueParts' (o : TargetOp) (s : State) : State :=
  forEach o.waiting (fun p s =>
    let c := memChannel s p.addr
    if (earlierOps s o).all (mayFollow s c) then
      memIssue (if o.kind = .read then .read else .write) (.target o.id) p.addr p.len p.off p.data none
        (modTarget o.id (fun o => { o with waiting := o.waiting.erase p, pending := o.pending + 1 }) s)
    else s) s

/-- Perform an atomic or a request on counters whose turn has come (08 R221; 10 R304). -/
def performNow (o : TargetOp) (s : State) : State :=
  let m := o.msg
  let w := winOf s o.window
  if w.counter then
    if !(earlierOps s o).isEmpty then s
    else if o.kind = .read then
      modTarget o.id (fun o => { o with pending := 0, got := [(0, counterBytes s w m.addr.toNat m.length.toNat)] }) s
    else
      let k := winCounter w m.addr.toNat
      let old := cntOf s k
      storeResult m stOk old.toNat (addCounter k (BitVec.ofNat 64 (atomicOperands m).1)
        (modTarget o.id (fun o => { o with pending := 0 })
          (countTrk (fun t => { t with executed := satInc t.executed }) s)))
  else if (earlierOps s o).all (sameLine s o.pa) then
    giveUnit { msg := m, pa := o.pa, target := some o.id } (modTarget o.id (fun o => { o with pending := 1 }) s)
  else s

/-- The request is one that is performed at once when its turn comes, and it has not been: its
`pending` is 2 until then. -/
def awaitsTurn (o : TargetOp) : Bool := o.pending == 2 && o.waiting.isEmpty && o.complete

/-- Marks of a request whose turn has not come. -/
def isWhole (s : State) (o : TargetOp) : Bool := o.kind == .atomic || onCounters s o

/-- Let one request go on, and answer it when it is performed. -/
def pumpOne (id : Nat) (s : State) : State :=
  match targetOf s id with
  | none => s
  | some o =>
    let s := if isWhole s o then (if awaitsTurn o then performNow o s else s) else issueParts' o s
    match targetOf s id with
    | none => s
    | some o =>
      if o.complete && o.pending == 0 && o.waiting.isEmpty then
        answerTarget o (countTrk (fun k => { k with targetOps := k.targetOps.filter (fun x => x.id != id) }) s)
      else s

/-- Let every request go on, oldest first (08 R214). -/
def pumpTargets (s : State) : State := forEach (s.trk.targetOps.map (·.id)) pumpOne s

/-- A memory access of a request has been answered (08 R212, R237). -/
def targetAccess (id off : Nat) (bytes : List Byte) (bad : Bool) (s : State) : State :=
  pumpTargets (modTarget id (fun o => { o with
    pending := o.pending - 1, failed := o.failed || bad
    got := if o.kind = .read ∧ bad = false then tabSet [] off bytes o.got else o.got }) s)

/-- The atomics of a unit are performed (08 R214, R221). -/
def atomicsDone (as : List AtomicOp) (s : State) : State :=
  pumpTargets (forEach as (fun a s => match a.target with
    | some id => modTarget id (fun o => { o with pending := 0 }) s
    | none => s) s)

/-- Admit a request: it takes its place behind those admitted before. -/
def admitOp (m : Msg) (kind : TargetKind) (w : Nat) (parts : List TargetPart) (complete : Bool) (s : State) : State :=
  let x := winOf s w
  let id := s.trk.nextId
  let o : TargetOp :=
    { id := id, msg := m, kind := kind, pa := if x.counter then 0 else winPa x m.addr.toNat
      length := m.length.toNat, window := w, waiting := parts, complete := complete
      pending := if kind = .atomic ∨ x.counter = true then 2 else 0 }
  countTrk (fun k => { k with nextId := id + 1, targetOps := k.targetOps ++ [o] }) s

/-- The parts of a span, one for each memory request it takes (02 R31). -/
def spanParts (s : State) (pa n off : Nat) (data : List Byte) : List TargetPart :=
  (memPieces (memUnit s) (n + 1) pa n 0).map (fun x =>
    { addr := x.1, len := x.2.1, off := off + x.2.2, data := bytesAt data x.2.2 x.2.1 })

/-! ### Requests (08 R211, R212) -/

/-- Check a request that is no ATOMIC, and perform it when it passes (08 R212). -/
def checked (m : Msg) (f : Nat → State → State) (s : State) : State :=
  if !formOk m then refuse m stMalformed s
  else if !admits s then refuse m stRights s
  else match checkWindow s m with
    | none => refuse m stRights s
    | some w => pumpTargets (f w s)

/-- READ (08 R208, R212). -/
def takeRead (m : Msg) (s : State) : State :=
  checked m (fun w s =>
    let x := winOf s w
    admitOp m .read w (if x.counter then [] else spanParts s (winPa x m.addr.toNat) m.length.toNat 0 []) true s) s

/-- FILL: byte i takes pattern byte i mod 16 (08 R208). -/
def takeFill (m : Msg) (s : State) : State :=
  checked m (fun w s =>
    let n := m.length.toNat
    admitOp m .write w (spanParts s (winPa (winOf s w) m.addr.toNat) n 0 (upTo n (fun i => m.data.getD (i % 16) 0))) true s) s

/-- Close a run incomplete: what it wrote stays, and no ACK is sent (08 R211). -/
def closeRun (r : OpenRun) (s : State) : State :=
  let s := countTrk (fun k => { k with
    openRuns := k.openRuns.filter (fun x => x != r), gapCloses := satInc k.gapCloses }) s
  pumpTargets (modTarget r.op (fun o => { o with complete := true, silent := true }) s)

/-- The open run of a message's key. -/
def runOfKey (s : State) (source tag : BitVec 32) : Option OpenRun :=
  s.trk.openRuns.find? (fun r => r.source == source && r.tag == tag)

/-- WRITE opener (08 R209, R211). -/
def takeWrite (m : Msg) (s : State) : State :=
  checked m (fun w s =>
    let s := match runOfKey s m.source m.tag with | some r => closeRun r s | none => s
    let pa := winPa (winOf s w) m.addr.toNat
    let n := m.length.toNat
    let k := min n 192
    let id := s.trk.nextId
    let s := admitOp m .write w (spanParts s pa k 0 (m.data.take k)) (decide (n ≤ 192)) s
    if n ≤ 192 then s
    else countTrk (fun t => { t with openRuns := t.openRuns ++
      [{ source := m.source, tag := m.tag, pa := pa, length := n, got := k, next := 1, window := w, op := id }] }) s) s

/-- A continuation that is discarded and logged (08 R211; log entry 23). -/
def strayCont (m : Msg) (s : State) : State :=
  logErr { cls := clsTransaction, sev := 0, unitKind := 5, addr := srcEp m }
    (countTrk (fun k => { k with strayConts := satInc k.strayConts }) s)

/-- CONT (08 R209, R211). -/
def takeCont (m : Msg) (s : State) : State :=
  match runOfKey s m.source m.tag with
  | none => strayCont m s
  | some r =>
    let n := min 224 (r.length - r.got)
    let (lost, s) := readRam (.openRun m.source m.tag) { cls := 0, sev := 2, unitKind := 5, addr := srcEp m } s
    if lost then strayCont m (closeRun r s) else
    if m.aux.toNat ≠ r.next ∨ m.dslots.toNat ≠ slotsFor n then strayCont m s
    else
      let last := decide (r.got + n = r.length)
      let ps := spanParts s (r.pa + r.got) n r.got (m.data.take n)
      let s := modTarget r.op (fun o => { o with waiting := o.waiting ++ ps, complete := last }) s
      let rest (l : List OpenRun) : List OpenRun :=
        if last then l.filter (fun x => x != r)
        else l.map (fun x => if x = r then { x with got := x.got + n, next := x.next + 1 } else x)
      pumpTargets (countTrk (fun k => { k with openRuns := rest k.openRuns }) s)

/-- OPEN_RUN_GAP_EXPIRY: 50 µs without the next continuation (08 R211). -/
def doOpenRunGap (source tag : BitVec 32) (s : State) : State :=
  match runOfKey s source tag with | none => s | some r => closeRun r s

/-! ### Atomics (08 R212, R221, R233 to R235) -/

/-- Entries of the replay table. -/
def replaySize : Nat := 16384

/-- A reissue that misses while the table is fresh, or on a draining endpoint, is answered AMBIGUOUS
(08 R235, 15 R426). -/
def answersAmbiguous (s : State) (m : Msg) : Bool := reissueOf m.flags && (tableFresh s || !admits s)

/-- The atomic must wait for an entry of the full replay table (08 R234). -/
def mustStall (s : State) (m : Msg) : Bool :=
  formOk m && (replayOf s m).isNone && !answersAmbiguous s m && admits s && (checkWindow s m).isSome &&
    decide (replaySize ≤ s.trk.replay.length)

/-- A hit in the replay table (08 R233). -/
def replayHit (e : ReplayEntry) (m : Msg) (s : State) : State :=
  let s := countTrk (fun k => { k with hits := satInc k.hits }) s
  if e.done then sendOrDrop .steward (atomicResultMsg s m e.status e.old.toNat) s
  else countTrk (fun k => { k with replay := k.replay.map (fun x =>
    if x.source = e.source ∧ x.tag = e.tag then { x with copies := x.copies ++ [m] } else x) }) s

/-- A reissue is answered AMBIGUOUS (08 R235, 15 R403). -/
def sendAmbiguous (m : Msg) (s : State) : State :=
  let s := countTrk (fun k => { k with ambigSent := satInc k.ambigSent }) s
  let s := logErr { cls := clsTransaction, sev := 2, unitKind := 6, addr := m.addr.toNat, cause := stAmbiguous.toNat } s
  refuse m stAmbiguous s

/-- An ATOMIC that has been taken (08 R212, R233, R235). -/
def takeAtomic (m : Msg) (s : State) : State :=
  if !formOk m then refuse m stMalformed s
  else match replayOf s m with
    | some e => replayHit e m s
    | none =>
      if answersAmbiguous s m then sendAmbiguous m s
      else if !admits s then refuse m stRights s
      else match checkWindow s m with
        | none => refuse m stRights s
        | some w => pumpTargets (admitOp m .atomic w [] true (reserveEntry m s))

/-- The message could be taken now. -/
def takeable (s : State) (arr : Arrival) (m : Msg) : Bool :=
  dstEp m == selfEp s && (takeArrival arr m s).isSome &&
    (match arr with | .self => true | .port n v => arrivalOk s n (v : Nat) m)

/-- ATOMIC: it waits in its VC buffer while the replay table is full, and is taken otherwise (08
R233, R234). -/
def doAtomic (arr : Arrival) (m : Msg) (s : State) : State :=
  if takeable s arr m && mustStall s m then
    (if (s.trk.stalled.contains (arr, m)) = true then s
     else countTrk (fun k => { k with stalled := k.stalled ++ [(arr, m)], fullStalls := satInc k.fullStalls }) s)
  else
    onArrival arr m (takeAtomic m) (countTrk (fun k => { k with stalled := k.stalled.erase (arr, m) }) s)

/-- Atomics that wait for an entry are taken when one is free (08 R234). -/
def retryStalled (s : State) : State := forEach s.trk.stalled (fun x => doAtomic x.1 x.2) s

/-- RELEASE (08 R234). -/
def takeRelease (m : Msg) (s : State) : State := retryStalled (freeEntry m.source m.tag s)

/-! ### Messages at this endpoint and in transit -/

def doRead (arr : Arrival) (m : Msg) (s : State) : State := onArrival arr m (takeRead m) s
def doWrite (arr : Arrival) (m : Msg) (s : State) : State := onArrival arr m (takeWrite m) s
def doFill (arr : Arrival) (m : Msg) (s : State) : State := onArrival arr m (takeFill m) s
def doCont (arr : Arrival) (m : Msg) (s : State) : State := onArrival arr m (takeCont m) s
def doRelease (arr : Arrival) (m : Msg) (s : State) : State := onArrival arr m (takeRelease m) s

/-- A management message is consumed by the steward; the spec defines none of its opcodes (08
R208). -/
def doManagement (arr : Arrival) (m : Msg) (s : State) : State := onArrival arr m id s

/-- TRANSIT_FORWARD (07 R197 to R205). -/
def doTransit (n : PortNo) (v : Fin 8) (m : Msg) (s : State) : State :=
  if dstEp m = selfEp s then s
  else match takeMsg n v m s with
    | none => s
    | some s => if arrivalOk s n (v : Nat) m then forwardMsg n v m s else discardArrival n s

/-! ### Withdrawal (10 R306) -/

/-- Nothing admitted under a window is unfinished (10 R306). -/
def winQuiet (s : State) (w : Nat) : Bool :=
  !s.trk.openRuns.any (fun r => r.window == w) && !s.trk.targetOps.any (fun o => o.window == w)

/-- WINDOW_WITHDRAWAL_COMPLETE (10 R306). -/
def doWindowDone (w : Nat) (s : State) : State :=
  if (winOf s w).state = winWithdrawing ∧ winQuiet s w = true then
    modWin w (fun x => { x with state := winDisabled }) s
  else s

end Sys2Proof.Machine
end

