-- ==== Sys2Proof/Machine/Queues.lean ====
section
/-! DEFINITION. Contexts and queues: commands, doorbells, periods, teardown, counters, and
INVALIDATE, fault queue and import window registers (09 R245 to R256, R272 to R274; 10 R290 to
R299, R303 to R306). -/

namespace Sys2Proof.Machine

/-- An effect of a register write: requester, data, byte enables; `none` is a refusal. -/
abbrev RegFun := Nat → Word → BitVec 8 → State → Option State

/-- CMD_REQ_PAR of privileged software. -/
def parPriv : Nat := 0x1F

/-- The requester is the owner, or privileged (17 R464). -/
def ownerOk (owner : Option PartNo) (par : Nat) : Bool :=
  par == parPriv || (match owner with | some p => p.val == par | none => false)

/-! ### Counters (09 R271) -/

/-- CNT_VALUE. -/
def wrCntValue (k : Nat) : RegFun := fun par v be s =>
  if ownerOk (cntPart s k) par then some (setCounter k (mergeBytes (cntOf s k) v be) s) else none

/-- CNT_ADD. -/
def wrCntAdd (k : Nat) : RegFun := fun par v be s =>
  if !ownerOk (cntPart s k) par then none
  else some (if fieldEnabled be 0 64 then addCounter k v s else s)

/-! ### Doorbells (09 R247, R255, R256; 17 R463) -/

/-- Queues bound to a context. -/
def ctxQueues (s : State) (c : CtxNo) : List QueueNo :=
  s.cq.queues.filterMap (fun x => if x.2.bound ∧ x.2.ctx = c then some ⟨x.1 % 4096, Nat.mod_lt _ (by decide)⟩ else none)

def countIgnored (s : State) : State := { s with cq := { s.cq with ignored := satInc s.cq.ignored } }

/-- A doorbell that breaks R256 (09 R251, R256). -/
def badDoorbell (k : QueueNo) (s : State) : State :=
  let s := { s with cq := { s.cq with bad := satInc s.cq.bad } }
  let st := (queueOf s k).state
  if st = qIdle ∨ st = qRunning then queueSettle k (setDraining k 2 s) else s

/-- An accepted doorbell moves TAIL (09 R251, R256, R257). -/
def goodDoorbell (k : QueueNo) (tail : BitVec 32) (s : State) : State :=
  let s := modQueue k (fun q => { q with tail := tail }) s
  let q := queueOf s k
  let s := if q.state = qIdle ∧ q.tail ≠ q.head then modQueue k (fun q => { q with state := qRunning }) s else s
  if (queueOf s k).state = qRunning then fetchNow k s else s

/-- The ring rule of R256. -/
def doorbellOk (q : Queue) (tail : BitVec 32) : Bool :=
  let d := aheadOf q tail
  decide (d ≤ 2 ^ ringLog2Of q) && decide (aheadOf q q.nextFetch ≤ d)

/-- Ring a queue's doorbell. -/
def ringDoorbell (k : QueueNo) (tail : BitVec 32) (s : State) : State :=
  let q := queueOf s k
  if q.bound ∧ (ctxOf s q.ctx).state ≠ ctxOpen then countIgnored s
  else if doorbellOk q tail then goodDoorbell k tail s
  else badDoorbell k s

/-- A doorbell slot (17 R463; 14 R381). -/
def wrDoorbell (k : QueueNo) : RegFun := fun par v be s =>
  if !ownerOk (queuePart s k) par then none
  else if be = 0 then some s
  else if be.toNat % 16 ≠ 15 then none
  else if par < 16 ∧ (partOf s par).state ≠ partReady then some (countIgnored s)
  else some (ringDoorbell k (v.setWidth 32) s)

/-! ### Queue registers (09) -/

/-- A register of a queue that accepts writes only while the queue is HALTED. -/
def haltedReg (k : QueueNo) (f : Word → BitVec 8 → Queue → Queue) : RegFun := fun par v be s =>
  if ownerOk (queuePart s k) par && (queueOf s k).state == qHalted then some (modQueue k (f v be) s) else none

/-- Q_RING, Q_CONFIG and Q_PERIOD as they read. -/
def rdQRing (q : Queue) : Word := packFields [(12, 52, q.ringVa.toNat)]
def rdQConfig (q : Queue) : Word :=
  packFields [(0, 5, q.ringLog2.toNat), (5, 5, q.chunkLog2.toNat), (10, 4, q.maxInflight.toNat),
    (14, 6, q.spread.toNat), (20, 1, b2n q.xltMode), (21, 1, b2n q.periodic)]
def rdQPeriod (q : Queue) : Word := packFields [(0, 32, q.periodCclk.toNat)]

def wrQRing (k : QueueNo) : RegFun := haltedReg k (fun v be q =>
  { q with ringVa := BitVec.ofNat 52 (fld (mergeBytes (rdQRing q) v be) 12 52) })

def wrQConfig (k : QueueNo) : RegFun := haltedReg k (fun v be q =>
  let r := mergeBytes (rdQConfig q) v be
  { q with ringLog2 := BitVec.ofNat 5 (fld r 0 5), chunkLog2 := BitVec.ofNat 5 (fld r 5 5)
           maxInflight := BitVec.ofNat 4 (fld r 10 4), spread := BitVec.ofNat 6 (fld r 14 6)
           xltMode := bitOf r.toNat 20, periodic := bitOf r.toNat 21 })

def wrQPeriod (k : QueueNo) : RegFun := haltedReg k (fun v be q =>
  { q with periodCclk := BitVec.ofNat 32 (fld (mergeBytes (rdQPeriod q) v be) 0 32) })

/-! ### Periods (09 R272 to R274) -/

/-- One more descriptor of a queue has completed with LATE. -/
def countLate (k : QueueNo) (s : State) : State := modQueue k (fun q => { q with lateCount := satInc q.lateCount }) s

/-- A running descriptor's record is written with LATE now, by a run of its own, and what it has outstanding is resolved in
the background (09 R273). -/
def lateNow (k : QueueNo) (r : Run) (s : State) : State :=
  let id := s.cq.nextId
  let rec_ : Run := { recordRun id k r.ctx r.part r.index r.desc with
    progress := r.progress, restarted := r.restarted, resBytes := r.resBytes }
  let s := modRun r.id (fun r => { r with
    queue := none, phase := .aborting, statusLost := true, statusWait := none, key := none, waitTrk := false
    chunks := r.chunks.map (fun j => { j with mover := 32 }) }) s
  let s := settleRun r.id (dropUnsent r.id s)
  finalWrite id stLate { s with cq := { s.cq with nextId := id + 1, runs := s.cq.runs ++ [rec_] } }

/-- A descriptor that still runs at the end of its period leaves its queue (09 R273, R274).  One that has ended keeps its
status while its record is being written; one whose record waits for a translation completes with LATE and tries again;
a SEALED_COPY first zeroes what it wrote (09 R268); every other one completes with LATE now. -/
def lateRun (k : QueueNo) (r : Run) (s : State) : State :=
  let s := modRun r.id (fun r => { r with detached := true }) s
  if r.phase = .ending ∨ r.phase = .doneWrite then
    match r.statusWait with
    | none => s
    | some pt => putStatus r.id pt (countLate k (modRun r.id (fun r => { r with status := stLate, faulted := false }) s))
  else if r.phase = .zeroing then s
  else if r.wrote.isEmpty then lateNow k r (countLate k s)
  else settleRun r.id (dropUnsent r.id (countLate k
    (modRun r.id (fun r => { r with phase := .aborting, failed := some stLate, statusWait := none }) s)))

/-- Ring counts from one to another. -/
def ringSpan (a b : BitVec 32) : List (BitVec 32) := upTo ((b - a).toNat % 65537) (fun i => a + BitVec.ofNat 32 i)

/-- Descriptors of the period that never started (09 R273). -/
def lateUnstarted (k : QueueNo) (p : PartNo) (s : State) : State :=
  let q := queueOf s k
  forEach (ringSpan q.nextStart q.releasePt) (fun i s =>
    match q.fetched.find? (fun f => f.index == i) with
    | some f => if f.bad then s else lateRecord k p i f.desc s
    | none => modQueue k (fun q => { q with lateOwed := q.lateOwed ++ [i] }) s) s

/-- A period ends and the next begins (09 R272 to R274). -/
def periodEnd (k : QueueNo) (p : PartNo) (s : State) : State :=
  let before := (queueOf s k).lateCount
  let s := forEach (queueRuns s k) (lateRun k) (lateUnstarted k p s)
  let late := (queueOf s k).lateCount ≠ before || !(queueOf s k).lateOwed.isEmpty
  let now := s.nowUs
  let s := modQueue k (fun q =>
    let rel := q.releasePt
    { q with
      nextStart := rel, head := rel
      fetched := q.fetched.filter (fun f => decide ((f.index - rel).toNat < 2 ^ 31))
      ringFault := false, aborting := false
      periods := q.periods + 1, latePeriods := if late then satInc q.latePeriods else q.latePeriods
      releasePt := q.tail, periodStart := now
      state := if q.tail = rel then qIdle else qRunning }) s
  fetchNow k s

/-- PERIOD_END: a HALTED queue counts no periods, and one whose context is torn down ends with it
(09 R247, R274). -/
def doPeriodEnd (k : QueueNo) (s : State) : State :=
  let q := queueOf s k
  match queuePart s k with
  | some p =>
    if q.periodic && q.bound && q.state != qHalted && (ctxOf s q.ctx).state == ctxOpen && takesTurns s p then
      periodEnd k p s
    else s
  | none => s

/-! ### Teardown (09 R246, R247) -/

/-- Requests of an aperture part that have not been sent (09 R247 step 3). -/
def partUnsent (s : State) (a : Aperture) (k : Nat) (p : AperPart) : Bool :=
  p.status.isNone &&
    (!p.sent ||
     (s.trk.held.filterMap (trackerOf s)).any (fun t => t.owner == .aperture a.id k) ||
     s.memWaiting.any (fun r => r.owner == .aperture a.id && r.off == k))

/-- An aperture request's unsent parts end with ABORTED (09 R247 step 3). -/
def abortAper (a : Aperture) (s : State) : State :=
  forEach (a.parts.zipIdx) (fun x s =>
    if partUnsent s a x.2 x.1 then
      let s := { s with memWaiting := s.memWaiting.filter (fun r => !(r.owner == .aperture a.id && r.off == x.2)) }
      let s := forEach ((s.trk.held.filterMap (trackerOf s)).filter (fun t => t.owner == .aperture a.id x.2))
        (fun t => freeTracker t.index) s
      partEnd a.id x.2 stAborted [] s
    else s) s

/-- Steps 2 and 3 of R247, with the status that its running descriptors end with. -/
def stopContext (c : CtxNo) (s : State) : State :=
  let s := forEach (ctxQueues s c) (fun k s =>
    if (queueOf s k).state = qHalted ∨ (queueOf s k).state = qDraining then s else setDraining k 4 s) s
  let s := forEach (s.cq.runs.filter (fun r => r.ctx == c)) (fun r => abortRun stAborted r.id) s
  let s := forEach (s.aper.filter (fun a => a.req.ctx == c)) abortAper s
  forEach (ctxQueues s c) (fun k => queueSettle k) s

/-- Steps 1 to 3 of R247. -/
def closeContext (c : CtxNo) (s : State) : State :=
  let s := modCtx c (fun x => { x with state := ctxClosing }) s
  stopContext c (disarm (fun a => a.ctx == c) s)

/-- Nothing of a closing context is left (09 R247 step 6). -/
def ctxResolved (s : State) (c : CtxNo) : Bool :=
  (ctxQueues s c).all (fun k => (queueOf s k).state == qHalted) &&
    !s.cq.runs.any (fun r => r.ctx == c) && !s.trk.trackers.any (fun t => t.ctx == c)

/-- TEARDOWN_RESOLVED (09 R246, R247 step 6). -/
def doTeardownResolved (c : CtxNo) (s : State) : State :=
  let ready := match ctxPart s c with | some p => (partOf s p).state == partReady | none => false
  if (ctxOf s c).state = ctxClosing ∧ ctxResolved s c = true ∧ ready = true then
    modCtx c (fun x => { x with state := ctxQuarantine, quarantineUs := respTimeoutOf s }) s
  else s

/-- A context becomes FREE: its queues are unbound and its ranges dropped (09 R246). -/
def freeContext (c : CtxNo) (s : State) : State :=
  let s := forEach (ctxQueues s c) (fun k => modQueue k (fun q => { q with bound := false })) s
  removeRanges (fun r => r.ctx == c) (modCtx c (fun x => { x with state := ctxFree, quarantineUs := 0 }) s)

/-- QUARANTINE_EXPIRY (09 R246, R247 step 7). -/
def doQuarantineExpiry (c : CtxNo) (s : State) : State :=
  if (ctxOf s c).state = ctxQuarantine then freeContext c s else s

/-! ### Queue commands (09 R253) -/

/-- Q_BIND. -/
def bindQueue (k : QueueNo) (c : CtxNo) (s : State) : Option State :=
  let q := queueOf s k
  if q.state = qHalted ∧ q.bound = false ∧ (ctxOf s c).state = ctxOpen ∧ ctxPart s c = queuePart s k then
    some (modQueue k (fun q => { q with
      bound := true, ctx := c, head := 0, tail := 0, nextStart := 0, nextFetch := 0, fetched := [], lateOwed := [] }) s)
  else none

/-- Q_UNBIND. -/
def unbindQueue (k : QueueNo) (s : State) : Option State :=
  let q := queueOf s k
  if q.state = qHalted ∧ q.bound = true then some (modQueue k (fun q => { q with bound := false }) s) else none

/-- Q_ENABLE; the first period of a periodic queue starts (09 R253, R272). -/
def enableQueue (k : QueueNo) (s : State) : Option State :=
  let q := queueOf s k
  if q.state = qHalted ∧ q.bound = true ∧ (ctxOf s q.ctx).state = ctxOpen then
    let now := s.nowUs
    some (fetchNow k (modQueue k (fun q => { q with
      state := if q.tail = q.head then qIdle else qRunning, errCause := 0
      nextStart := q.head, nextFetch := q.head, fetched := []
      periods := if q.periodic then 0 else q.periods, releasePt := q.tail, periodStart := now }) s))
  else none

/-- Each running descriptor of a queue aborts (09 R253). -/
def abortQueue (k : QueueNo) (s : State) : State :=
  queueSettle k (forEach (queueAll s k) (fun r => abortRun (haltStatus r) r.id)
    (modQueue k (fun q => { q with aborting := true }) s))

/-- Q_HALT (09 R253). -/
def haltByCommand (k : QueueNo) (abort : Bool) (s : State) : Option State :=
  let q := queueOf s k
  if q.state = qIdle then
    some (modQueue k (fun q => { q with state := qHalted, errCause := 5 }) s)
  else if q.state = qRunning then
    let s := setDraining k 5 s
    some (if abort then abortQueue k s else queueSettle k s)
  else if q.state = qSwitchedOut then
    some (abortQueue k (modQueue k (fun q => { q with
      state := qHalted, errCause := 5, head := q.nextStart, nextFetch := q.nextStart, fetched := [], ringFault := false }) s))
  else if q.state = qDraining ∧ abort = true then some (abortQueue k s)
  else none

/-- Q_RESUME (09 R253, R267): stopped descriptors go on, waiting status records are written. -/
def resumeQueue (k : QueueNo) (s : State) : Option State :=
  let q := queueOf s k
  if q.state = qSwitchedOut ∧ (ctxOf s q.ctx).state = ctxOpen then
    let s := modQueue k (fun q => { q with state := qRunning, ringFault := false }) s
    let s := forEach (queueAll s k) (fun r s =>
      let s := if r.phase = .stopped then modRun r.id (resumeRun (chunkSize s r)) s
        else if r.op = dCollective then modRun r.id (fun r => { r with stopping := false, faulted := false }) s
        else modRun r.id (fun r => if r.statusWait.isSome then { r with faulted := false } else r) s
      match r.statusWait with | some pt => putStatus r.id pt s | none => s) s
    some (queueSettle k (fetchNow k s))
  else none

/-! ### INVALIDATE (10 R290, R291) -/

/-- Slot r belongs to the requester. -/
def slotOwner (r par : Nat) : Bool := if r = 16 then par == parPriv else par == r

def invOf (s : State) (r : Nat) : InvSlot := tabGet {} s.xlt.inv r
def modInv (r : Nat) (f : InvSlot → InvSlot) (s : State) : State :=
  { s with xlt := { s.xlt with inv := tabMod {} r f s.xlt.inv } }

def wrInvAddr (r : Nat) : RegFun := fun par v be s =>
  if slotOwner r par then some (modInv r (fun i => { i with addr := mergeBytes i.addr v be }) s) else none
def wrInvLen (r : Nat) : RegFun := fun par v be s =>
  if slotOwner r par then
    some (modInv r (fun i => { i with len := (mergeBytes (i.len.setWidth 64) v be).setWidth 45 }) s)
  else none

/-- An entry of the context overlaps the span, widened to 4 KiB granules (10 R290 step 1); bits [11:0] of the address are
ignored (10 XLT_INV_ADDR). -/
def invHits (c : CtxNo) (addr : Word) (len : Nat) (r : Range) : Bool :=
  r.ctx == c && (len == 0 || decide (2 ^ 44 < len) ||
    (decide (r.start ≤ addr.toNat / 4096 + (len - 1) / 4096) &&
     decide (addr.toNat / 4096 < r.start + r.pages)))

/-- Steps 1 and 2 of R290. -/
def invalidateSpan (c : CtxNo) (addr : Word) (len : Nat) (s : State) : State :=
  let s := removeRanges (invHits c addr len) s
  let s := modCtx c (fun x => { x with epoch := x.epoch + 1, usesOld := x.usesOld + x.usesCur, usesCur := 0 }) s
  let e := (ctxOf s c).epoch
  let renew (r : Range) : Range := if r.ctx = c then { r with epoch := e } else r
  { s with
    xlt := { s.xlt with
      cache := s.xlt.cache.map renew, buffers := s.xlt.buffers.map (fun b => (b.1, b.2.map renew))
      given := s.xlt.given.map (fun x => (x.1, renew x.2)) }
    cq := { s.cq with runs := s.cq.runs.map (fun t => { t with heldRanges := t.heldRanges.map renew }) } }

/-- Step 4 of R290 (14 R382). -/
def invComplete (r : Nat) (s : State) : State :=
  let i := invOf s r
  if i.busy ∧ (ctxOf s i.ctx).usesOld = 0 then
    let s := modInv r (fun i => { i with busy := false, doneSeq := i.doneSeq + 1 }) s
    match i.irq, ctxPart s i.ctx with
    | true, some p => irqMapped p causeInvalidate s
    | _, _ => s
  else s

/-- The checks of R291, and 14 R381: the code the command answers. -/
def invCode (r : Nat) (par : Nat) (v : Word) (s : State) : Byte :=
  let c : CtxNo := ⟨fld v 0 10 % 1024, Nat.mod_lt _ (by decide)⟩
  if fld v 10 6 ≠ 0 ∨ fld v 17 47 ≠ 0 then stMalformed
  else if !ownerOk (ctxPart s c) par then stRights
  else if (match ctxPart s c with | some p => (partOf s p).state != partReady | none => false) then stStateRefused
  else if (invOf s r).busy ∨ (ctxOf s c).state = ctxFree then stStateRefused
  else stOk

/-- XLT_INV_CMD. -/
def wrInvCmd (r : Nat) : RegFun := fun par v be s =>
  if !slotOwner r par then none
  else if !fieldEnabled be 0 10 then some s
  else
    let v := v &&& beMask be
    let code := invCode r par v s
    let s := modInv r (fun i => { i with code := code }) s
    if code ≠ stOk then some s
    else
      let c : CtxNo := ⟨fld v 0 10 % 1024, Nat.mod_lt _ (by decide)⟩
      let s := modInv r (fun i => { i with busy := true, ctx := c, irq := bitOf v.toNat 16 }) s
      let i := invOf s r
      some (invComplete r (invalidateSpan c i.addr i.len.toNat s))

/-! ### Fault queue registers (10 R296 to R298) -/

def fqOwner (p : PartNo) (par : Nat) : Bool := par == parPriv || par == p.val

def wrFqBase (p : PartNo) : RegFun := fun par v be s =>
  if par == parPriv && fqLog2 (fqOf s p) == 0 then
    some (modFq p (fun f => { f with base := BitVec.ofNat 42 (fld (mergeBytes (packFields [(6, 42, f.base.toNat)]) v be) 6 42) }) s)
  else none

def wrFqCfg (p : PartNo) : RegFun := fun par v be s =>
  if par != parPriv then none
  else if be.getLsbD 0 then
    some (modFq p (fun f => { f with log2 := BitVec.ofNat 5 (fld v 0 5), head := 0, tail := 0, overflowed := false })
      (forEach (fqOf s p).writing (fun x => overflowFault p x.1) (dropFaults p s)))
  else some s

/-- A write of HEAD outside the span from the present HEAD to TAIL is refused; OVERFLOWED clears
when HEAD reaches TAIL (10 R296, R297). -/
def wrFqPtrs (p : PartNo) : RegFun := fun par v be s =>
  if !fqOwner p par then none
  else if !fieldTouched be 0 32 then some s
  else
    let f := fqOf s p
    let h := (mergeBytes (f.head.setWidth 64) v be).setWidth 32
    if (h - f.head).toNat ≤ (f.tail - f.head).toNat then
      some (modFq p (fun f => { f with head := h, overflowed := f.overflowed && h != f.tail }) s)
    else none

/-- XLT_STICKY: W1C; a partition's writes to others' flags are ignored (10 R298). -/
def wrSticky (w : Fin 16) : RegFun := fun par v be s =>
  let v := v &&& beMask be
  some (forEach (List.range 64) (fun b s =>
    let c := 64 * w.val + b
    if v.getLsbD b && ownerOk (ctxPart s c) par then modCtx c (fun x => { x with sticky := false }) s else s) s)

/-! ### Import window registers (10 R303 to R306) -/

/-- A window's field that accepts writes only while it is DISABLED. -/
def disabledReg (w : Nat) (f : Word → BitVec 8 → Window → Window) : RegFun := fun par v be s =>
  if ownerOk (winPart s w) par && (winOf s w).state == winDisabled then some (modWin w (f v be) s) else none

def wrWinBase (w : Nat) : RegFun := disabledReg w (fun v be x =>
  { x with base := BitVec.ofNat 52 (fld (mergeBytes (packFields [(12, 52, x.base.toNat)]) v be) 12 52) })
def wrWinSize (w : Nat) : RegFun := disabledReg w (fun v be x =>
  { x with pages := (mergeBytes (x.pages.setWidth 64) v be).setWidth 32 })
def wrWinMap (w : Nat) : RegFun := disabledReg w (fun v be x =>
  { x with map := (mergeBytes (x.map.setWidth 64) v be).setWidth 48 })
def wrWinSrc (w : Nat) : RegFun := disabledReg w (fun v be x =>
  let r := mergeBytes (packFields [(0, 17, x.srcValue.toNat), (32, 17, x.srcMask.toNat)]) v be
  { x with srcValue := BitVec.ofNat 17 (fld r 0 17), srcMask := BitVec.ofNat 17 (fld r 32 17) })

/-- The window overlaps another that is ENABLED or WITHDRAWING (10 R305). -/
def winOverlaps (s : State) (w : Nat) (x : Window) : Bool :=
  s.xlt.windows.any (fun y => y.1 != w && y.2.state != winDisabled &&
    decide (winBase x < winBase y.2 + winBytes y.2) && decide (winBase y.2 < winBase x + winBytes x))

/-- The conditions of R305. -/
def winEnableOk (s : State) (w : Nat) (x : Window) : Bool :=
  x.pages != 0 && decide (x.base.toNat + x.pages.toNat ≤ 2 ^ 52) && !winOverlaps s w x &&
    (match winPart s w with
     | none => false
     | some p =>
       let r := partRec s p
       if x.counter then
         decide (r.cntBase ≤ bitsOf x.map.toNat 0 16) &&
           decide (bitsOf x.map.toNat 0 16 + x.pages.toNat * 512 ≤ r.cntBase + r.cntCount)
       else decide ((bitsOf x.map.toNat 12 36 + x.pages.toNat) * 4096 ≤ memLimit s))

/-- XLT_WIN_CTRL (10 R305, R306; 14 R381). -/
def wrWinCtrl (w : Nat) : RegFun := fun par v be s =>
  if !ownerOk (winPart s w) par then none
  else if !be.getLsbD 0 then some s
  else
    let x := winOf s w
    let en := bitOf v.toNat 2
    let wd := bitOf v.toNat 3
    let ready := match winPart s w with | some p => (partOf s p).state == partReady | none => false
    if x.state = winDisabled then
      let y := { x with rights := BitVec.ofNat 3 (fld v 4 3), counter := bitOf v.toNat 7 }
      if wd then none
      else if en then
        if winEnableOk s w y && ready then some (modWin w (fun _ => { y with state := winEnabled }) s) else none
      else some (modWin w (fun _ => y) s)
    else if wd && !en && x.state == winEnabled then some (modWin w (fun x => { x with state := winWithdrawing }) s)
    else none

end Sys2Proof.Machine
end

