-- ==== Sys2Proof/Machine/Beaters.lean ====
section
/-! DEFINITION. The Beaters: which piece each takes, what one makes of it, repeats, and the self-test
(12 R335 to R337, R349 to R357; 14 R393; 15 R416, R430). -/

namespace Sys2Proof.Machine

/-! ### Which piece a Beater takes (12 R336; 14 R393) -/

def beaterServes (s : State) (b : Nat) : Bool := (beaterOf s b).state == 1

/-- A Beater in service with nothing to do. -/
def beaterIdle (s : State) (b : Nat) : Bool := beaterServes s b && (beaterOf s b).job.isNone

/-- The piece of a job. -/
def jobPiece (s : State) (j : BeatJob) : Option Piece :=
  (ringAt (planOf s j.plan) (j.ring / 4) (j.ring % 4)).pieces.find? (fun u => u.seq == j.seq)

/-- Granules of a job. -/
def jobGranules (s : State) (j : BeatJob) : Nat := match jobPiece s j with | some u => u.size / 256 | none => 0

/-- A repeat may run on a Beater: not on the one that failed, while another is in service (12 R354,
R355). -/
def repeatOn (s : State) (b : Nat) (j : BeatJob) : Bool :=
  j.repeated && (b != j.avoid || !(List.range 8).any (fun c => c != b && beaterServes s c))

/-- The least of the keys from `last` on, or the least of all. -/
def nextKey (last : Nat) (ks : List Nat) : Option Nat :=
  let least (l : List Nat) : Option Nat := l.foldl (fun b k => match b with | none => some k | some x => some (min x k)) none
  match least (ks.filter (fun k => decide (last ≤ k))) with
  | some k => some k
  | none => least ks

/-- Within a partition, plans in round robin, and within a plan its sub-rings (14 R393). -/
def pickBeat (s : State) (p : Nat) : Option BeatJob :=
  let js := s.btr.queue.filter (fun j => !j.repeated && (planOf s j.plan).part.val == p)
  match nextKey (tabGet 0 s.btr.lastPlan p) (js.map (·.plan)) with
  | none => none
  | some k =>
    let js := js.filter (fun j => j.plan == k)
    match nextKey (planOf s k).lastRing (js.map (·.ring)) with
    | none => none
    | some r => js.find? (fun j => j.ring == r)

/-- Partitions with pieces that wait for a Beater. -/
def beatParts (s : State) : List Nat :=
  (List.range 16).filter (fun p => takesTurns s p && (pickBeat s p).isSome)

/-- Give a job to a Beater. -/
def giveBeat (b : Nat) (j : BeatJob) (s : State) : State :=
  modBeater b (fun u => { u with job := some j }) { s with btr := { s.btr with queue := s.btr.queue.erase j } }

/-- An idle Beater takes a piece: a repeat first, and otherwise the choice of deficit round robin. -/
def feedBeater (b : Nat) (s : State) : State :=
  if !beaterIdle s b then s
  else match s.btr.queue.find? (repeatOn s b) with
    | some j => giveBeat b j s
    | none =>
      let ring := ringUpdate s.btr.ring (beatParts s)
      let d := deficitUpdate id ring s.btr.deficit
      let cost (p : Nat) : Nat := match pickBeat s p with | some j => jobGranules s j | none => 0
      match drrPick cost (beaterWeight s) 16 id (drrFuel ring 1024 16) ring d with
      | none => s
      | some (p, ring', d') =>
        match pickBeat s p with
        | none => s
        | some j =>
          modPlan j.plan (fun x => { x with lastRing := j.ring + 1 })
            (giveBeat b j { s with btr := { s.btr with
              ring := ring', deficit := d', lastPlan := tabSet 0 p (j.plan + 1) s.btr.lastPlan } })

/-- Every idle Beater. -/
def feedBeaters (s : State) : State := if s.btr.queue.isEmpty then s else forEach (List.range 8) feedBeater s

/-! ### What a Beater makes of a piece (12 R337, R342 to R355) -/

/-- Place of a job's piece in the operation of its sub-ring. -/
def jobTake (x : SubRing) (j : BeatJob) : Nat := j.seq - (x.nextTake - x.takes)

/-- The arriving operand of a job's piece. -/
def jobArriving (s : State) (p : Plan) (j : BeatJob) (u : Piece) : List Byte := inSlot s p (j.ring / 4) (j.ring % 4) u

/-- The local operand of an addition. -/
def jobLocal (s : State) (p : Plan) (j : BeatJob) : List Byte :=
  let x := ringAt p (j.ring / 4) (j.ring % 4)
  (localOperand s p (j.ring / 4) (j.ring % 4) (opAt p.defn x.op).2 (jobTake x j)).getD []

/-- The output of a piece, and what is counted of it (12 R342 to R350). -/
def beatOutput (s : State) (p : Plan) (j : BeatJob) (u : Piece) : List Byte × Specials :=
  if j.add then addPieces p.defn.dtype (u.size / 256) (jobArriving s p j u) (jobLocal s p j) else (jobArriving s p j u, {})

/-- What the Beater gave: the output held for a repeat of its watermark alone, what a fault made of it, or the sum or copy. -/
def beatGave (s : State) (p : Plan) (j : BeatJob) (u : Piece) (obs : BeatObs) : List Byte :=
  match j.held, obs.output with
  | some y, _ => y
  | none, some y => padTo u.size y
  | none, none => (beatOutput s p j u).1

/-- The piece's output goes to an OUT slot, and the Beater computes the watermark that it is sent with (12 R352). -/
def writesOut (p : Plan) (j : BeatJob) : Bool :=
  let x := ringAt p (j.ring / 4) (j.ring % 4)
  let (ag, c) := opAt p.defn x.op
  j.add && !(takeAt p.defn (j.ring / 4) (j.ring % 4) ag c (jobTake x j)).2.2

/-- Count the work of an attempt, repeats included (12 BTR_WORK, BTR_UNIT; 14 PAR_BEATER). -/
def countBeat (b : Nat) (j : BeatJob) (n : Nat) (s : State) : State :=
  let s := modBeater b (fun u => { u with granules := satAdd u.granules n }) s
  let s := modPart (planOf s j.plan).part (fun p => { p with granules := satAdd p.granules n }) s
  { s with btr := if j.add then { s.btr with addGranules := satAdd s.btr.addGranules n }
    else { s.btr with copyGranules := satAdd s.btr.copyGranules n } }

/-- Count NaNs, saturations and clamps of a released sum (12 R350). -/
def countSpecials (sp : Specials) (s : State) : State :=
  { s with btr := { s.btr with
    nanOut := satAdd s.btr.nanOut sp.nans, saturated := satAdd s.btr.saturated sp.sats
    mxNanBlocks := satAdd s.btr.mxNanBlocks sp.mxNans, scaleClamped := satAdd s.btr.scaleClamped sp.clamps } }

/-- The check that an injected flip of an output bit fails (15 R430 KIND 5; log entry 26). -/
def spoiltCheck (dtype : Nat) (add : Bool) : CheckKind :=
  if !add then .copyWm else if dtype = 11 ∨ dtype = 12 then .residue else .sign

/-- KIND 5 is armed for a Beater, and with UNIT bit 7 set. -/
def spoilsRepeat (s : State) : Bool := match s.err.inject with | some i => i.unit.getLsbD 7 | none => false

/-- The check that an output fails: plausibility of a sum against its operands, the watermark of a copy against the carried
one, and the two circuits of a sending watermark (12 R349, R352, R353). -/
def outputCheck (s : State) (p : Plan) (j : BeatJob) (u : Piece) (obs : BeatObs) (y : List Byte) : Option CheckKind :=
  let c : Option CheckKind :=
    if j.held.isSome then none
    else if j.add then pieceCheck p.defn.dtype (u.size / 256) (jobArriving s p j u) (jobLocal s p j) y
    else if watermark y ≠ u.wm then some .copyWm
    else none
  if c.isNone && writesOut p j && obs.sendWm then some .sendWm else c

/-- The check that an attempt failed, whether it was injected, and the state after the injection is
counted (12 R349, R352, R353; 15 R430). A repeat of a sending watermark checks nothing else (12 R354). -/
def beatCheck (b : Nat) (j : BeatJob) (u : Piece) (obs : BeatObs) (y : List Byte) (s : State) :
    Option CheckKind × Bool × BeatJob × State :=
  let p := planOf s j.plan
  if j.held.isSome then (outputCheck s p j u obs y, false, j, s)
  else if watermark (jobArriving s p j u) ≠ u.wm ∨ obs.arriveWm = true then (some .arriveWm, false, j, s)
  else if !j.repeated && injecting 6 u.port s then (some .arriveWm, true, j, injectOne s)
  else if !j.repeated && injecting 5 b s then
    (some (spoiltCheck p.defn.dtype j.add), true, { j with spoil := spoilsRepeat s }, injectOne s)
  else if j.repeated && j.spoil then (some (spoiltCheck p.defn.dtype j.add), true, j, s)
  else (outputCheck s p j u obs y, false, j, s)

/-- An attempt has passed every check: the piece may be released. A failure before it was transient, and the failing Beater's
(12 R337, R354). -/
def beatPassed (j : BeatJob) (u : Piece) (y : List Byte) (s : State) : State :=
  let s := countSpecials (beatOutput s (planOf s j.plan) j u).2 s
  let s := match j.failed with | some c => transientFail j.plan j.avoid j.seq c j.inj s | none => s
  modPiece j.plan (j.ring / 4) (j.ring % 4) j.seq (fun u => { u with passed := true, out := y }) s

/-- A first failure: a sending watermark is computed again from the same bytes where they are; any other repeat waits for a
Beater (12 R354). -/
def beatRepeat (b : Nat) (j : BeatJob) (c : CheckKind) (inj : Bool) (y : List Byte) (s : State) : State :=
  let s := noteFail j.plan b j.seq c false s
  let j : BeatJob := { j with repeated := true, failed := some c, avoid := b, inj := inj }
  if c = .sendWm then modBeater b (fun u => { u with job := some { j with held := some y } }) s
  else { s with btr := { s.btr with queue := j :: s.btr.queue } }

/-- A Beater has finished an attempt (12 R337, R354, R355). -/
def beatDone (b : Nat) (rep : Bool) (obs : BeatObs) (s : State) : State :=
  match (beaterOf s b).job with
  | none => s
  | some j =>
    if j.repeated ≠ rep then s
    else
      let s := modBeater b (fun u => { u with job := none }) s
      match jobPiece s j with
      | none => s
      | some u =>
        let s := if j.held.isSome then s else countBeat b j (u.size / 256) s
        let y := beatGave s (planOf s j.plan) j u obs
        if obs.dataError then endPlan j.plan stDataError s
        else match beatCheck b j u obs y s with
          | (none, _, j, s) => beatPassed j u y s
          | (some c, inj, j, s) => if rep then lastingFail j.plan b j.seq c inj s else beatRepeat b j c inj y s

/-- BEATER_PIECE_DONE (12 R337). -/
def doBeaterPieceDone (b : Nat) (obs : BeatObs) (s : State) : State := beatDone b false obs s

/-- RECOMPUTE_DONE (12 R354). -/
def doRecomputeDone (b : Nat) (obs : BeatObs) (s : State) : State := beatDone b true obs s

/-! ### Fault stalls (15 R416) -/

/-- FAULT_STALL_EXPIRY: the queue of a plan that waited only on its faulted staging or storing is
halted. -/
def doFaultStall (k : Nat) (s : State) : State :=
  let p := planOf s k
  if p.state = 2 ∧ (queueOf s p.queue).state = qSwitchedOut ∧ p.faulted ≠ [] then
    let s := { s with err := { s.err with faultStalls := satInc s.err.faultStalls } }
    let s := logErr { cls := clsHang, sev := 3, part := p.part, unitKind := 8, ctx := p.ctx, queue := p.queue, cause := 4 } s
    (haltByCommand p.queue false s).getD s
  else s

/-! ### Self-test (12 R356, R357) -/

/-- Plans running (11 HBX_STATUS). -/
def plansRunning (s : State) : Nat := ((List.range 16).filter (fun k => (planOf s k).state != 0)).length

/-- The self-test may be rerun: in directed mode, with no plan running (12 BTR_SELFTEST). -/
def selfTestAllowed (s : State) : Bool := s.fur.directed && plansRunning s == 0

/-- A rerun starts. -/
def startSelfTest (s : State) : State := { s with btr := { s.btr with busy := true } }

/-- BTR_SELFTEST (12). -/
def wrSelfTest : RegFun := fun par v be s =>
  if par != parPriv || !selfTestAllowed s then none
  else if be.getLsbD 0 && bitOf v.toNat 0 then some (startSelfTest s) else some s

/-- SELF_TEST_COMPLETE: PASSED reports the licensed Beaters; none returns to service (12 R357). -/
def doSelfTestComplete (passed : BitVec 8) (us : BitVec 16) (s : State) : State :=
  if s.btr.busy then
    { s with btr := { s.btr with busy := false, passed := passed &&& s.btr.licensed, lastUs := us } }
  else s

end Sys2Proof.Machine
end

