-- ==== Sys2Proof/Machine/Events.lean ====
section
/-! DEFINITION. What the memory system and the translation service answer (02 R34 to R38; 10 R282 to
R285, R294). -/

namespace Sys2Proof.Machine

/-! ### Answers of the memory system -/

/-- An atomic has been performed at its unit (08 R219, R222). -/
def atomicAnswered (a : AtomicOp) (st : Byte) (old : Nat) (s : State) : State :=
  match a.target, a.localOwner with
  | some _, _ => storeResult a.msg st old s
  | none, some (.xfer id x) => runAnswered id x opAtomic st (leBytes 16 old) s
  | none, some (.aperture id k) => aperAnswered id k st (leBytes 16 old) s
  | none, none => s

/-- The unlock of a unit has been answered (02 R37, 08 R221). -/
def unlockAnswered (u : Nat) (bad : Bool) (s : State) : State :=
  let (done, s) := unitUnlocked u bad s
  atomicsDone (done.map (·.1)) (forEach done (fun x => atomicAnswered x.1 x.2.1 x.2.2) s)

/-- All data of a read has come (02 R34, R38). -/
def readAnswered (r : MemReq) (bytes : List Byte) (bad : Bool) (s : State) : State :=
  match r.owner with
  | .descFetch q i => descArrived q i bytes bad s
  | .xferRead id x => xferReadBack id x r.off bytes bad s
  | .trigDesc id => if bad then xferFail id 0 stDataError s else readDone id 0 bytes s
  | .target id => targetAccess id r.off bytes bad s
  | .atomicLock u => unitData u bytes bad s
  | .aperture id => aperAccess id r.off bytes bad s
  | _ => s

/-- A write has been answered (02 R35, R38). -/
def writeAnswered (r : MemReq) (err : BitVec 2) (s : State) : State :=
  let bad := decide (2 ≤ err.toNat)
  match r.owner with
  | .xferWrite id x => xferAccess id x bad s
  | .status id pt => statusAnswered id pt bad s
  | .zeroDst id => settleRun id s
  | .faultRecord p seq => faultWritten p seq err s
  | .target id => targetAccess id r.off [] bad s
  | .atomicUnlock u => unlockAnswered u bad s
  | .aperture id => aperAccess id r.off [] bad s
  | _ => s

/-- The error code of a read, KIND 8 of 15 R430 taken in. -/
def readErr (r : MemReq) (err : BitVec 2) (s : State) : BitVec 2 × Bool × State :=
  if r.beats = 0 ∧ injecting 8 r.ch s = true then (2, true, injectOne s) else (err, false, s)

/-- A beat of read data (02 R34). -/
def takeBeat (r : MemReq) (data : List Byte) (err : BitVec 2) (s : State) : State :=
  let (err, inj, s) := readErr r err s
  let r' : MemReq := { r with
    beats := r.beats + 1, got := r.got ++ padTo 128 data, bad := r.bad || decide (2 ≤ err.toNat) }
  if r'.beats < beatsOf r then
    noteMemErr r err inj { s with memReqs := s.memReqs.map (fun x => if x = r then r' else x) }
  else
    readAnswered r' (wantedBytes r') r'.bad (pumpMem (endReqUse r (noteMemErr r err inj (dropReq r s))))

/-- A write response (02 R35). -/
def takeWriteRsp (r : MemReq) (err : BitVec 2) (s : State) : State :=
  writeAnswered r err (pumpMem (endReqUse r (noteMemErr r err false (dropReq r s))))

/-- DONE_WRITTEN: the write of a status record's first bytes has been answered (09 R265). -/
def doDoneWritten (id : Nat) (s : State) : State :=
  match s.memReqs.find? (fun r => r.owner == .status id .done) with
  | none => s
  | some r => takeWriteRsp r 0 s

/-! ### Answers of the translation service (10 R294) -/

/-- A queue's fetching still waits for a translation: it is bound to that context and fetches. -/
def fetchWaits (q : QueueNo) (c : CtxNo) (s : State) : Bool :=
  let x := queueOf s q
  (x.state == qRunning || x.state == qIdle) && x.ctx == c

/-- A mover's translations go on, or those of the first chunk before a mover has taken it (10 R286). -/
def chunkOn (id : Nat) (mover : Option Nat) (s : State) : State :=
  match mover with
  | some m => translateOn id m s
  | none =>
    match runOf s id with
    | none => s
    | some r => if r.nextChunk = 0 then translateChunk id 0 none s else s

/-- One who waited for a translation goes on with the entry it was given, or faults. -/
def resumeNeed (m : Miss) (e : XltEnd) (n : XltNeed) (s : State) : State :=
  let s := match e with | .found r => giveRange n r s | _ => s
  match n, e with
  | .chunk id _, .fault c => faultRun id 0 m.addr m.access c s
  | .chunk id mover, _ => chunkOn id mover s
  | .startRec q i, .fault c => faultStart q i c s
  | .startRec _ _, _ => s
  | .ring q, .fault c => if fetchWaits q m.ctx s then ringFault q c s else s
  | .ring q, _ => fetchNow q s
  | .statusRec id, .fault c => faultStatus id c s
  | .statusRec id, _ =>
    (match runOf s id with
     | some r => (match r.statusWait with | some pt => putStatus id pt s | none => s)
     | none => s)
  | .aperture id, .fault c => aperFault id c s
  | .aperture id, _ => aperGo id s
  | .headbox id, .fault c => headboxFault id m.addr m.access c s
  | .headbox _, _ => s
  | .walk id, e => walkAnswered id e s
  | .queueTime _ _, .fault _ => s
  | .queueTime q i, .found r => queueTimeFound q i r s
  | .queueTime q i, .again => holdXlt q i s

/-- Everyone who waited for a miss goes on. -/
def resumeMiss (x : Option (Miss × XltEnd) × State) : State :=
  match x with
  | (none, s) => s
  | (some (m, e), s) => forEach m.needs (resumeNeed m e) s

/-- KIND 7 of 15 R430: a reply is discarded. -/
def injectingReply (s : State) : Bool :=
  match s.err.inject with | some i => i.kind == 7 && decide (0 < i.left) | none => false

/-- TRANSLATION_REPLY (10 R282). -/
def doReply (d : BitVec 256) (s : State) : State :=
  if injectingReply s then injectOne s else resumeMiss (takeReply d s)

/-- TRANSLATION_TIMEOUT (10 R284). -/
def doXltTimeout (tag : Byte) (s : State) : State := resumeMiss (takeTimeout tag s)

/-! ### Root of trust: what waits for a measurement or a key (16 R439 to R441) -/

/-- The RESULT of a KEY_REQUEST has come, or its silence is lasting (16 R441). -/
def keyAnswered (id : Nat) (key : Option (List Byte)) (st : Byte) (s : State) : State :=
  match runOf s id with
  | none => s
  | some r =>
    if r.phase ≠ .waitRot then settleRun id s
    else match key with
      | some k => settleRun id (modRun id (fun r => { r with phase := .active, key := some k }) s)
      | none => endRun id st (modRun id (fun r => { r with phase := .active }) s)

/-- A measurement that a run waited for has its answer (16 R439, R440). -/
def runMeasured (id : Nat) (ok : Bool) (digest : List Byte) (st : Byte) (s : State) : State :=
  match runOf s id with
  | none => s
  | some r =>
    if r.op = dCollective then planMeasured id ok digest st s
    else if r.phase ≠ .waitRot then settleRun id s
    else endRun id (if ok then stOk else st) (modRun id (fun r => { r with phase := .active }) s)

end Sys2Proof.Machine
end

