-- ==== Sys2Proof/Machine/Captures.lean ====
section
/-! DEFINITION. Capture records: the snapshot of a reset, a hang, a drain or an order, written into
the capture area of the Vat (14 R397; 15 R421 to R424). -/

namespace Sys2Proof.Machine

/-- What a capture record covers (15 R423). -/
inductive Scope where
  /-- kind 1: one context -/
  | context (c : CtxNo)
  /-- kind 2: one partition -/
  | partition (p : PartNo)
  /-- kinds 3, 5 and 6: everything -/
  | all
  /-- kind 4: the queues of a cycle -/
  | cycle (qs : List Nat)
  deriving DecidableEq, Repr, Inhabited

/-- The partition number of an owner, 0xFF for none. -/
def partByte (p : Option PartNo) : Nat := match p with | some p => p | none => 0xFF

/-- Numbers of a range of a partition. -/
def spanOf (base count : Nat) : List Nat := upTo count (fun i => base + i)

/-! ### Sections (15 R423) -/

/-- Contexts within a scope. -/
def capCtxs (s : State) : Scope → List Nat
  | .context c => [c]
  | .partition p => spanOf (partRec s p).ctxBase (partRec s p).ctxCount
  | .all => List.range 1024
  | .cycle qs => (List.range 1024).filter (fun c => qs.any (fun q => (queueOf s q).bound && (queueOf s q).ctx.val == c))

/-- Queues within a scope. -/
def capQueues (s : State) : Scope → List Nat
  | .context c => (ctxQueues s c).map (·.val)
  | .partition p => spanOf (partRec s p).queueBase (partRec s p).queueCount
  | .all => List.range 4096
  | .cycle qs => (List.range 4096).filter (fun q => qs.contains q)

/-- The WAIT that holds a queue (09 R269). -/
def heldWait (s : State) (q : Nat) : Option Run :=
  (queueRuns s q).find? (fun r => r.op == dWait && r.phase == .holding)

/-- Counters within a scope. -/
def capCounters (s : State) : Scope → List Nat
  | .context _ => []
  | .partition p => spanOf (partRec s p).cntBase (partRec s p).cntCount
  | .all => List.range 65536
  | .cycle qs =>
    let ks := qs.filterMap (fun q => (heldWait s q).map (fun r => r.num 16 2))
    match ks with
    | [] => []
    | k :: _ => let lo := ks.foldl min k; spanOf lo (ks.foldl max k + 1 - lo)

/-- A run lies within a scope. -/
def capRun (sc : Scope) (r : Run) : Bool :=
  match sc with
  | .context c => r.ctx == c
  | .partition p => r.part == p
  | .all => true
  | .cycle _ => false

/-- The run that a mover works for, and its chunk. -/
def moverRun (s : State) (m : Nat) : Option (Run × Option ChunkJob) :=
  match s.cq.runs.find? (fun r => r.chunks.any (fun j => j.mover == m)) with
  | some r => some (r, r.chunks.find? (fun j => j.mover == m))
  | none => (s.cq.runs.find? (fun r => r.mover == some m)).map (fun r => (r, none))

/-- The entry of a context. -/
def capCtxEntry (s : State) (k : Nat) : List Byte :=
  let c : CtxNo := ⟨k % 1024, Nat.mod_lt _ (by decide)⟩
  let x := ctxOf s k
  leBytes 2 k ++ leBytes 1 x.state.toNat ++ leBytes 1 (partByte (ctxPart s c)) ++ leBytes 2 x.gen.toNat ++
    leBytes 2 x.epoch.toNat ++ leBytes 4 (s.trk.trackers.filter (fun t => t.ctx == c)).length ++
    leBytes 2 x.usesOld ++ leBytes 2 0

/-- The entry of a queue. -/
def capQueueEntry (s : State) (k : Nat) : List Byte :=
  let q := queueOf s k
  let w (off n : Nat) : Nat := match heldWait s k with | some r => r.num off n | none => 0
  leBytes 2 k ++ leBytes 1 q.state.toNat ++ leBytes 1 q.errCause.toNat ++ leBytes 2 q.ctx ++
    leBytes 1 (queueRuns s k).length ++ leBytes 1 (b2n q.periodic + 2 * b2n q.xltMode) ++ leBytes 4 q.head.toNat ++
    leBytes 4 q.tail.toNat ++ leBytes 4 q.failedIndex.toNat ++ leBytes 2 (w 16 2) ++ leBytes 2 (w 18 2) ++ leBytes 8 (w 24 8)

/-- Requests of a chunk that are outstanding. -/
def runsOut (s : State) (r : Run) (j : ChunkJob) : Nat :=
  (s.trk.trackers.filter (fun t => r.xfers.any (fun x => x.chunk == j.no && t.owner == .xfer r.id x.id))).length

/-- STATE of a mover: 1 issuing, 2 waiting for a tracker, 3 for a translation, 4 for memory. -/
def moverState (s : State) (r : Run) (j : Option ChunkJob) : Nat :=
  if r.waitTrk then 2
  else if (s.xlt.misses ++ s.xlt.waiting).any (fun m => m.needs.any (fun n => match n with | .chunk k _ => k == r.id | _ => false)) then 3
  else match j with
    | some j => if j.issued < j.len then 1 else 4
    | none => 1

/-- The entry of a mover. -/
def capMoverEntry (s : State) (sc : Scope) (m : Nat) : List Byte :=
  match moverRun s m with
  | none => leBytes 1 m ++ List.replicate 63 0
  | some (r, j) =>
    let out := match j with | some j => runsOut s r j | none => 0
    let issued := match j with | some j => j.issued | none => 0
    if capRun sc r then
      leBytes 1 m ++ leBytes 1 (moverState s r j) ++ leBytes 2 r.irqQueue ++ leBytes 2 r.ctx ++ leBytes 1 r.op ++ [0] ++
        leBytes 4 r.index.toNat ++ leBytes 4 out ++ leBytes 8 r.progress ++ leBytes 8 issued ++ leBytes 8 r.statusVa ++
        List.replicate 24 0
    else leBytes 1 m ++ List.replicate 63 0

/-- Movers within a scope. -/
def capMovers (s : State) (sc : Scope) : List Nat :=
  match sc with
  | .all => List.range 32
  | _ => (List.range 32).filter (fun m => match moverRun s m with | some x => capRun sc x.1 | none => false)

/-- A started sub-ring waits for an arrival or a credit (11 HBX_PLAN_WAIT). -/
def remoteWait (p : Plan) (l r : Nat) : Bool :=
  let x := ringAt p l r
  let n := opTotal p l r
  x.started && ((decide (x.sends < n) && decide (x.limit ≤ x.nextSend)) ||
    (decide (x.takes < n) && !x.pieces.any (fun u => u.seq == x.nextTake)))

/-- Bits by axis and sub-ring, 4a + r, of a running plan's sub-rings (11 HBX_PLAN_WAIT). -/
def axisBits (p : Plan) (f : Nat → Nat → Bool) : Nat :=
  ((allRings p.defn).map (fun y =>
    b2n (p.state == 2 && f y.1 y.2) * 2 ^ (4 * (planAxes p.defn).getD y.1 0 + y.2))).sum

/-- REMOTE_WAIT of HBX_PLAN_WAIT (11). -/
def planRemoteWait (p : Plan) : Nat := axisBits p (remoteWait p)

/-- LOCAL_WAIT of HBX_PLAN_WAIT: every other unfinished sub-ring waits for staging, a store or a
counter (11). -/
def planLocalWait (p : Plan) : Nat :=
  axisBits p (fun l r => decide ((ringAt p l r).op < opCount p.defn) && !remoteWait p l r)

/-- LONGEST_US of HBX_PLAN_WAIT. -/
def planLongest (s : State) (p : Plan) : Nat :=
  if p.state = 2 then
    ((allRings p.defn).filter (fun y => decide ((ringAt p y.1 y.2).op < opCount p.defn))).foldl
      (fun a y => max a (s.nowUs - (ringAt p y.1 y.2).waitSince)) 0
  else 0

/-- The entry of a plan slot. -/
def capPlanEntry (s : State) (k : Nat) : List Byte :=
  let p := planOf s k
  let next := (List.range 12).flatMap (fun i => leBytes 2 (match levelOf p.defn (i / 4) with
    | some l => (ringAt p l (i % 4)).nextTake
    | none => 0))
  leBytes 1 k ++ leBytes 1 p.state.toNat ++ leBytes 2 p.defn.collId.toNat ++ leBytes 2 p.ctx ++ leBytes 2 p.queue ++
    leBytes 1 p.defn.round.toNat ++ [0, 0, 0] ++ leBytes 4 p.chunksDone ++ leBytes 4 (planChunks p.defn) ++
    leBytes 2 (planRemoteWait p) ++ leBytes 2 (planLocalWait p) ++ leBytes 4 (planLongest s p) ++ next ++
    List.replicate 12 0

/-- Plan slots within a scope. -/
def capPlans (s : State) : Scope → List Nat
  | .context c => (List.range 16).filter (fun k => (planOf s k).state != 0 && (planOf s k).ctx == c)
  | .partition p => (List.range 16).filter (fun k => (planOf s k).state != 0 && (planOf s k).part == p)
  | .all => List.range 16
  | .cycle _ => []

/-- The entry of a request. -/
def capTrackerEntry (s : State) (t : Tracker) : List Byte :=
  leBytes 4 (trkTag t.index t.gen).toNat ++ leBytes 2 t.ctx ++ leBytes 1 (trkOp t).toNat ++
    leBytes 1 (trkClass t + 4 * b2n t.reissued) ++ leBytes 4 t.target.toNat ++ leBytes 4 (s.nowUs - t.since)

/-- Put a tracker into its place, oldest first. -/
def byAge (t : Tracker) : List Tracker → List Tracker
  | [] => [t]
  | u :: us => if t.since < u.since then t :: u :: us else u :: byAge t us

/-- Trackers within a scope, oldest first, at most 4,096. -/
def capTrackers (s : State) (sc : Scope) : List Tracker :=
  let mine (t : Tracker) : Bool := match sc with
    | .context c => t.ctx == c
    | .partition p => t.part == p
    | .all => true
    | .cycle _ => false
  ((s.trk.trackers.filter mine).foldl (fun l t => byAge t l) []).take 4096

/-- The entry of a Beater. -/
def capBeaterEntry (s : State) (b : Nat) : List Byte :=
  let x := beaterOf s b
  let (p, coll, seq) : Nat × Nat × Nat := match x.job with
    | some j => ((planOf s j.plan).part, (planOf s j.plan).defn.collId.toNat, j.seq)
    | none => (0xFF, 0, 0)
  leBytes 1 b ++ leBytes 1 x.state.toNat ++ leBytes 1 p ++ [0] ++ leBytes 2 coll ++ leBytes 2 seq ++ leBytes 8 x.granules.toNat

/-- Beaters within a scope. -/
def capBeaters : Scope → List Nat
  | .all => List.range 8
  | _ => []

/-- The sections of a record in directory order: TYPE, FIRST, COUNT and bytes.  In a record of kind 4 CONTEXTS comes last, so
that QUEUES stands at offset 256 (the worked example of 15; log entry 122). -/
def capSections (s : State) (sc : Scope) : List (Nat × Nat × Nat × List Byte) :=
  let sect (ty : Nat) (ks : List Nat) (f : Nat → List Byte) := (ty, ks.headD 0, ks.length, ks.flatMap f)
  let ts := capTrackers s sc
  let ctxs := sect 1 (capCtxs s sc) (capCtxEntry s)
  let rest := [sect 2 (capQueues s sc) (capQueueEntry s),
   sect 3 (capCounters s sc) (fun k => leBytes 8 (cntOf s k).toNat),
   sect 4 (capMovers s sc) (capMoverEntry s sc), sect 5 (capPlans s sc) (capPlanEntry s),
   (6, 0, ts.length, ts.flatMap (capTrackerEntry s)), sect 7 (capBeaters sc) (capBeaterEntry s)]
  (match sc with | .cycle _ => rest ++ [ctxs] | _ => ctxs :: rest).filter (fun x => x.2.2.1 != 0)

/-! ### The record and its place (15 R421, R422) -/

/-- Lay sections out from an offset: the directory, and the bytes. -/
def capLayout : Nat → List (Nat × Nat × Nat × List Byte) → List Byte × List Byte
  | _, [] => ([], [])
  | off, (ty, first, count, bs) :: rest =>
    let n := (bs.length + 63) / 64 * 64
    let (dir, body) := capLayout (off + n) rest
    (leBytes 2 ty ++ leBytes 2 first ++ leBytes 4 count ++ leBytes 4 off ++ dir, padTo n bs ++ body)

/-- Units of 64 KiB that a record of so many bytes fills. -/
def capUnits (n : Nat) : Nat := (n + 65535) / 65536

/-- PARTITION of a record (15 R422). -/
def capPart (s : State) (sc : Scope) : Nat :=
  match sc with
  | .partition p => p
  | .context c => partByte (ctxPart s c)
  | .all => 0xFF
  | .cycle qs => (match qs with | q :: _ => partByte (queuePart s q) | [] => 0xFF)

/-- The bytes of a record (15 R422). -/
def capBytes (s : State) (kind : Nat) (sc : Scope) (errSeq : Nat) : List Byte :=
  let (dir, body) := capLayout 256 (capSections s sc)
  let part := capPart s sc
  let ctx : Nat := match sc with | .context c => c | _ => 0xFFFF
  leBytes 4 0x54504143 ++ leBytes 2 1 ++ leBytes 1 kind ++ leBytes 1 part ++ leBytes 4 (s.err.capSeq.toNat + 1) ++
    leBytes 4 (capUnits (256 + body.length)) ++ leBytes 8 s.nowUs ++ leBytes 2 ctx ++ leBytes 2 0 ++ leBytes 4 errSeq ++
    padTo 96 dir ++ List.replicate 128 0 ++ body

/-- First byte of unit u of the capture area. -/
def capUnit (u : Nat) : Nat := 0x1710000 + u * 0x10000

/-- The first unit of the next record. -/
def capFirst (s : State) (n : Nat) : Nat :=
  let at_ := match s.err.captures.getLast? with | some c => c.first + c.units | none => 0
  if at_ + n ≤ 15 then at_ else 0

/-- Two records share a unit. -/
def sharesUnit (a b : CapturePlace) : Bool := decide (a.first < b.first + b.units) && decide (b.first < a.first + a.units)

/-- Take a snapshot and write it (14 R397, 15 R421, R424). -/
def capture (kind : Nat) (sc : Scope) (errSeq : Nat) (s : State) : State :=
  let bytes := capBytes s kind sc errSeq
  let n := capUnits bytes.length
  let c : CapturePlace := { seq := s.err.capSeq + 1, first := capFirst s n, units := n }
  let gone := (s.err.captures.filter (sharesUnit c)).length
  let s := { s with err := { s.err with
    capSeq := s.err.capSeq + 1
    capOverwritten := satAdd s.err.capOverwritten gone
    captures := s.err.captures.filter (fun d => !sharesUnit c d) ++ [c] } }
  vatWrite (capUnit c.first) (padTo (n * 65536) bytes) s

/-- The last capture's ERR_SEQ is the SEQ of a log record made after it (15 R422). -/
def captureCause (errSeq : Nat) (s : State) : State :=
  match s.err.captures.getLast? with
  | none => s
  | some c => vatWrite (capUnit c.first + 28) (leBytes 4 errSeq) s

end Sys2Proof.Machine
end

