-- ==== Sys2Proof/Machine/Resets.lean ====
section
/-! DEFINITION. Context commands, partition and engine-domain resets, the hang detector, and suspect
endpoints (09 R245 to R253; 14 R378 to R381, R396 to R402; 15 R413 to R415, R425 to R428). -/

namespace Sys2Proof.Machine

/-! ### CTX_CMD (09 R252, R253) -/

/-- CMD codes of CTX_CMD. -/
def cmdCtxOpen : Nat := 0x01
def cmdCtxClose : Nat := 0x02
def cmdQBind : Nat := 0x10
def cmdQUnbind : Nat := 0x11
def cmdQEnable : Nat := 0x12
def cmdQHalt : Nat := 0x13
def cmdQResume : Nat := 0x14

/-- A command on contexts; the others of the table act on queues. -/
def onContext (cmd : Nat) : Bool := cmd == cmdCtxOpen || cmd == cmdCtxClose

/-- A command code of the table. -/
def cmdKnown (cmd : Nat) : Bool := [0x01, 0x02, 0x10, 0x11, 0x12, 0x13, 0x14].contains cmd

/-- Check 1 of R252. -/
def cmdFormOk (cmd obj arg : Nat) : Bool :=
  cmdKnown cmd && decide (obj < (if onContext cmd then 1024 else 4096)) &&
    (if cmd = cmdQBind then decide (arg < 1024) else if cmd = cmdQHalt then decide (arg < 2) else arg == 0)

/-- The partition of a command's object. -/
def cmdOwner (s : State) (cmd obj : Nat) : Option PartNo :=
  if onContext cmd then ctxPart s obj
  else queuePart s obj

/-- Check 2 of R252; a Q_BIND's context too must lie in a present partition's range. -/
def cmdRightsOk (s : State) (par cmd obj arg : Nat) : Bool :=
  (cmdOwner s cmd obj).isSome && ownerOk (cmdOwner s cmd obj) par &&
    (cmd != cmdQBind || (ctxPart s arg).isSome)

/-- The object's partition is READY (14 R381). -/
def cmdReady (s : State) (cmd obj : Nat) : Bool :=
  match cmdOwner s cmd obj with | some p => (partOf s p).state == partReady | none => false

/-- CTX_OPEN: GEN advances, and the context's translation state starts empty (09 R246). -/
def openContext (c : CtxNo) (s : State) : Option State :=
  if (ctxOf s c).state = ctxFree then
    some (removeRanges (fun r => r.ctx == c) (modCtx c (fun x => { x with state := ctxOpen, gen := x.gen + 1 }) s))
  else none

/-- CTX_CLOSE: the snapshot of R397, then the teardown of R247. -/
def closeByCommand (c : CtxNo) (s : State) : Option State :=
  if (ctxOf s c).state = ctxOpen then some (closeContext c (capture 1 (.context c) 0 s)) else none

/-- The table of R253: `none` is STATE_REFUSED. -/
def cmdApply (cmd obj arg : Nat) (s : State) : Option State :=
  let c : CtxNo := ⟨obj % 1024, Nat.mod_lt _ (by decide)⟩
  let q : QueueNo := ⟨obj % 4096, Nat.mod_lt _ (by decide)⟩
  if cmd = cmdCtxOpen then openContext c s
  else if cmd = cmdCtxClose then closeByCommand c s
  else if cmd = cmdQBind then bindQueue q ⟨arg % 1024, Nat.mod_lt _ (by decide)⟩ s
  else if cmd = cmdQUnbind then unbindQueue q s
  else if cmd = cmdQEnable then enableQueue q s
  else if cmd = cmdQHalt then haltByCommand q (arg % 2 == 1) s
  else resumeQueue q s

/-- The code a command answers, and the state it leaves (09 R252). -/
def cmdRun (par cmd obj arg : Nat) (s : State) : Byte × State :=
  if !cmdFormOk cmd obj arg then (stMalformed, s)
  else if !cmdRightsOk s par cmd obj arg then (stRights, s)
  else
    let refused := (stStateRefused, { s with cq := { s.cq with stateRefusals := satInc s.cq.stateRefusals } })
    if !cmdReady s cmd obj then refused
    else match cmdApply cmd obj arg s with
      | some t => (stOk, t)
      | none => refused

def slotOf (s : State) (r : Nat) : CmdSlot := tabGet {} s.cq.slots r

/-- A command is taken by a slot, with its result in CTX_CMD_STATUS (09 R252). -/
def takeCmd (r par cmd obj arg : Nat) (s : State) : State :=
  let (code, s) := cmdRun par cmd obj arg s
  { s with cq := { s.cq with slots := tabMod {} r (fun x =>
    { code := code, lastCmd := BitVec.ofNat 8 cmd, seq := x.seq + 1 }) s.cq.slots } }

/-- CTX_CMD. -/
def wrCtxCmd (r : Nat) : RegFun := fun par v be s =>
  if !slotOwner r par then none
  else if !fieldEnabled be 0 8 then some s
  else
    let part (lo w : Nat) : Nat := if fieldEnabled be lo w then fld v lo w else 0
    some (takeCmd r par (fld v 0 8) (part 8 16) (part 32 32) s)

/-! ### Partition states (14 R378, R379; 16 R456) -/

/-- A partition changes state (14 R379). -/
def setPartState (p : PartNo) (st : BitVec 2) (s : State) : State :=
  bumpEpoch (modPart p (fun q => { q with state := st }) s)

/-- Present partitions. -/
def presentParts (s : State) : List PartNo := allParts.filter (fun p => (partOf s p).state != partAbsent)

def ctxsOfPart (s : State) (p : PartNo) : List CtxNo :=
  (spanOf (partRec s p).ctxBase (partRec s p).ctxCount).map (fun c => ⟨c % 1024, Nat.mod_lt _ (by decide)⟩)
def queuesOfPart (s : State) (p : PartNo) : List Nat := spanOf (partRec s p).queueBase (partRec s p).queueCount
def windowsOfPart (s : State) (p : PartNo) : List Nat := spanOf (partRec s p).importBase (partRec s p).importCount

/-! ### Partition reset (14 R398, R399) -/

/-- P3 of 03 R70. -/
def inP3 (s : State) : Bool := s.power.cur == 3

/-- The order is accepted (14 R398; 15 R428). -/
def partResetOk (p : PartNo) (s : State) : Bool :=
  (partOf s p).state == partReady && !s.par.engineBusy && !inP3 s && s.err.drainState == 0

/-- Steps 1 to 3 of R399. -/
def startPartReset (p : PartNo) (s : State) : State :=
  let s := capture 2 (.partition p) 0 s
  let s := modPart p (fun q => { q with step := 4 }) (setPartState p partResetting s)
  let s := forEach ((ctxsOfPart s p).filter (fun (c : CtxNo) => (ctxOf s c).state == ctxOpen)) closeContext s
  forEach (windowsOfPart s p) (fun w =>
    modWin w (fun x => if x.state = winEnabled then { x with state := winWithdrawing } else x)) s

/-- A partition reset is ordered; LAST_CODE records the outcome (14 R398). -/
def orderPartReset (p : PartNo) (s : State) : Byte × State :=
  let code := if partResetOk p s then stOk else stStateRefused
  let s := modPart p (fun q => { q with lastCode := code }) s
  (code, if code = stOk then startPartReset p s else s)

/-- Steps 4 and 5 of R399 are over. -/
def partDrained (s : State) (p : PartNo) : Bool :=
  !s.trk.trackers.any (fun t => t.part == p) && (windowsOfPart s p).all (fun w => (winOf s w).state == winDisabled) &&
    !s.cq.runs.any (fun r => r.part == p) &&
    !s.aper.any (fun a => match ctxPart s a.req.ctx with | some q => q == p | none => false)

/-- Clear bytes of the Vat (13 R376). -/
def zeroVat (a n : Nat) (s : State) : State :=
  { s with vat := { s.vat with mem := s.vat.mem.filter (fun c => decide (c.1 < a) || decide (a + n ≤ c.1)) } }

/-- A fault queue takes FQ_LOG2 = 0, as a write of it does (10 XLT_FQ_CFG). -/
def resetFq (p : PartNo) (s : State) : State :=
  modFq p (fun f => { f with log2 := 0, head := 0, tail := 0, overflowed := false }) (dropFaults p s)

/-- Messages of a partition that no port has taken (log entry 27). -/
def dropOwnItems (f : PartNo → Bool) (s : State) : State :=
  forEach (List.range 12) (fun n => modPort n (fun p =>
    let q := p.tx.queue.filter (fun i => match i.input with | .own q => !f q | _ => true)
    { p with tx := { p.tx with queue := q } })) s

/-- Step 6 of R399: each context is invalidated, and the invalidations that waited complete. -/
def invalidatePart (p : PartNo) (s : State) : State :=
  let s := forEach (ctxsOfPart s p) (fun c => invalidateSpan c 0 0) s
  forEach (List.range 17) invComplete s

/-- Step 7 of R399. -/
def clearPart (p : PartNo) (s : State) : State :=
  let r := partRec s p
  let s := zeroVat (r.vatBase * 0x10000) (r.vatSize * 0x10000) s
  let s := { s with cq := { s.cq with
    armed := s.cq.armed.filter (fun a => a.part != p)
    counters := s.cq.counters.filter (fun e => !(decide (r.cntBase ≤ e.1) && decide (e.1 < r.cntBase + r.cntCount))) } }
  forEach ((List.range 16).filter (fun k => (planOf s k).part == p)) freePlan s

/-- Step 8 of R399. -/
def resetPartObjects (p : PartNo) (s : State) : State :=
  let s := forEach (ctxsOfPart s p) (fun c s =>
    modCtx c (fun x => { x with sticky := false }) (freeContext c s)) s
  let s := forEach (queuesOfPart s p) (fun q => modQueue q (fun _ => {})) s
  let s := forEach (windowsOfPart s p) (fun w => modWin w (fun _ => {})) s
  dropOwnItems (· == p) (resetFq p s)

/-- Steps 9 and 10 of R399. -/
def endPartReset (p : PartNo) (s : State) : State :=
  let s := setPartState p partReady (discardIrqs p s)
  irqMapped p causeResetDone (modPart p (fun q => { q with step := 0, resets := q.resets + 1 }) s)

/-- PARTITION_RESET_DRAINED: steps 6 to 10 of R399. -/
def doPartDrained (p : PartNo) (s : State) : State :=
  if (partOf s p).state = partResetting ∧ s.par.engineBusy = false ∧ partDrained s p = true then
    endPartReset p (resetPartObjects p (clearPart p (invalidatePart p s)))
  else s

/-! ### Suspect endpoints (15 R425 to R428) -/

/-- Step 3 of R426 for one running descriptor: it stops at its next chunk boundary, and one without
chunks stops now. -/
def drainRun (r : Run) (s : State) : State :=
  if r.plan.isSome ∨ r.phase ≠ .active then abortRun stAborted r.id s
  else settleRun r.id (modRun r.id (fun r => { r with stopping := true }) s)

/-- The steps of R426. -/
def drainSteps (cause : Nat) (s : State) : State :=
  let seq := s.err.nextSeq
  let s := { s with err := { s.err with
    suspect := true, drainState := 1, suspectCause := BitVec.ofNat 4 cause, suspectSeq := seq } }
  let s := bumpEpoch (logErr { cls := clsSuspect, sev := 4, cause := cause } s)
  let s := capture 5 .all seq.toNat s
  disarm (fun _ => true) (forEach s.cq.runs drainRun s)

/-- The endpoint is declared suspect (15 R425); once only, and after an engine-domain reset under way
(15 R428). -/
def declareSuspect (cause : Nat) (s : State) : State :=
  if s.err.suspect then s
  else if s.par.engineBusy then
    { s with par := { s.par with drainAfter := some (s.par.drainAfter.getD (BitVec.ofNat 4 cause)) } }
  else drainSteps cause s

/-- Steps 3 and 5 of R426 are done: no tracker is held, and no descriptor runs but one whose status record waits for a
translation in a queue that is switched out (log entry 73). -/
def drainDone (s : State) : Bool := s.trk.trackers.isEmpty && s.cq.runs.all (fun r => r.statusWait.isSome)

/-- DRAIN_COMPLETE: step 5 of R426. -/
def doDrainComplete (s : State) : State :=
  if s.err.drainState = 1 ∧ drainDone s = true then
    bumpEpoch { s with err := { s.err with drainState := 2 } }
  else s

/-- What the step under way makes suspect (15 R425): a lasting failure of R354, or a second
uncorrectable error within 600 s. -/
def settleSuspect (s : State) : State :=
  if s.err.suspectDue then declareSuspect 1 { s with err := { s.err with suspectDue := false } }
  else match s.err.uncorrAt with
    | a :: b :: _ => if a - b < 600000000 then declareSuspect 2 s else s
    | _ => s

/-! ### Engine-domain reset (14 R400, R401) -/

/-- Accesses that go on in an engine-domain reset: inbound requests admitted before are performed
(14 R402). -/
def keptOwner (o : MemOwner) : Bool :=
  match o with
  | .target _ | .atomicLock _ | .atomicUnlock _ | .faultRecord _ _ | .zeroDst _ => true
  | _ => false

/-- An abandoned SEALED_COPY's destination is zeroed, and the reset waits for it (16 R444). -/
def zeroSealed (r : Run) (s : State) : State :=
  if r.op = dSealed then
    forEach r.wrote (fun x =>
      memIssue .write (.zeroDst r.id) x.1 x.2 0 (List.replicate x.2 0) none) s
  else s

/-- Steps 1 to 3 of R401, up to the wait. -/
def startEngineReset (s : State) : State :=
  let s := capture 3 .all 0 s
  let s := { s with par := { s.par with engineBusy := true } }
  let s := forEach (presentParts s) (fun p s =>
    modPart p (fun q => { q with step := 3 }) (onlyIf ((partOf s p).state != partResetting) (setPartState p partResetting) s)) s
  let s := forEach (List.range 16) (fun k => endPlan k stAborted) s
  let s := forEach s.trk.openRuns closeRun s
  let s := dropWaiting (fun o => !keptOwner o) s
  let s := forEach s.cq.runs zeroSealed s
  { s with
    cq := { s.cq with runs := [], armed := [] }
    hbx := { s.hbx with plans := [] }
    xlt := { s.xlt with waiting := [] } }

/-- An engine-domain reset is ordered (14 R400). -/
def orderEngineReset (s : State) : Byte × State :=
  if s.par.engineBusy ∨ inP3 s = true then
    (stStateRefused, { s with par := { s.par with lastCode := stStateRefused.setWidth 4 } })
  else (stOk, startEngineReset { s with par := { s.par with lastCode := stOk.setWidth 4 } })

/-- Step 4 of R401: an aperture request is answered. -/
def abandonAper (a : Aperture) (s : State) : State :=
  match a.kind with
  | .fence => s
  | .load => aperEnd a.id stAborted [] s
  | .store => aperEnd a.id stAmbiguous [] (logStore a stAmbiguous s)
  | .atomic => aperEnd a.id stAmbiguous [] (logStore a stAmbiguous s)

/-- A context after step 6 of R401. -/
def resetCtx (x : Ctx) : Ctx := { gen := x.gen, epoch := x.epoch + 1 }

/-- Every context after step 6 of R401. -/
def resetCtxs (s : State) : Tab Ctx :=
  (upTo 1024 (fun k => (k, resetCtx (ctxOf s k)))).filter (fun e => e.2 != {})

/-- Steps 4 to 6 of R401. -/
def clearEngines (s : State) : State :=
  let s := forEach (s.trk.trackers.map (·.index)) freeTracker s
  let s := forEach s.aper abandonAper s
  let s := dropOwnItems (fun _ => true) s
  let s := zeroVat 0x1400000 0x280000 s
  let s := clearReplay { s with
    aper := []
    trk := { s.trk with openRuns := [], targetOps := [], held := [], ring := [], deficit := [] }
    btr := { s.btr with ring := [], deficit := [], queue := [], units := s.btr.units.map (fun u => (u.1, { u.2 with job := none })) }
    xlt := { s.xlt with cache := [], buffers := [], given := [], windows := [] }
    cq := { s.cq with counters := [], queues := [], ctxs := resetCtxs s, ring := [], deficit := [] } }
  forEach (List.range 17) invComplete (forEach allParts resetFq s)

/-- Steps 7 and 8 of R401, and a drain that waited (15 R428). -/
def endEngineReset (s : State) : State :=
  let ps := presentParts s
  let s := forEach ps discardIrqs s
  let s := { s with par := { s.par with engineBusy := false, engineResets := s.par.engineResets + 1 } }
  let s := forEach ps (fun p s =>
    irqMapped p causeResetDone (modPart p (fun q => { q with step := 0 }) (setPartState p partReady s))) s
  let s := retryStalled s
  match s.par.drainAfter with
  | none => s
  | some c => declareSuspect c.toNat { s with par := { s.par with drainAfter := none } }

/-- ENGINE_RESET_MEMORY_DRAINED: steps 4 to 8 of R401. -/
def doEngineDrained (s : State) : State :=
  if s.par.engineBusy ∧ s.memReqs = [] ∧ s.memWaiting = [] then endEngineReset (clearEngines s) else s

/-! ### The hang detector (15 R413 to R415, R417) -/

/-- The edge of a blocked queue: its WAIT and its local producer (15 R413). -/
def blockedAt (s : State) (k : Nat) : Option Blocked :=
  let q := queueOf s k
  match queueRuns s k with
  | [r] =>
    let prod := r.num 18 2
    if q.state = qRunning ∧ q.periodic = false ∧ r.op = dWait ∧ r.phase = .holding ∧ prod < 4096 ∧
        takesTurns s r.part ∧ queuePart s prod = queuePart s k then
      some { queue := k, index := r.index, counter := r.num 16 2, value := cntOf s (r.num 16 2), producer := prod }
    else none
  | _ => none

/-- Every blocked queue with an edge. -/
def blockedQueues (s : State) : List Blocked := (s.cq.queues.map (·.1)).filterMap (blockedAt s)

/-- Follow the edges from a queue back to it; the queues of the cycle, if it lies on one. -/
def cycleFrom (bs : List Blocked) (start : Nat) : Nat → Nat → List Nat → Option (List Nat)
  | 0, _, _ => none
  | fuel + 1, k, path =>
    match bs.find? (fun b => b.queue == k) with
    | none => none
    | some b => if b.producer = start then some (path ++ [k]) else cycleFrom bs start fuel b.producer (path ++ [k])

/-- Every cycle, each from its lowest-numbered queue. -/
def cyclesOf (bs : List Blocked) : List (List Nat) :=
  bs.filterMap (fun b => match cycleFrom bs b.queue bs.length b.queue [] with
    | some c => if c.all (fun k => decide (b.queue ≤ k)) then some c else none
    | none => none)

/-- An increment of a counter is pending (15 R414). -/
def incrPending (s : State) (k : Nat) : Bool :=
  s.cq.runs.any (fun r =>
    (r.op == dSignal && r.num 16 1 == 0 && r.num 18 2 == k && (r.phase == .starting || r.phase == .active)) ||
    (r.cplCount && r.num 4 2 == k && r.status == stOk && (r.phase == .ending || r.phase == .doneWrite))) ||
  s.trk.targetOps.any (fun o => o.kind == .atomic && (winOf s o.window).counter &&
    winCounter (winOf s o.window) o.msg.addr.toNat == k) ||
  s.trk.stalled.any (fun x => match checkWindow s x.2 with
    | some w => (winOf s w).counter && winCounter (winOf s w) x.2.addr.toNat == k
    | none => false)

/-- The scan is positive for a blocked queue (15 R414). -/
def scanSame (s : State) (b : Blocked) : Bool :=
  s.err.blocked.any (fun o => o.queue == b.queue && o.index == b.index && o.value == b.value && o.producer == b.producer) &&
    !incrPending s b.counter

/-- Positive scans in a row so far. -/
def positiveOf (s : State) (k : Nat) : Nat :=
  match s.err.blocked.find? (fun o => o.queue == k) with | some o => o.positive | none => 0

/-- A hang is declared (15 R415). -/
def declareHang (qs : List Nat) (s : State) : State :=
  let part := match qs with | q :: _ => partByte (queuePart s q) | [] => 0xFF
  let s := capture 4 (.cycle qs) 0 s
  let s := { s with err := { s.err with declared := satInc s.err.declared } }
  let s := forEach qs (fun q s => (haltByCommand ⟨q % 4096, Nat.mod_lt _ (by decide)⟩ true s).getD s) s
  let s := captureCause s.err.nextSeq.toNat s
  logErr { cls := clsHang, sev := 3, part := part, queue := qs.headD 0xFFFF, capture := s.err.capSeq.toNat
           detail := (qs.take 8).flatMap (leBytes 2) } s

/-- One cycle of a scan: its queues with their new count, and whether it is declared. -/
def judgeCycle (s : State) (bs : List Blocked) (qs : List Nat) : Nat :=
  if (bs.filter (fun b => qs.contains b.queue)).all (scanSame s) then
    (qs.map (positiveOf s)).foldl min 3 + 1
  else 0

/-- Positive scans in a row of the cycle that a queue lies on. -/
def cycleCount (cs : List (List Nat × Nat)) (b : Blocked) : Nat :=
  match cs.find? (fun c => c.1.contains b.queue) with | some c => c.2 | none => 0

/-- HANG_SCAN (15 R413, R414). -/
def doHangScan (s : State) : State :=
  if !s.err.hangScan then s
  else
    let bs := blockedQueues s
    let cycles := (cyclesOf bs).map (fun qs => (qs, judgeCycle s bs qs))
    let pos := (cycles.filter (fun c => c.2 != 0)).length
    let s := { s with err := { s.err with
      scans := s.err.scans + 1
      positive := satAdd s.err.positive pos
      blocked := (bs.map (fun b => { b with positive := cycleCount cycles b })).filter (fun b => decide (b.positive < 3)) } }
    forEach ((cycles.filter (fun c => decide (3 ≤ c.2))).map (·.1)) declareHang s

end Sys2Proof.Machine
end

