-- ==== Sys2Proof/Machine/Ports.lean ====
section
/-! DEFINITION. Ports that leave and enter service: states, retrains, links lost, fences, twin
handover and handback (05 R127, R130; 06 R174 to R183, R469; 08 R226, R470). -/

namespace Sys2Proof.Machine

/-! ### States (06 R174) -/

/-- Put port n into a state; a change advances MGMT_EPOCH (16 R456). -/
def setPortState (n : Nat) (st : BitVec 4) (s : State) : State :=
  if (portOf s n).state = st then s else bumpEpoch (modPort n (fun p => { p with state := st }) s)

/-- Record a port's outcome (04 R111). -/
def setOutcome (n : Nat) (v : BitVec 4) (s : State) : State :=
  { s with fur := { s.fur with portResult := tabSet 0xA n v s.fur.portResult } }

def outcomeOf (s : State) (n : Nat) : BitVec 4 := tabGet 0xA s.fur.portResult n

/-- Each outcome is reported: as a START record (15 R403), and 0x0, which is no error, as a LANE record of severity 1 (05
R129; log entry 113). -/
def reportOutcome (n : Nat) (v : BitVec 4) (s : State) : State :=
  logErr { cls := if v = 0 then clsLane else clsStart, sev := 1, port := n, unitKind := 3, cause := v.toNat } s

/-- After the end of phase 4 only an outcome of 0xB is replaced, and the new one is reported too (04 R111; 05 R129). -/
def replaceOutcome (n : Nat) (v : BitVec 4) (s : State) : State :=
  if outcomeOf s n = 0xB then reportOutcome n v (setOutcome n v s) else s

/-- The outcome of a port in service (04 R111; 05 R129). -/
def servedOutcome (p : Port) : BitVec 4 :=
  if p.deckle.width = 3 then (if p.deckle.spare = 0xF then 0x1 else 0x0) else if p.deckle.width = 2 then 0x2 else 0x3

/-- The rule that bars a port: its outcome and DOWN_CAUSE (04 R109; 07 R187). -/
def barOf (s : State) (n : Nat) : Option (BitVec 4 × Byte) :=
  let c := tabGet {} s.fur.image.cabling n
  if c.medium = 0 ∨ dimSize s (n / 4) ≤ 1 then some (0x6, 0x01)
  else if sixPort s ∧ n % 2 = 1 then some (0x7, 0x02)
  else if 100 < c.lengthDm.toNat ∧ s.fur.features.getLsbD 4 = false then some (0x7, 0x02)
  else none

/-- Control packets that are ready leave as far as the port may send now: an idle one is woken (03 R72), and one outside
its throttle interval waits (03 R90). -/
def flushCtrl (n : Nat) (s : State) : State :=
  forEach (List.range 10) (fun _ t =>
    if maySend (portOf t n) && ctrlReady (portOf t n).ctl then sendControl n t else t)
    (onlyIf (linkUp (portOf s n) && ctrlReady (portOf s n).ctl) (wakePort n) s)

/-! ### Lanes of a port that is not in service (05 R125) -/

/-- The lane's equaliser entry says it is used (05 R132). -/
def laneUsed (s : State) (n k : Nat) : Bool := (tabGet 0 s.fur.image.equaliser (9 * n + k)).getLsbD 0

/-- A lane leaves its work: alignment stops (05 R121, last row), and what was held for deskew is gone. -/
def stopLane (st : BitVec 4) (x : Lane) : Lane :=
  { x with state := st, align := .hunt, window := [], rxLogical := none, fifo := [], deaf := false }

/-- A lane's transmitter is at high impedance (03 R80). -/
def darkLane (st : BitVec 4) (x : Lane) : Lane := { stopLane st x with tx := .hiZ }

/-- The port's link is gone: transmitters at high impedance, no Deckle, no control channel; the
Broke store, the counts and the receive buffer stay (03 R80; 06 R178). -/
def darken (lanes : BitVec 4) (p : Port) : Port :=
  let q := setLanes (fun _ x => darkLane lanes x) p
  { q with
    txHiZ := true
    phy := {}
    leaveDue := none
    attempt := none
    adm := none
    deckle := { p.deckle with map := [], spare := 0xF, width := 0 }
    cal := { p.cal with
      pass := none, step := 0, waiting := false, waitsTwin := false, retry := none, deferred := false
      forceActive := false, repair := false, wide := none }
    txIdle := false
    rxIdle := false
    bursts := 0
    ctl := {}
    digest0 := none
    rx := { p.rx with waiting := false, ackOwed := false, nullReady := false }
    lossDue := none
    fenceDue := none }

/-! ### Training attempts (05 R127, R130) -/

/-- The port may make training attempts: cabled and licensed, powered, firmware running, phase 3
reached (04 R109, 05 R130, 15 R419). -/
def mayTrain (s : State) (n : Nat) : Bool :=
  (barOf s n).isNone && (portOf s n).powered && stewardUp s && decide (3 ≤ s.fur.phase.toNat)

/-- A training attempt begins with far-end detect (05 R127 step 1); a port that may not make one now
waits for its retry (05 R130). -/
def beginAttempt (n : Nat) (held : Bool) (s : State) : State :=
  if mayTrain s n then
    setPortState n psDetect (modPort n (fun p =>
      let q := setLanes (fun _ x => darkLane lsDetect x) p
      { q with attempt := some { step := 1, held := held }, txHiZ := true, pllLock := true, retryArmed := false, nextFull := true }) s)
  else modPort n (fun p => { p with retryArmed := (barOf s n).isNone && p.powered, nextFull := !held }) s

/-! ### What a lost path does to the messages in it (08 R226, R470; 11 R326) -/

/-- The block itself sent a message. -/
def ownMsg (s : State) (m : Msg) : Bool := srcEp m == selfEp s

/-- Two messages belong to one run. -/
def sameRun (a b : Msg) : Bool := a.source == b.source && a.tag == b.tag

/-- What is left of a run, on the ports of a direction, whose earlier flits are lost. -/
def dropRest (ports : List Nat) (lost : List Msg) (s : State) : State :=
  let gone (ms : List Msg) : Bool := match ms with
    | m :: _ => (m.opcode == opCont || m.opcode == opCollCont) && ownMsg s m && lost.any (sameRun m)
    | [] => false
  forEach ports (fun n => modPort n (fun p =>
    { p with tx := { p.tx with current := p.tx.current.filter (fun e => !gone e.2) } })) s

/-- Messages whose path is lost: the block's own requests are dealt with by 08 R227, its collective
pieces by 11 R326, and the rest by their sources. -/
def lostMsgs (ports : List Nat) (ms : List Msg) (s : State) : State :=
  let own := ms.filter (ownMsg s)
  let tags := (own.filter (fun m => isRequest m.opcode || m.opcode == opCont)).map (·.tag)
  collLost own (pathLostTags tags.eraseDups (dropRest ports own s))

/-- Discard a port's Broke store as a lost path (06 R180, 08 R226). -/
def discardBroke (n : Nat) (s : State) : State :=
  let ms := (portOf s n).tx.broke.flatMap (·.msgs)
  let s := modPort n (fun p => { p with tx := { p.tx with broke := [], resend := p.tx.nextTx } }) (freshWord (.broke n) s)
  lostMsgs [n, twinOf n] ms s

/-! ### Queued messages of a port that left service (08 R470) -/

/-- What is left of a port's turns, as items. -/
def restItems (p : Port) : List TxItem :=
  (List.finRange 8).filterMap (fun (v : Fin 8) =>
    match tabGet [] p.tx.current v with
    | [] => none
    | ms => some { vcb := v, input := (tabGet none p.tx.curFrom v).getD .steward, msgs := ms })

/-- The request at the head of an item of this endpoint, when its stream must hold it: a first sending in class 0 (08 R470,
R230). -/
def heldItem (s : State) (i : TxItem) : Option Tracker :=
  match i.input, i.msgs with
  | .own _, m :: _ =>
    if isRequest m.opcode then
      s.trk.trackers.find? (fun t => trkTag t.index t.gen == m.tag && !t.reissued && trkClass t == 0 &&
        streamHeld s t.target.toNat)
    else none
  | _, _ => none

/-- Requests of held streams leave the items that wait for a port and are held (08 R470). -/
def holdItems : List TxItem → State → List TxItem × State
  | [], s => ([], s)
  | i :: is, s =>
    match heldItem s i with
    | some t => holdItems is (holdRequest t.index s)
    | none =>
      let (js, s) := holdItems is s
      (i :: js, s)

/-- Take everything that waits at a port, but for what its stream holds. -/
def takeItems (n : Nat) (s : State) : List TxItem × State :=
  let p := portOf s n
  holdItems (restItems p ++ p.tx.queue)
   (modPort n (fun p => { p with tx := { p.tx with
     queue := [], current := [], curFrom := [], openTurn := [] } }) s)

/-- The dateline set a transit message arrived in (07 R200, R205). -/
def arrivalSet (s : State) (port vcb : Nat) (m : Msg) : Nat :=
  let dir := travelDir port
  let a := selfCoord s (dirDim dir)
  let c := coordOf (srcEp m) (dirDim dir)
  if turnedOf m.flags then vcb % 2
  else b2n (if dirMinus dir then decide (c < a) else decide (a < c))

/-- Send one waiting item again, on the route of the moment (08 R470, 07 R195). -/
def resendItem (i : TxItem) (s : State) : State :=
  match i.msgs, i.input with
  | [], _ => s
  | m :: _, .port k =>
    match transitHop s k (arrivalSet s k i.vcb m) m with
    | .here => s
    | .stuck => cannotForward m s
    | .out p v flags turned =>
      enqueue p v i.input (i.msgs.map (fun x => { x with flags := flags }))
        (onlyIf turned (countRoute (fun r => { r with turned := satInc r.turned })) s)
  | m :: _, _ =>
    let (s, ok) := sendMsgs i.input i.msgs s
    if ok then s else noRoute m s

/-- Every waiting item of a port goes the route of the moment. -/
def reroute (n : Nat) (s : State) : State :=
  let (is, s) := takeItems n s
  forEach is resendItem s

/-- The port whose stream an item belongs to, of the two ports of a direction (07 R201). -/
def itemPort (s : State) (n : Nat) (i : TxItem) : Nat :=
  n / 2 * 2 + (match i.msgs with | m :: _ => twinLetter s m | [] => 0)

/-- Move what waits at port n to its twin: the twin's own streams go before what waits there, for
they are older, and port n's after it (06 R178 step 5, R181). -/
def moveItems (n : Nat) (s : State) : State :=
  let t := twinOf n
  let (is, s) := takeItems n s
  let older := is.filter (fun i => itemPort s n i == t)
  let mine := is.filter (fun i => itemPort s n i != t)
  modPort t (fun p => { p with tx := { p.tx with queue := older ++ p.tx.queue ++ mine } }) s

/-! ### Handover (06 R177 to R180) -/

/-- Which twin carries whose streams, when exactly one of two is in service (07 R202). -/
def setCarry (n : Nat) (carried : Bool) (s : State) : State :=
  modPort (twinOf n) (fun p => { p with carryingTwin := carried })
    (modPort n (fun p => { p with twinCarrying := carried }) s)

/-- The streams of port n continue on its twin while that is in service, and on other routes
otherwise. -/
def passStreams (n : Nat) (s : State) : State :=
  if inService (portOf s (twinOf n)) then moveItems n s else reroute n s

/-- Flits of port n's receive buffer that its twin's later ones wait for (06 R179, R181). -/
def markOlder (n : Nat) (s : State) : State :=
  modPort n (fun p => { p with rx := { p.rx with buf := p.rx.buf.map (fun f => { f with older := true }) } }) s

/-- The handover of port n fails (06 R180). -/
def handoverFail (n : Nat) (s : State) : State :=
  let s := modPort (twinOf n) (fun p => { p with handback := false, markMade := false, tx := { p.tx with takeover := [] } }) s
  let s := modPort n (fun p => { p with hand := none, handoverFails := satInc p.handoverFails }) s
  let s := logErr { cls := clsLink, sev := 1, port := n, unitKind := 2, detail := leBytes 5 (portOf s n).lastPeerExp.toNat } s
  passStreams n (discardBroke n s)

/-- Port n, out of service, begins the exchange on its twin (06 R178 steps 1 and 2). -/
def startHandover (n : Nat) (s : State) : State :=
  let t := twinOf n
  let p := portOf s n
  let s := if p.handback then moveItems n (modPort n (fun p => { p with handback := false, markMade := false }) s) else s
  let s := setCarry n true (modPort n (fun p => { p with hand := some { sent := true } }) s)
  let body := leBytes 1 n ++ leBytes 5 p.rx.expected.toNat ++ leBytes 5 p.tx.nextTx.toNat
  let s := sendCtrlAt t tyHandover body false s
  let s := { s with err := { s.err with takeTwins := satInc s.err.takeTwins } }
  logTakeover { cls := 0, sev := 0, port := n, unitKind := 3 } 1 s

/-- All flits that port n's handover resends are on the twin: the exchange ends (06 R178 step 5). -/
def endHandover (n : Nat) (h : Handover) (s : State) : State :=
  let t := twinOf n
  let s := sendCtrlAt t tyHandoverDone (leBytes 1 n ++ leBytes 2 h.resent) false s
  let s := modPort n (fun p => { p with
    hand := none
    handovers := satInc p.handovers
    lastResent := BitVec.ofNat 11 h.resent
    tx := { p.tx with broke := [], resend := p.tx.nextTx } }) (freshWord (.broke n) s)
  moveItems n (modPort t (fun p => { p with handback := false, markMade := false }) s)

/-- End the exchange of port n when nothing is left to be resent. -/
def tryEndHandover (n : Nat) (s : State) : State :=
  match (portOf s n).hand with
  | some h => if h.peerExp.isSome && (portOf s (twinOf n)).tx.takeover.isEmpty then endHandover n h s else s
  | none => s

/-- HANDBACK_MARK is queued on the twin once nothing of port n's streams waits there, and port n carries them again once
the mark has been sent (06 R181). -/
def tryHandback (n : Nat) (s : State) : State :=
  let t := twinOf n
  let p := portOf s n
  let q := portOf s t
  if !p.handback || !inService p then s
  else if p.markMade then
    if ctrlUnsent tyHandbackMark q.ctl then s
    else setCarry n false (modPort n (fun p => { p with handback := false, markMade := false }) s)
  else if q.hand.isNone && q.tx.takeover.isEmpty && (restItems q ++ q.tx.queue).all (fun i => itemPort s n i != n) then
    modPort n (fun p => { p with markMade := true }) (sendCtrlAt t tyHandbackMark (leBytes 1 n) false s)
  else s

/-! ### Leaving service (06 R175, R177) -/

/-- Port n, just out of service, gives up its streams: by handover to a twin in service when one may
run, and otherwise by detour. -/
def leaveService (n : Nat) (mayHand : Bool) (s : State) : State :=
  let t := twinOf n
  let clear (p : Port) : Port := { p with rx := { p.rx with awaitMark := false } }
  let s := modPort t clear (modPort n clear s)
  let s := modPort n (fun p => { p with rx := { p.rx with frozen := true, hold := false } }) s
  let s := setCarry t false s
  let s := updateDir (n / 2) s
  let s := if (portOf s t).hand.isSome then handoverFail t s else s
  if mayHand && !sixPort s && !wordLost (.broke n) s && inService (portOf s t) then startHandover n s
  else
    let stay (p : Port) : Port := { p with handback := false, markMade := false }
    let s := passStreams n (discardBroke n (modPort t stay (modPort n stay s)))
    if inService (portOf s t) then setCarry n true s else s

/-- Take a port DOWN, with its cause; from UP or DEGRADED its streams move (06 R175). -/
def goDown (n : Nat) (cause : Byte) (mayHand : Bool) (s : State) : State :=
  let was := inService (portOf s n)
  let s := modPort n (fun p => { darken lsDetect p with downCause := cause }) s
  let s := setPortState n psDown s
  if was then leaveService n mayHand s else s

/-- A port goes DOWN and a training attempt begins at once (06 R175). -/
def downAndRetrain (n : Nat) (cause : Byte) (held : Bool) (s : State) : State :=
  beginAttempt n held (goDown n cause true s)

/-- A FENCED port has lost its link: transmitters at high impedance, and an order given to it waits for no packet (06
R183). -/
def fenceDark (p : Port) : Port := { setLanes (fun _ x => { x with tx := .hiZ }) p with txHiZ := true, ctl := {} }

/-- The link of port n is lost (06 R175, R183).  In TRAINING and ADMISSION the timeouts of the attempt
and of admission decide. -/
def linkLost (n : Nat) (cause : Byte) (s : State) : State :=
  let p := portOf s n
  if inService p then
    let s := modPort n (fun p => { p with linkLosses := satInc p.linkLosses }) s
    let s := logErr { cls := clsLink, sev := 3, port := n, unitKind := 2, cause := cause.toNat,
                      detail := leBytes 5 p.rx.expected.toNat } s
    downAndRetrain n cause false s
  else if p.state = psFenced then modPort n fenceDark s
  else s

/-- Packets of types that R158 forbids in FENCED do not go out: one not sent yet is dropped, and the SEQ of one sent and not
acknowledged is resent, if at all, as a FENCE_NOTICE (log entry 99). -/
def fenceCtl (cause : Byte) (c : Ctl) : Ctl :=
  let ok (x : Ctrl) : Bool := !ctrlServiceOnly.contains x.typ
  let sent := (c.held.take c.sent).map (fun x =>
    if ok x then x else { x with typ := tyFenceNotice, part := false, body := padTo 24 [cause] })
  let rest := (c.held.drop c.sent).filter ok
  let first := c.nextSeq - BitVec.ofNat 16 (c.held.length - c.sent)
  { c with
    held := sent ++ rest.zipIdx.map (fun x => { x.1 with seq := first + BitVec.ofNat 16 x.2 })
    queue := c.queue.filter ok
    nextSeq := first + BitVec.ofNat 16 rest.length }

/-- Fence a port (06 R175, R182, R183). -/
def fencePort (n : Nat) (cause : Byte) (notice : Bool) (s : State) : State :=
  let p := portOf s n
  let was := inService p
  if !(was || p.state == psAdmission || inLinkInit p) then s
  else
    let s := onlyIf notice (sendCtrlAt n tyFenceNotice [cause] false) s
    let s := { s with sec := { s.sec with
      admitFenced := if p.state = psAdmission then satInc s.sec.admitFenced else s.sec.admitFenced } }
    let s := modPort n (fun p => { p with
      fenceCause := cause, attempt := none, adm := none
      ctl := fenceCtl cause p.ctl
      leaveDue := if p.leaveDue = some .stuck then none else p.leaveDue
      cal := { p.cal with pass := none, waiting := false, waitsTwin := false, retry := none, deferred := false, repair := false } }) s
    let s := replaceOutcome n 0x8 (setPortState n psFenced s)
    let s := logErr { cls := clsPartner, sev := 3, port := n, unitKind := 3, cause := cause.toNat } s
    if was then leaveService n true s else s

/-! ### Leaving after an announcement (03 R74; 06 R173, R469) -/

/-- Park port n: DOWN with its lanes unpowered and its calibration held (03 R70, R74; 06 R175).  A FENCED port stays
FENCED (06 R183). -/
def parkNow (n : Nat) (s : State) : State :=
  let p := portOf s n
  let s := if p.state = psFenced ∨ p.state = psTest ∨ p.state = psDown then s else goDown n 0x0A false s
  modPort n (fun q =>
    let q := setLanes (fun _ x => darkLane lsOff x) q
    { q with parked := true, powered := false, pllLock := false, retryArmed := false, txHiZ := true, leaveDue := none }) s

/-- An ordered retrain of port n (06 R175, R183, R469). -/
def retrainNow (n : Nat) (full : Bool) (s : State) : State :=
  let p := portOf s n
  if inService p || p.state == psAdmission then downAndRetrain n 0x08 (!full) s
  else if p.state = psFenced then
    if mayTrain s n then beginAttempt n (!full) (modPort n (darken lsDetect) s) else s
  else if p.state = psDown then beginAttempt n (!full) s
  else s

/-- A packet that announces a port's leaving has not been sent yet. -/
def leaveUnsent (c : Ctl) : Bool := ctrlUnsent tyPark c || ctrlUnsent tyRetrainReq c || ctrlUnsent tyStuckNotice c

/-- Port n leaves its state once its announcement has been sent, or cannot be (03 R74; 06 R173, R469). -/
def tryLeave (n : Nat) (s : State) : State :=
  let p := portOf s n
  match p.leaveDue with
  | none => s
  | some l =>
    if linkUp p && leaveUnsent p.ctl then s
    else
      let s := modPort n (fun p => { p with leaveDue := none }) s
      match l with
      | .park => parkNow n s
      | .retrain full => retrainNow n full s
      | .stuck => linkLost n 0x06 s

/-- Announce that port n leaves, and leave when the packet goes out at once. -/
def announce (n : Nat) (typ : Byte) (body : List Byte) (l : Leave) (s : State) : State :=
  tryLeave n (flushCtrl n (modPort n (fun p => { p with leaveDue := some l }) (sendCtrlAt n typ body false s)))

/-- What a step found about port n takes effect: a fencing limit first, then a lost link. -/
def settlePort (n : Nat) (s : State) : State :=
  let p := portOf s n
  let s := modPort n (fun p => { p with lossDue := none, fenceDue := none }) s
  let s := match p.fenceDue with
    | some c => if inService p then fencePort n c true s else s
    | none => s
  let s := match p.lossDue with
    | some c => linkLost n c s
    | none => s
  tryHandback n (tryEndHandover n (tryLeave n s))

/-- Every port settles. -/
def settlePorts (s : State) : State := forEach (List.range 12) settlePort s

/-! ### Entering service (06 R175, R181; 07 R199) -/

/-- An admitted port enters service at its width (06 R175, 16 R435 step 6). -/
def enterService (n : Nat) (s : State) : State :=
  let t := twinOf n
  let s := modPort n (fun p => { p with adm := none, attemptFails := 0 }) s
  let s := { s with sec := { s.sec with admitted := satInc s.sec.admitted } }
  let wide := decide ((portOf s n).deckle.width = 3)
  let s := setPortState n (if wide then psUp else psDegraded) s
  let s := replaceOutcome n (servedOutcome (portOf s n)) s
  let s := if sixPort s then s
    else if inService (portOf s t) then
      modPort n (fun p => { p with handback := true, rx := { p.rx with hold := true, awaitMark := true } }) s
    else setCarry t true s
  sendBreaks n (updateDir (n / 2) s)

/-! ### Control packets about handover and handback -/

/-- HANDOVER received on port t about its twin (06 R178 steps 2 to 4, R179, R180). -/
def doHandover (t : Nat) (expected : Count) (s : State) : State :=
  let n := twinOf t
  if sixPort s then s
  else
    let s := if inService (portOf s n) then downAndRetrain n 0x09 false s else s
    match (portOf s n).hand with
    | none => s
    | some h =>
      if h.peerExp.isSome then s
      else
        let s := markOlder n s
        let busy := !(portOf s n).rx.buf.isEmpty
        let s := modPort t (fun p => { p with rx := { p.rx with hold := p.rx.hold || busy } }) s
        let s := modPort n (fun p => { p with lastPeerExp := expected }) s
        match fromOldest (portOf s n).tx expected with
        | none => handoverFail n (malformedAt t s)
        | some d =>
          let (lost, s) := readRam (.broke n) { cls := 0, sev := 3, port := n, unitKind := 2, cause := 0x05 } s
          if lost then handoverFail n s else
          let flits := (portOf s n).tx.broke.drop d
          let s := modPort n (fun p => { p with
            hand := some { h with peerExp := some expected, resent := flits.length }
            tx := { p.tx with broke := flits, resend := p.tx.nextTx } }) s
          modPort t (fun p => { p with tx := { p.tx with takeover := flits } }) s

/-- The partner's HANDOVER did not come within 20 µs (06 R180). -/
def doHandoverTimeout (n : Nat) (s : State) : State :=
  match (portOf s n).hand with
  | some h => if h.peerExp.isNone then handoverFail n s else s
  | none => s

/-- HANDBACK_MARK received on port t about its twin: what came before it on t is older (06 R181).  The
partner thereby also says that the twin was not carrying t's streams (log entry 29). -/
def doHandbackMark (t : Nat) (s : State) : State :=
  let n := twinOf t
  let s := if (portOf s n).rx.awaitMark then markOlder t s else s
  let clear (p : Port) : Port := { p with rx := { p.rx with awaitMark := false } }
  modPort t clear (modPort n clear s)

/-- Every older flit of the twin has been taken: port n's held flits are released (06 R179, R181). -/
def doHoldRelease (n : Nat) (s : State) : State :=
  let p := portOf s n
  if (p.rx.hold || p.rx.buf.any (·.onHold)) && !p.rx.awaitMark && !(portOf s (twinOf n)).rx.buf.any (·.older) then
    modPort n (fun p => { p with rx := { p.rx with
      hold := false, buf := p.rx.buf.map (fun f => { f with onHold := false }) } }) s
  else s

/-! ### Replay, acknowledgement and pause (06 R156, R162 to R164, R167, R173) -/

/-- Resend from a count on (06 R163, R164). -/
def startReplay (n : Nat) (first : Count) (cause : Byte) (s : State) : State :=
  modPort n (fun p =>
    let q := sendCtrl tyReplayStart (leBytes 5 first.toNat ++ [cause]) false p
    { q with tx := { q.tx with resend := first } }) s

/-- 600 s ago, in µs. -/
def spanFrom (s : State) : Nat := s.nowUs - 600000000

/-- A NAK was counted: a storm at 4,096 in one window (06 R182). -/
def countNak (n : Nat) (s : State) : State :=
  let s := modPort n (fun p => { p with nakRcvd := satInc p.nakRcvd, winNaks := p.winNaks + 1 }) s
  let p := portOf s n
  if p.winNaks ≠ 4096 then s
  else
    let again := p.stormAt.any (fun a => decide (spanFrom s ≤ a))
    let now := s.nowUs
    let s := modPort n (fun p => { p with nakStorms := satInc p.nakStorms, stormAt := now :: p.stormAt }) s
    let s := logErr { cls := clsPartner, sev := 0, port := n, unitKind := 3, cause := 0x07 } s
    if again then modPort n (fun p => { p with fenceDue := some 0x07 }) s else loseLink n 0x0B s

/-- NAK (06 R160, R163, R182). -/
def doNak (n : Nat) (e : Count) (s : State) : State :=
  if !inService (portOf s n) then s
  else
    let s := logErr { cls := clsLink, sev := 0, transient := true, port := n, unitKind := 2, detail := leBytes 5 e.toNat }
      (countNak n s)
    match fromOldest (portOf s n).tx e with
    | none => impossibleCount n s
    | some d => startReplay n e 1 (modPort n (fun p => { p with tx := freeAcked d p.tx }) s)

/-- REPLAY_START (06 R162). -/
def doReplayStart (n : Nat) (first : Count) (s : State) : State :=
  let p := portOf s n
  if !inService p then s
  else if belowInWindow first p.rx.expected || first == p.rx.expected then
    modPort n (fun p => { p with rx := { p.rx with cur := first, waiting := false } }) s
  else impossibleCount n s

/-- The oldest unacknowledged flit has waited for its time (06 R164). -/
def doReplayTimeout (n : Nat) (s : State) : State :=
  let p := portOf s n
  if !inService p || p.tx.broke.isEmpty then s
  else
    let s := modPort n (fun p => { p with
      replayTimeouts := satInc p.replayTimeouts, tx := { p.tx with replayFails := p.tx.replayFails + 1 } }) s
    let s := logErr { cls := clsLink, sev := 0, port := n, unitKind := 2, detail := leBytes 5 (oldestOf p.tx).toNat } s
    if 4 ≤ p.tx.replayFails + 1 then loseLink n 0x05 s else startReplay n (oldestOf p.tx) 2 s

/-- A receiver has waited for REPLAY_START for its time (06 R164). -/
def doReplayStartWait (n : Nat) (s : State) : State :=
  let p := portOf s n
  if !inService p || !p.rx.waiting then s
  else if 4 ≤ p.rx.naksForCount then loseLink n 0x05 s
  else modPort n (fun p => sendNak p.rx.nakReason p) s

/-- CNAK (06 R167): resend from the named packet, when it is held, else from the oldest. -/
def doCnak (n : Nat) (cexp : BitVec 16) (s : State) : State :=
  modPort n (fun p => { p with ctl := ctrlRewind (takeCack cexp p.ctl) }) s

/-- 12 µs without CACK progress (06 R167). -/
def doControlTimeout (n : Nat) (s : State) : State :=
  let p := portOf s n
  if linkUp p && p.ctl.sent ≠ 0 then modPort n (fun p => { p with ctl := ctrlRewind p.ctl }) s else s

/-- An acknowledgement has been owed for 1 µs: a null flit is ready, and wakes the port (06 R156). -/
def doAckOwed (n : Nat) (s : State) : State :=
  let p := portOf s n
  if inService p && p.rx.ackOwed then
    wakePort n (modPort n (fun p => { p with rx := { p.rx with nullReady := true } }) s)
  else s

/-- The partner has held one XOFF bit for longer than PAUSE_LIMIT (06 R173, R182). -/
def doPauseLimit (n v : Nat) (s : State) : State :=
  let p := portOf s n
  if !inService p || !p.rx.xoffRcvd.getLsbD v then s
  else
    let now := s.nowUs
    let s := modPort n (fun p => { p with
      stuckCount := satInc p.stuckCount, stuckAt := now :: p.stuckAt
      longestXoff := satAdd 0 (max p.longestXoff.toNat (now - tabGet now p.rx.xoffSince v)) }) s
    if 3 ≤ ((portOf s n).stuckAt.filter (fun a => decide (spanFrom s ≤ a))).length then
      modPort n (fun p => { p with fenceDue := some 0x05 }) (flushCtrl n (sendCtrlAt n tyStuckNotice (leBytes 1 v) false s))
    else announce n tyStuckNotice (leBytes 1 v) .stuck s

/-- The end of a 1 s window of R182: a limit reached fences, and the counts start again. -/
def doMisbehaviourWindow (n : Nat) (s : State) : State :=
  modPort n (fun p => { p with
    fenceDue := if !inService p then p.fenceDue
      else if 16 ≤ p.winViol then some 0x06
      else if 64 ≤ p.winMalformed then some 0x08
      else p.fenceDue
    winViol := 0, winNaks := 0, winMalformed := 0 }) s

/-! ### Parks, retrains and fences of the partner (03 R74; 06 R175, R469) -/

/-- PARK: the partner's port leaves; no handover (06 R175). -/
def doPark (n : Nat) (parking : Byte) (s : State) : State :=
  if inService (portOf s n) && parking == 1 then
    modPort n (fun p => { p with retryArmed := true }) (goDown n 0x0A false s)
  else s

/-- RETRAIN_REQ (06 R469). -/
def doRetrainReq (n : Nat) (fullCal : Byte) (s : State) : State :=
  let p := portOf s n
  if inService p || p.state == psAdmission then downAndRetrain n 0x08 (fullCal != 1) s else s

/-- A retrain ordered through PORT_RETRAIN or over the sideband: RETRAIN_REQ goes out first on a link that is up, from a
state in which R158 allows it (06 R175, R183, R469). -/
def orderRetrain (n : Nat) (full : Bool) (s : State) : State :=
  let p := portOf s n
  if linkUp p && ctrlAllowed p tyRetrainReq then announce n tyRetrainReq [if full then 1 else 0] (.retrain full) s
  else retrainNow n full s

/-- FENCE_NOTICE: the partner has fenced this port (06 R175). -/
def doFenceNotice (n : Nat) (cause : Byte) (s : State) : State := fencePort n cause false s

/-- STUCK_NOTICE (06 R173). -/
def doStuckNotice (n : Nat) (s : State) : State := modPort n (fun p => { p with stuckNoticed := true }) s

/-- The lane PLL of a port loses lock (03 R68). -/
def doLanePllUnlock (n : Nat) (s : State) : State :=
  let p := portOf s n
  let s := modPort n (fun p => { p with pllLock := false }) s
  if p.state = psFenced then modPort n fenceDark s
  else if p.state = psDown ∨ p.state = psTest then s
  else downAndRetrain n 0x07 false s

end Sys2Proof.Machine
end

