-- ==== Sys2Proof/Machine/Lanes.lean ====
section
/-! DEFINITION. The lane level: the Deckle, blocks and alignment, markers, electrical idle, lanes that fail in service,
calender passes and test loops (05). -/

namespace Sys2Proof.Machine

/-! ### The Deckle (05 R126, R129) -/

/-- WIDTH for a number of good lanes (05 R129). -/
def widthFor (g : Nat) : BitVec 2 := if 8 ≤ g then 3 else if 4 ≤ g then 2 else if 2 ≤ g then 1 else 0

/-- Good physical lanes of a port, rising. -/
def goodLanes (p : Port) : List Nat := allLanes.filter (fun k => (laneOf p k).good)

/-- Logical lanes on physical lanes in order. -/
def mapLanes (lanes : List Nat) : Tab (BitVec 4) := lanes.zipIdx.map (fun x => (x.2, BitVec.ofNat 4 x.1))

/-- The Deckle that R129 chooses from good lanes. -/
def chooseDeckle (good : List Nat) (epoch : Byte) : Deckle :=
  let w := widthFor good.length
  let n := widthLanes w
  { map := mapLanes (good.take n)
    spare := if w = 0 then 0xF else match good[n]? with | some k => BitVec.ofNat 4 k | none => 0xF
    width := w
    epoch := epoch }

/-- The state that a Deckle gives a lane: ACTIVE, or SPARE for a good lane that carries nothing; the rest FAILED (05 R125,
R128).  A lane that stops carrying data stops its alignment (05 R121). -/
def settleLane (p : Port) (k : Nat) (x : Lane) : Lane :=
  if !x.good then { stopLane lsFailed x with tx := .quiet }
  else match logicalOf p.deckle k with
    | some _ => { x with state := if x.state = lsIdle then lsIdle else lsActive, tx := if p.txIdle then .quiet else .data }
    | none => if x.state = lsSpare then x else { stopLane lsSpare x with tx := .quiet }

def settleLanes (p : Port) : Port := setLanes (settleLane p) p

/-- The lowest-numbered good physical lane that carries no logical lane (05 R138). -/
def nextSpare (p : Port) : BitVec 4 :=
  match (goodLanes p).find? (fun k => (logicalOf p.deckle k).isNone) with
  | some k => BitVec.ofNat 4 k
  | none => 0xF

/-- The lanes of the Deckle. -/
def deckleLanes (p : Port) : List Nat := allLanes.filter (fun k => (logicalOf p.deckle k).isSome)

/-- Change the lanes of the Deckle. -/
def onDeckle (f : Lane → Lane) (p : Port) : Port :=
  setLanes (fun k x => if (logicalOf p.deckle k).isSome then f x else x) p

/-- A calibration or trim of lane k adapts its receiver offset and clock recovery, and nothing else; no rule gives the
values (05 R127, R134; log entry 2). -/
def calibrate (n k : Nat) (s : State) : State :=
  let (c, s) := takeFree s
  modPort n (modLane k (fun x => { x with calib := some (Config.calibration c), held := true })) s

/-- A trim of the spare, when there is one (05 R138, R141). -/
def trimSpare (n : Nat) (s : State) : State :=
  let sp := (portOf s n).deckle.spare
  if sp = 0xF then s else calibrate n sp.toNat s

/-! ### Calender passes stop (05 R143, R144) -/

/-- A port that was narrowed for a trim has its width again, with the next epoch (05 R143). -/
def widen (p : Port) : Port :=
  match p.cal.wide with
  | none => p
  | some d =>
    restartStream { p with
      deckle := { d with epoch := p.deckle.epoch + 1 }
      cal := { p.cal with wide := none } }

/-- A pass stops: its lanes return to what the Deckle gives them. -/
def stopPass (p : Port) : Port :=
  if p.cal.pass.isNone then p
  else
    let p := widen p
    settleLanes { p with cal := { p.cal with
      pass := none, step := 0, peerPass := false, forceActive := false, repair := false } }

/-- A swap of R138 that waits for its retry is given up. -/
def dropRepair (p : Port) : Port :=
  if p.cal.repair then { p with cal := { p.cal with repair := false, waiting := false, retry := none } } else p

/-! ### Lanes that fail in service (05 R138) -/

/-- The spare takes over a logical lane. -/
def takeSpare (l : Nat) (p : Port) : Port :=
  let d := { p.deckle with map := tabSet 0xF l p.deckle.spare p.deckle.map, epoch := p.deckle.epoch + 1 }
  let p := { p with deckle := d }
  settleLanes { p with deckle := { d with spare := nextSpare p } }

/-- The port narrows to the lanes that remain; the stream starts again at the new width (log entry 97). -/
def narrow (p : Port) : Port :=
  settleLanes (restartStream { p with deckle := chooseDeckle (goodLanes p) (p.deckle.epoch + 1) })

def lanesTaken (s : State) : State := { s with err := { s.err with takeLanes := satInc s.err.takeLanes } }

/-- The width and the spare that remain, in a take-over's report (05 R138). -/
def remains (p : Port) : List Byte := leBytes 1 (widthLanes p.deckle.width) ++ leBytes 1 p.deckle.spare.toNat

/-- A LANE event about lane k of port n. -/
def laneEvt (n k : Nat) : Evt := { cls := clsLane, sev := 1, port := n, unitKind := 1, unitIndex := 9 * n + k }

/-- Without a spare the width falls, below ×2 to DOWN (05 R138). -/
def narrowPort (n k : Nat) (s : State) : State :=
  let s := trimSpare n (modPort n narrow s)
  let p := portOf s n
  if p.deckle.width = 0 then linkLost n 0x04 s
  else
    let s := lanesTaken s
    let s := if p.state = psUp then setPortState n psDegraded s else s
    logTakeover { laneEvt n k with detail := remains p } (widthLanes p.deckle.width) s

/-- Lane k of port n is treated as failed in service (05 R138, 15 R411): a spare is trimmed and takes over at once, and the
new spare is trimmed too (log entry 102). -/
def laneFailed (n k : Nat) (s : State) : State :=
  let p := portOf s n
  if p.deckle.width = 0 || !(laneOf p k).good || !linkUp p then s
  else
    let p := dropRepair (stopPass p)
    let l := logicalOf p.deckle k
    let s := setPort n (modLane k (fun x => { stopLane lsFailed x with good := false, tx := .quiet }) p) s
    match l with
    | none =>
      if p.deckle.spare.toNat = k then
        logErr (laneEvt n k) (trimSpare n (modPort n (fun p => settleLanes { p with deckle := { p.deckle with
          spare := nextSpare p, epoch := p.deckle.epoch + 1 } }) s))
      else logErr (laneEvt n k) s
    | some l =>
      if p.deckle.spare ≠ 0xF then
        let s := lanesTaken (trimSpare n (modPort n (takeSpare l) (trimSpare n s)))
        let q := portOf s n
        logTakeover { laneEvt n k with detail := remains q } (goodLanes q).length s
      else narrowPort n k s

/-! ### Block alignment (05 R118, R121, R122) -/

/-- The receiver of a lane looks for blocks in this state; in electrical idle only once a BURST has arrived (05 R121,
R135). -/
def laneRuns (x : Lane) : Bool :=
  x.state == lsAlign || x.state == lsActive || x.state == lsMirror || (x.state == lsIdle && !x.deaf)

/-- Slip the candidate position by one bit. -/
def slip (x : Lane) : Lane := { x with align := .hunt, position := (x.position + 1) % 130 }

/-- One header advances the alignment state machine (05 R121). -/
def alignStep (valid : Bool) (x : Lane) : Lane :=
  match x.align with
  | .hunt => if valid then { x with align := .tentative 1 } else slip x
  | .tentative c =>
    if !valid then slip x
    else if 64 ≤ c + 1 then { x with align := .locked, window := [] }
    else { x with align := .tentative (c + 1) }
  | .locked =>
    let w := (valid :: x.window).take 64
    if 16 ≤ (w.filter (fun b => !b)).length then
      { x with align := .hunt, window := [], lockLosses := satInc x.lockLosses }
    else { x with window := w }

/-- A header error is counted (05 R118, R120, R123). -/
def headerError (x : Lane) : Lane := { x with headerErrors := x.headerErrors + 1 }

/-- A header arrives on a lane; one that leaves LOCKED in service has failed (05 R121, R122). -/
def laneHeader (n k : Nat) (valid : Bool) (s : State) : State :=
  let x := laneOf (portOf s n) k
  if !laneRuns x then s
  else
    let y := alignStep valid (if valid then x else headerError x)
    let s := modPort n (modLane k (fun _ => y)) s
    if x.align = .locked ∧ y.align ≠ .locked then
      let s := logErr { cls := clsLane, sev := 0, port := n, unitKind := 1, unitIndex := 9 * n + k } s
      if x.state = lsActive then laneFailed n k s else s
    else s

/-- A block of a lane of the Deckle joins its deskew buffer (05 R124). -/
def deskewBlock (k : Nat) (e : Deskewed) (p : Port) : Port :=
  if (logicalOf p.deckle k).isSome then takeBlock k e p else p

/-- The payload of a data block goes to the link level, and that of a block with an invalid header as zero (05 R118); the
scrambler advances over both (05 R119; log entry 103). -/
def dataBlock (k : Nat) (valid : Bool) (payload : BitVec 128) (p : Port) : Port :=
  let x := laneOf p k
  let (v, d) := scramble 128 x.scrambler payload
  let d := if valid then d else 0
  deskewBlock k (.data d) (modLane k (fun x => { x with scrambler := v, lastPayload := d }) p)

/-! ### Test loops: generators and checkers (05 R145, R146) -/

/-- Lanes of a mask. -/
def inMask (m : BitVec 9) (k : Nat) : Bool := m.getLsbD k

/-- The loop that a lane is in: 0 none, 1 to 3 as MODE, 4 the far-end loop that the partner asked for. -/
def loopKind (p : Port) (k : Nat) : Nat :=
  if inMask p.farLoop k then 4 else if p.loopMode ≠ 0 ∧ inMask p.loopLanes k = true then p.loopMode.toNat else 0

/-- One block's time on a lane in a loop.  Near-end serial: the generator's symbols come back to the checker.  Near-end
parallel: its bits pass encoder, scrambler, alignment and descrambler.  Far-end: the generator sends, and the checker takes
what has come back, `v`.  In the partner's far-end loop the received symbols are sent again (05 R145, R146). -/
def loopBlock (p : Port) (k v : Nat) (x : Lane) : Lane :=
  let pat := p.loopPattern
  match loopKind p k with
  | 1 =>
    let (g, h) := prbsBits pat 130 x.gen
    checkBits pat 130 (bitsOfLevels (pamLevels 65 g)) { x with gen := h, line := pamLevels 65 g }
  | 2 =>
    let (g, h) := prbsBits pat 128 x.gen
    let (tv, d) := scramble 128 x.txScrambler (BitVec.ofNat 128 g)
    let (rv, e) := scramble 128 x.scrambler d
    checkBits pat 128 e.toNat (alignStep true { x with gen := h, txScrambler := tv, scrambler := rv, lastPayload := e })
  | 3 =>
    let (g, h) := prbsBits pat 130 x.gen
    checkBits pat 130 v { x with gen := h, line := pamLevels 65 g }
  | 4 => { x with line := pamLevels 65 v }
  | _ => x

/-! ### TRAIN blocks (05 R120, R127, R137) -/

/-- The port is at step 2 of an attempt, and the lane takes part in it. -/
def inStep2 (p : Port) (x : Lane) : Bool :=
  (match p.attempt with | some a => a.step == 2 | none => false) && (x.state == lsCal || x.state == lsTrim)

/-- The P and N swap is looked for: in a full attempt (05 R127, R131). -/
def seeksSwap (p : Port) : Bool := match p.attempt with | some a => !a.held | none => false

/-- A lane's type byte in step 2 shows its polarity: inverted, P and N are swapped (05 R127; log entry 92). -/
def takePolarity (k t : Nat) (p : Port) : Port :=
  if seeksSwap p && (t == 0x54 || t == swappedByte 0x54) then
    modLane k (fun x => { x with swapped := t == swappedByte 0x54 }) p
  else p

/-- A TRAIN block's exchange of step, good lanes, width and Deckle (05 R120, R127). -/
def takeTrain (payload : BitVec 128) (p : Port) : Port :=
  if p.attempt.isSome && payload.toNat % 256 == 0x54 then { p with phy := { p.phy with train := some (parseTrain payload) } }
  else p

/-- The exit from electrical idle is sent, whether the lanes idle or the partner asks for it again (05 R136, R137). -/
def sendExit (n : Nat) (p : Port) : Port := idleExit n { p with txIdle := true }

/-- TRAIN on a lane: the exchange of a training attempt, or on a link in service the partner's request to exit from idle
again (05 R120, R127, R137). -/
def doTrain (n k : Nat) (payload : BitVec 128) (s : State) : State :=
  let p := portOf s n
  let x := laneOf p k
  let t := payload.toNat % 256
  if inStep2 p x then modPort n (fun p => takeTrain payload (takePolarity k t p)) s
  else if !laneRuns x || t != 0x54 then s
  else
    let s := modPort n (takeTrain payload) (laneHeader n k true s)
    if inService (portOf s n) then modPort n (sendExit n) s else s

/-! ### LANE_BLOCK (05 R117 to R121) -/

/-- The bits of a block as the receiver has them, P and N corrected (05 R127). -/
def lineBits (x : Lane) (header : BitVec 2) (payload : BitVec 128) : Nat :=
  if x.swapped then swapPolarity (blockNat header payload) else blockNat header payload

/-- In step 2 only the polarity of what arrives is of interest, as it stands on the wires (05 R127). -/
def step2Block (k : Nat) (header : BitVec 2) (payload : BitVec 128) (p : Port) : Port :=
  let t := payload.toNat % 256
  if header = 1 ∧ t = 0x54 ∨ header = 0 ∧ t = swappedByte 0x54 then takePolarity k t p else p

/-- A block on a lane whose receiver looks for blocks: header `h` and payload `d`, corrected. -/
def runBlock (n k : Nat) (h : BitVec 2) (d : BitVec 128) (s : State) : State :=
  if h = 1 then
    laneHeader n k true (onlyIf (!orderedTypes.contains (d.toNat % 256)) (modPort n (modLane k headerError)) s)
  else
    let valid := h == 2
    laneHeader n k valid (modPort n (dataBlock k valid d) s)

/-- LANE_BLOCK (05 R117 to R121, R127, R145). -/
def doLaneBlock (n k : Nat) (header : BitVec 2) (payload : BitVec 128) (s : State) : State :=
  let p := portOf s n
  let x := laneOf p k
  let v := lineBits x header payload
  if inStep2 p x then modPort n (step2Block k header payload) s
  else if x.state = lsLoop then modPort n (modLane k (loopBlock p k v)) s
  else if !laneRuns x then s
  else runBlock n k (BitVec.ofNat 2 v) (BitVec.ofNat 128 (v / 4)) s

/-! ### Markers (05 R119, R123, R124, R136) -/

/-- Bytes 8 to 15 of a marker are bytes 0 to 7 inverted (05 R123). -/
def markerOk (v : Nat) : Bool := bitsOf v 0 8 == 0x4D && bitsOf v 64 64 == 2 ^ 64 - 1 - bitsOf v 0 64

/-- A count agrees with what the lane itself expects, or with what another ACTIVE lane expects or has just had (05 R124;
log entry 104). -/
def markerCountOk (p : Port) (k : Nat) (c : BitVec 24) : Bool :=
  c == (laneOf p k).markerCount ||
    allLanes.any (fun j => j != k && ((laneOf p j).state == lsActive) &&
      (c == (laneOf p j).markerCount || c + 1 == (laneOf p j).markerCount))

/-- The exit from electrical idle is complete on every lane (05 R136). -/
def endExit (p : Port) : Port :=
  if p.rxIdle && allLanes.all (fun k => (laneOf p k).state != lsIdle) then
    { p with rxIdle := false, exitFails := 0, bursts := 0 }
  else p

/-- The state of a lane after a marker: one that exits from idle is in service when it has locked and the epoch is
unchanged (05 R136). -/
def markedState (epoch : Byte) (x : Lane) : BitVec 4 :=
  if x.state = lsIdle ∧ x.align = .locked ∧ epoch = x.rxEpoch then lsActive else x.state

/-- Take a marker that agrees: the lane's scrambler restarts, and the marker is the point of deskew (05 R119, R124). -/
def takeMarker (k l : Nat) (epoch : Byte) (c : BitVec 24) (p : Port) : Port :=
  endExit (deskewBlock k (.marker c) (modLane k (fun x =>
    { x with
      markerCount := c + 1
      scrambler := scramblerSeed l
      rxLogical := some l
      rxEpoch := epoch
      state := markedState epoch x }) p))

/-- MARKER (05 R123, R124). -/
def doMarker (n k : Nat) (payload : BitVec 128) (s : State) : State :=
  if !laneRuns (laneOf (portOf s n) k) then s
  else
    let s := laneHeader n k true s
    let v := payload.toNat
    if !markerOk v then modPort n (modLane k headerError) s
    else
      let p := portOf s n
      let l := bitsOf v 8 8
      let e := BitVec.ofNat 8 (bitsOf v 16 8)
      let c := BitVec.ofNat 24 (bitsOf v 40 24)
      match logicalOf p.deckle k with
      | none => modPort n (takeMarker k l e c) s
      | some l' =>
        if l = l' ∧ bitsOf v 24 8 = p.deckle.width.toNat ∧ markerCountOk p k c = true then
          modPort n (takeMarker k l e c) s
        else laneFailed n k s

/-! ### Electrical idle (03 R70, R72; 05 R135 to R137) -/

/-- A lane sees IDLE_ENTRY: it holds its calibration and offsets, and ignores what comes before a BURST (05 R135). -/
def idleLane (x : Lane) : Lane := { x with state := lsIdle, align := .hunt, window := [], deaf := true }

/-- Every lane idles: an incomplete flit is discarded, and the stream starts again at the first frame after the exit (06
R149, R150). -/
def idlePort (p : Port) : Port :=
  { onDeckle (fun x => { x with fifo := [], rxLogical := none }) p with
    rxIdle := true, phy := { p.phy with rxRows := [], rxBytes := [] } }

/-- IDLE_ENTRY on a lane (05 R135, 06 R150). -/
def doIdleEntry (n k : Nat) (s : State) : State :=
  if (laneOf (portOf s n) k).state ≠ lsActive then s
  else modPort n (fun p =>
    let p := { modLane k idleLane p with rxIdle := false, bursts := 0 }
    if (deckleLanes p).all (fun j => (laneOf p j).state == lsIdle) then idlePort p else p) s

/-- BURST on a lane (05 R136). -/
def doBurst (n k : Nat) (s : State) : State :=
  let x := laneOf (portOf s n) k
  if x.state = lsIdle then
    laneHeader n k true (modPort n (fun p =>
      { modLane k (fun x => { x with deaf := false }) p with rxIdle := true, bursts := p.bursts + 1 }) s)
  else if !laneRuns x then s
  else laneHeader n k true s

/-- A port may let its transmit lanes idle by itself: in P1, and not while P1 ends (03 R70, R72, R75). -/
def idleState (s : State) : Bool := s.power.cur == 1 && s.power.transition.isNone

/-- The transmit side idles (03 R72): nothing to send on a link that is up, and no pass under way. -/
def doIdleEnter (n : Nat) (s : State) : State :=
  let p := portOf s n
  if idleState s && linkUp p && !hasWork s p && !p.rx.nullReady && p.cal.pass.isNone then modPort n (idleEnter n) s else s

/-- A flit is ready at an idle port (03 R72, 05 R136); outside its throttle interval it waits (03 R90). -/
def doIdleExit (n : Nat) (s : State) : State :=
  let p := portOf s n
  if p.txIdle && p.inInterval && (hasWork s p || p.rx.nullReady || p.cal.pass.isSome) then modPort n (idleExit n) s else s

/-- The port asks for the partner's exit again, with a TRAIN block on its own transmit lanes (05 R137). -/
def askExit (n : Nat) (p : Port) : Port :=
  onDeckle (sendOrdered (trainPayload 0 (BitVec.ofNat 9 ((goodLanes p).foldl (fun a k => a + 2 ^ k) 0)) p.deckle))
    (newSending (idleExit n p))

/-- The lanes have not aligned within 2 µs of the first BURST (05 R137). -/
def doIdleExitTimeout (n : Nat) (s : State) : State :=
  let p := portOf s n
  if !inService p || !allLanes.any (fun k => (laneOf p k).state == lsIdle) || p.bursts = 0 then s
  else if 3 ≤ p.exitFails + 1 then
    downAndRetrain n 0x05 true (modPort n (fun p => { p with exitFails := 0 }) s)
  else modPort n (fun p => askExit n { p with exitFails := p.exitFails + 1, bursts := 0 }) s

/-! ### Calender passes (05 R140 to R144) -/

/-- The state of the spare lane, and what it sends. -/
def setSpare (st : BitVec 4) (tx : TxMode) (p : Port) : Port :=
  if p.deckle.spare = 0xF then p
  else modLane p.deckle.spare.toNat (fun x => { stopLane st x with tx := tx }) p

/-- The spare is trimmed against PRBS31 (05 R141 step 2). -/
def trimState (p : Port) : Port := setSpare lsTrim .prbs31 p

/-- CALENDER blocks that name the logical lane, the spare and the new epoch leave on the lanes in service (05 R141
step 1). -/
def sendCalender (l : Nat) (p : Port) : Port :=
  onDeckle (sendOrdered (calenderPayload l p.deckle.spare.toNat (p.deckle.epoch + 1))) (newSending p)

/-- Without a spare, the port narrows to the next lower width on lanes that exclude lane l's, and trims that (05 R143). -/
def narrowFor (l : Nat) (p : Port) : Port :=
  let k := (physOf p.deckle l).toNat
  let w := p.deckle.width - 1
  let q := settleLanes (restartStream { p with
    cal := { p.cal with wide := some p.deckle }
    deckle := { map := mapLanes (((goodLanes p).filter (· != k)).take (widthLanes w)), spare := 0xF, width := w
                epoch := p.deckle.epoch + 1 } })
  modLane k (fun x => { stopLane lsTrim x with tx := .prbs31 }) q

/-- The exchange about a logical lane begins. -/
def startSwap (l : Nat) (p : Port) : Port :=
  let p := { p with cal := { p.cal with pass := some l, step := 1 } }
  if p.deckle.spare = 0xF then narrowFor l p else sendCalender l p

/-- A pass begins at a logical lane; an idle port leaves idle for it (05 R141, R143, R144).  A spare in a test loop is
returned first (05 R145). -/
def beginPass (n l : Nat) (force : Bool) (s : State) : State :=
  modPort n (fun p => startSwap l (idleExit n (settleLanes { p with
    loopMode := 0, loopLanes := 0
    cal := { p.cal with
      peerPass := false, deferred := false, waiting := false, waitsTwin := false
      forceActive := force, narrowedUs := if l = 0 then 0 else p.cal.narrowedUs } }))) s

/-- The port runs passes: in service, in P0 or P1, firmware running. -/
def mayPass (s : State) (n : Nat) : Bool :=
  inService (portOf s n) && decide (s.power.cur.toNat ≤ 1) && stewardUp s && (portOf s n).cal.pass.isNone

/-- A ×2 port without a spare cannot narrow (05 R143). -/
def passSkipped (p : Port) : Bool := p.deckle.spare == 0xF && p.deckle.width == 1

/-- A pass is due on a port (05 R140, R143, R144). -/
def wantPass (n l : Nat) (s : State) : State :=
  let p := portOf s n
  if !mayPass s n then s
  else if passSkipped p then modPort n (fun p => { p with cal := { p.cal with stale := true } }) s
  else if s.power.level ≠ 0 ∧ p.cal.forceActive = false then
    modPort n (fun p => { p with cal := { p.cal with deferred := true } }) s
  else if (portOf s (twinOf n)).cal.pass.isSome then
    modPort n (fun p => { p with cal := { p.cal with waitsTwin := true } }) s
  else beginPass n l p.cal.forceActive s

/-- The logical lane at which the next pass begins: the one whose step is to be retried, or the first (05 R142). -/
def nextLane (c : Cal) : Nat := c.retry.getD 0

/-- A pass that waited for its twin's may begin (05 R144). -/
def settlePass (n : Nat) (s : State) : State :=
  let c := (portOf s n).cal
  if c.waitsTwin && (portOf s (twinOf n)).cal.pass.isNone then
    wantPass n (nextLane c) (modPort n (fun p => { p with cal := { p.cal with waitsTwin := false } }) s)
  else s

/-- Every port's waiting pass. -/
def settlePasses (s : State) : State := forEach (List.range 12) settlePass s

/-- A pass is complete (05 PORT_CAL; R140); time spent narrowed is reported, in a record of its port (05 R143; log
entry 105). -/
def endPass (n : Nat) (s : State) : State :=
  let s := modPort n (fun p =>
    let p := stopPass p
    { p with cal := { p.cal with
      passCount := p.cal.passCount + 1, calTemp := p.cal.temp, sinceCal := 0, retry := none } }) s
  let p := portOf s n
  if p.deckle.spare = 0xF then logErr { cls := clsLane, sev := 1, port := n, unitKind := 2, cause := p.cal.narrowedUs.toNat } s
  else s

/-- LANE_TEMPERATURE_READ (05 R140): 8 °C is 32 units of 0.25 °C; 60 s are 6,000 readings. -/
def doTemperature (n : Nat) (t : BitVec 10) (s : State) : State :=
  let s := modPort n (fun p => { p with cal := { p.cal with
    temp := t, sinceCal := if inService p then p.cal.sinceCal + 1 else p.cal.sinceCal } }) s
  let c := (portOf s n).cal
  let drift := max t.toNat c.calTemp.toNat - min t.toNat c.calTemp.toNat
  if (32 ≤ drift ∨ 6000 ≤ c.sinceCal) ∧ c.waiting = false ∧ c.deferred = false ∧ c.waitsTwin = false then wantPass n (nextLane c) s
  else s

/-- The steps of a pass pause while a handover or a replay is under way (05 R144). -/
def passPaused (s : State) (n : Nat) : Bool :=
  let p := portOf s n
  p.hand.isSome || (portOf s (twinOf n)).hand.isSome || p.tx.resend != p.tx.nextTx || p.rx.waiting

/-- CALENDER from the partner: it answers the block's own, or begins a pass of the partner's, which the block answers (05
R141, R144). -/
def doCalender (n l : Nat) (spare : Nat) (epoch : Byte) (s : State) : State :=
  let p := portOf s n
  if !inService p || p.deckle.spare.toNat != spare || p.deckle.epoch + 1 != epoch ||
      decide (widthLanes p.deckle.width ≤ l) then s
  else match p.cal.pass with
    | none =>
      modPort n (fun p =>
        let p := sendCalender l (idleExit n p)
        trimState { p with
          loopMode := 0, loopLanes := 0, cal := { p.cal with pass := some l, step := 2, peerPass := true } }) s
    | some k =>
      if k = l ∧ p.cal.step = 1 then
        let lower := decide (p.peerEndpoint.toNat < selfEp s)
        modPort n (fun p => trimState { p with
          cal := { p.cal with step := 2, peerPass := p.cal.peerPass || (decide (l = 0) && lower) } }) s
      else s

/-- The comparison of step 3 has failed (05 R142).  The Deckle without its spare has the next epoch (log entry 106). -/
def swapFailed (n l : Nat) (s : State) : State :=
  let p := portOf s n
  let sp := p.deckle.spare.toNat
  let repair := p.cal.repair
  let s := modPort n (fun p => modLane sp (fun x => { x with swapFails := satInc x.swapFails }) (stopPass p)) s
  let e : Evt := { laneEvt n sp with sev := 0 }
  if p.cal.retry = some l then
    let s := modPort n (fun p => modLane sp (fun x => { stopLane lsFailed x with good := false, tx := .quiet })
      { p with
        deckle := { p.deckle with spare := 0xF, epoch := p.deckle.epoch + 1 }
        cal := { p.cal with retry := none } }) s
    let q := portOf s n
    logTakeover { e with lasting := true, detail := remains q } (goodLanes q).length (lanesTaken s)
  else
    logErr { e with transient := true }
      (modPort n (fun p => { p with cal := { p.cal with retry := some l, waiting := true, repair := repair } }) s)

/-- Each receiver takes logical lane l from the spare at the marker, with what the old lane still holds for deskew; the old
lane becomes the spare (05 R141 steps 4 and 5). -/
def swapLane (l : Nat) (p : Port) : Port :=
  let old := physOf p.deckle l
  let x := laneOf p old.toNat
  let d := { p.deckle with
    map := tabSet 0xF l p.deckle.spare p.deckle.map, spare := old, epoch := p.deckle.epoch + 1 }
  settleLanes (modLane p.deckle.spare.toNat (fun y => { y with fifo := x.fifo, rxLogical := x.rxLogical, rxEpoch := x.rxEpoch })
    { p with deckle := d })

/-- A logical lane is done: the next one, or the last trim of the freed lane (05 R141). -/
def nextLogical (l : Nat) (p : Port) : Port :=
  let c := { p.cal with retry := if p.cal.retry = some l then none else p.cal.retry }
  if l + 1 < widthLanes p.deckle.width then startSwap (l + 1) { p with cal := c }
  else trimState { p with cal := { c with step := 5 } }

/-- A swap of R138 is done: the lane taken out has FAILED, and a new spare is trimmed where one exists (05 R138). -/
def endRepair (n : Nat) (s : State) : State :=
  let k := (portOf s n).deckle.spare.toNat
  let s := modPort n (fun p =>
    let p := modLane k (fun x => { x with good := false }) p
    let p := settleLanes { p with deckle := { p.deckle with spare := nextSpare p }, cal := { p.cal with retry := none } }
    if p.deckle.spare = 0xF then stopPass p else trimState { p with cal := { p.cal with step := 5 } }) (lanesTaken s)
  let q := portOf s n
  logTakeover { laneEvt n k with detail := remains q } (goodLanes q).length s

/-- The marker of step 4 has come (05 R138, R141). -/
def swapStep (n l : Nat) (s : State) : State :=
  let s := modPort n (swapLane l) s
  if (portOf s n).cal.repair then endRepair n s else modPort n (nextLogical l) s

/-- A step of a pass on a port without a spare: one lane has been trimmed in about 20 µs (05 R143). -/
def narrowStep (n l : Nat) (s : State) : State :=
  let k := match (portOf s n).cal.wide with | some d => (physOf d l).toNat | none => 9
  let s := onlyIf (decide (k < 9)) (calibrate n k) s
  let s := modPort n (fun p =>
    let p := settleLanes (widen { p with cal := { p.cal with narrowedUs := satAdd p.cal.narrowedUs 20 } })
    if l + 1 < widthLanes p.deckle.width then startSwap (l + 1) p else p) s
  match (portOf s n).cal.wide with
  | some _ => s
  | none => endPass n s

/-- The last trim of a pass or repair is done. -/
def lastTrim (n : Nat) (s : State) : State :=
  let s := trimSpare n s
  if (portOf s n).cal.repair then modPort n stopPass s else endPass n s

/-- CALENDER_STEP (05 R141 to R143). -/
def doCalenderStep (n differing : Nat) (s : State) : State :=
  let p := portOf s n
  match p.cal.pass with
  | none => s
  | some l =>
    if passPaused s n then s
    else if p.deckle.spare = 0xF then narrowStep n l s
    else match p.cal.step with
      | 2 => modPort n (fun p => setSpare lsMirror .data { p with cal := { p.cal with step := 3 } }) (trimSpare n s)
      | 3 =>
        if 16 < differing then swapFailed n l s
        else modPort n (fun p => { p with cal := { p.cal with step := 4 } }) s
      | 4 => swapStep n l s
      | 5 => lastTrim n s
      | _ => s

/-- A lane with too many corrected symbols is swapped for the spare as in a pass, at once (05 R138). -/
def beginRepair (n l : Nat) (s : State) : State :=
  modPort n (fun p =>
    let p := idleExit n (stopPass p)
    startSwap l { settleLanes p with
      loopMode := 0, loopLanes := 0
      cal := { p.cal with peerPass := false, waiting := false, waitsTwin := false, deferred := false, repair := true } }) s

/-- A step or a pass is attempted again (05 R138, R142, R144). -/
def tryAgain (n : Nat) (s : State) : State :=
  let c := (portOf s n).cal
  if c.repair then (if inService (portOf s n) then beginRepair n (nextLane c) s else s) else wantPass n (nextLane c) s

/-- CALENDER_RETRY_TIMER (05 R142, R144). -/
def doCalenderRetry (n : Nat) (s : State) : State :=
  if (portOf s n).cal.waiting then tryAgain n (modPort n (fun p => { p with cal := { p.cal with waiting := false } }) s) else s

/-- CALENDER_ANSWER_TIMEOUT (05 R144). -/
def doCalenderAnswer (n : Nat) (s : State) : State :=
  let p := portOf s n
  if p.cal.pass.isSome && p.cal.step = 1 && p.deckle.spare != 0xF then
    modPort n (fun p =>
      let q := stopPass p
      { q with cal := { q.cal with
        waiting := true, repair := p.cal.repair, retry := if p.cal.repair then p.cal.pass else p.cal.retry } }) s
  else s

/-- A deferred pass runs. -/
def endDefer (n : Nat) (force : Bool) (s : State) : State :=
  if (portOf s n).cal.deferred then
    let s := modPort n (fun p => { p with cal := { p.cal with deferred := false, forceActive := force } }) s
    wantPass n (nextLane (portOf s n).cal) s
  else s

/-- CALENDER_DEFER_EXPIRY (05 R144). -/
def doCalenderDefer (n : Nat) (s : State) : State := endDefer n true s

/-- The throttle level is T0 again: deferred passes run (05 R144). -/
def startDeferred (s : State) : State :=
  if s.power.level ≠ 0 then s else forEach (List.range 12) (fun n => endDefer n false) s

/-- PASS_NOW (05 PORT_RETRAIN): a pass starts, or is refused under the conditions of R144. -/
def passNow (n : Nat) (s : State) : Option State :=
  let p := portOf s n
  if !mayPass s n || passSkipped p || s.power.level != 0 || (portOf s (twinOf n)).cal.pass.isSome || passPaused s n then
    none
  else some (beginPass n 0 false s)

/-! ### Error windows (05 R138) -/

/-- Corrected symbols over 64 marker intervals above which a lane is bad: 2 × 10^-5 of 64 × 16,384
blocks of 128 bits. -/
def symbolLimit : Nat := 268

/-- FEC codewords of 64 marker intervals: 12,336 whole frames of 2 codewords a lane (06 R149). -/
def windowCodewords (p : Port) : Nat := 12336 * (2 * widthLanes p.deckle.width)

/-- KIND 2 of 15 R430: symbol errors added to a lane, one a codeword, over the window; the lane and how
many. -/
def laneInject (n : Nat) (s : State) : Nat × Nat × State :=
  match s.err.inject with
  | none => (0, 0, s)
  | some i =>
    let u := i.unit.toNat
    if i.kind ≠ 2 ∨ u / 9 ≠ n then (0, 0, s)
    else
      let c := min i.left (windowCodewords (portOf s n))
      (u % 9, c, { s with err := { s.err with
        inject := if i.left ≤ c then none else some { i with left := i.left - c }
        injected := satAdd s.err.injected c } })

/-- An active lane shows too many corrected symbols (05 R138). -/
def laneWorn (n k : Nat) (s : State) : State :=
  let p := portOf s n
  match logicalOf p.deckle k with
  | none => s
  | some l =>
    if !inService p || p.cal.repair then s
    else if p.deckle.spare = 0xF then laneFailed n k s
    else beginRepair n l s

/-- LANE_ERROR_WINDOW (05 R138): the symbols that decoded frames showed and those given beside them, over 64 marker
intervals.  Those given had not been counted before. -/
def doLaneWindow (n : Nat) (corrected : List Nat) (s : State) : State :=
  let (lane, extra, s) := laneInject n s
  let given (k : Nat) : Nat := corrected.getD k 0 + (if k = lane then extra else 0)
  let p := portOf s n
  let worn := allLanes.filter (fun k => decide (symbolLimit < given k + (laneOf p k).winSymbols))
  let s := modPort n (setLanes (fun k x => { x with corrSymbols := satAdd x.corrSymbols (given k), winSymbols := 0 })) s
  forEach worn (laneWorn n) s

/-! ### Test loops: opening and closing (05 R145) -/

/-- A lane enters a loop: its receiver, generator and checker start afresh. -/
def startLoop (kind : Nat) (pat : Bool) (x : Lane) : Lane :=
  { stopLane lsLoop x with
    tx := if kind = 4 then .echo else if pat then .prbs31 else .prbs13q
    gen := 0x7FFFFFFF, scrambler := scramblerSeed 0, txScrambler := scramblerSeed 0
    loopErrBits := 0, checkerLock := false, checked := 0, chkCount := 0, chkBits := 0, chkRun := 0 }

/-- A lane leaves its loops: in TEST it is off, and otherwise it is the spare again (05 R145). -/
def endLoop (test : Bool) (x : Lane) : Lane :=
  if test then darkLane lsOff x else if x.state = lsLoop then { stopLane lsSpare x with tx := .quiet } else x

/-- Lanes that satisfy a test, as a mask. -/
def lanesWhere (f : Nat → Bool) : BitVec 9 := BitVec.ofNat 9 ((allLanes.filter f).foldl (fun a k => a + 2 ^ k) 0)

/-- LOOP_REQ leaves on the lanes that enter or leave MODE 3 (05 R145). -/
def sendLoopReq (close : Bool) (m : BitVec 9) (p : Port) : Port :=
  setLanes (fun k x => if inMask m k then sendOrdered (loopReqPayload close m) { x with sent := [] } else x) p

/-- Lanes of a port as its loops and the partner's request select them; `old` is the port before (05 R121, R145). -/
def setLoops (old p : Port) : Port :=
  let test := p.state == psTest
  let q := setLanes (fun k x =>
    let a := loopKind old k
    let b := loopKind p k
    if b = 0 then endLoop test x
    else if x.state = lsLoop ∧ a = b ∧ (b = 4 ∨ old.loopPattern = p.loopPattern) then x
    else startLoop b p.loopPattern x) p
  sendLoopReq true (lanesWhere (fun k => loopKind old k != 3 && loopKind p k == 3))
    (sendLoopReq false (lanesWhere (fun k => loopKind old k == 3 && loopKind p k != 3)) q)

/-- Choose a port's own loops. -/
def chooseLoops (mode : BitVec 2) (pattern : Bool) (lanes : BitVec 9) (p : Port) : Port :=
  setLoops p { p with loopMode := mode, loopPattern := pattern, loopLanes := lanes }

/-- Choose the loops of a port in TEST (05 PORT_LOOP_CTRL). -/
def setLoopCtrl (n : Nat) (mode : BitVec 2) (pattern : Bool) (lanes : BitVec 9) (s : State) : Option State :=
  if (portOf s n).state = psTest then some (modPort n (chooseLoops mode pattern lanes) s) else none

/-- Firmware closes a near-end serial loop on the SPARE lane of a port that is UP, or opens it (05 R145). -/
def setSpareLoop (n : Nat) (mode : BitVec 2) (pattern : Bool) (lanes : BitVec 9) (s : State) : Option State :=
  let p := portOf s n
  let mine := lanesWhere (fun k => decide (p.deckle.spare.toNat = k))
  if p.state = psUp ∧ p.cal.pass.isNone = true ∧ (mode = 0 ∨ mode = 1 ∧ lanes = mine ∧ mine ≠ 0) then
    some (modPort n (chooseLoops mode pattern lanes) s)
  else none

/-- LOOP_REQ: the partner's request reaches a port in TEST only (05 R145). -/
def doLoopReq (n : Nat) (close : Bool) (lanes : BitVec 9) (s : State) : State :=
  if (portOf s n).state = psTest then
    modPort n (fun p => setLoops p { p with farLoop := if close then p.farLoop ||| lanes else p.farLoop &&& ~~~lanes }) s
  else s

end Sys2Proof.Machine
end

