-- ==== Sys2Proof/Machine/Training.lean ====
section
/-! DEFINITION. The steps of a training attempt, from far-end detect to link initialisation (05 R127 to R134; 06 R176). -/

namespace Sys2Proof.Machine

/-! ### Masks -/

/-- Bits set in a lane mask. -/
def maskCount (m : BitVec 9) : Nat := (allLanes.filter (inMask m)).length

/-- Lanes that the equaliser table uses (05 R132). -/
def usedMask (s : State) (n : Nat) : BitVec 9 := lanesWhere (laneUsed s n)

def setAttempt (a : Attempt) (p : Port) : Port := { p with attempt := some a }

/-! ### The equaliser table (05 R132, R133) -/

/-- Byte i of an equaliser entry. -/
def eqByte (e : BitVec 128) (i : Nat) : BitVec 8 := e.extractLsb' (8 * i) 8

/-- The transmit fields of an entry. -/
def txEqOf (e : BitVec 128) : TxEq :=
  { swing := eqByte e 1, pre2 := eqByte e 2, pre1 := eqByte e 3, main := eqByte e 4, post1 := eqByte e 5, post2 := eqByte e 6 }

/-- The receive fields of an entry. -/
def rxEqOf (e : BitVec 128) : RxEq :=
  { ctlePeak := eqByte e 7, ctlePole := eqByte e 8, vgaGain := eqByte e 9, dfe := e.extractLsb' 80 32, cdrBw := eqByte e 14 }

/-- The settings of a physical lane's entry, applied to its transmitter and its receiver (05 R133). -/
def equalise (s : State) (n k : Nat) (x : Lane) : Lane :=
  let e := tabGet 0 s.fur.image.equaliser (9 * n + k)
  { x with txEq := txEqOf e, rxEq := rxEqOf e }

/-! ### What the lanes send in an attempt (05 R127) -/

/-- TRAIN blocks of a step, with the good lanes and the width and Deckle that they give (05 R120, R127). -/
def sendTrain (step : Nat) (m : BitVec 9) (p : Port) : Port :=
  let b := trainPayload step m (chooseDeckle (allLanes.filter (inMask m)) 0)
  setLanes (fun k x => if inMask m k then { sendOrdered b { x with sent := [] } with tx := .train } else x) p

/-- PRBS31 on the lanes of a mask (05 R127 step 4). -/
def sendPrbs (m : BitVec 9) (p : Port) : Port := setLanes (fun k x => if inMask m k then { x with tx := .prbs31 } else x) p

/-! ### Steps that fail (05 R130) -/

/-- Step 2 begins: transmitters on with the table's settings, TRAIN blocks sent, calibration or trim; a held attempt
keeps its deskew offsets and its P and N swap (05 R127, R131 to R133). -/
def startStep2 (n : Nat) (held : Bool) (s : State) : State :=
  let used := usedMask s n
  setPortState n psTraining (modPort n (fun p =>
    let q := setLanes (fun k x =>
      if !inMask used k then darkLane lsFailed x
      else
        let y := equalise s n k (stopLane (if held then lsTrim else lsCal) x)
        if held then y else { y with skew := 0 }) p
    sendTrain 2 used (setAttempt { step := 2, held := held, lanes := used } { q with
      txHiZ := false, partnerSeen := true, phy := { p.phy with train := none } })) s)

/-- An attempt from step 2 on takes at most 258 ms, and phase 3 at most 900 ms (04 R107; 05 R127). -/
def endsInPhase3 (s : State) : Bool :=
  s.fur.phase == 3 && s.fur.outcome != 2 && decide (s.nowUs + 258000 ≤ s.fur.phaseAt + 900000)

/-- An attempt fails at a step, with its DOWN_CAUSE (05 R130).  In phase 3 it starts again at step 2, and after step 1 with
far-end detect, which keeps the transmitters at high impedance (03 R80; log entry 107), while it can end in time.
Otherwise the port waits for its retry: 1 s, or 60 s after eight failures in a row. -/
def attemptFailed (n : Nat) (cause : Byte) (s : State) : State :=
  let step : Nat := match (portOf s n).attempt with | some a => a.step | none => 0
  let s := logErr { cls := clsLane, sev := 0, port := n, unitKind := 1, unitIndex := 9 * n,
                    cause := cause.toNat, detail := leBytes 1 step } s
  let s := modPort n (fun p => { p with
    attemptFails := p.attemptFails + 1, downCause := cause
    retryMs := if 8 ≤ p.attemptFails + 1 then 60000 else 1000 }) s
  if endsInPhase3 s then (if step = 1 then beginAttempt n false s else startStep2 n false s)
  else
    modPort n (fun p => { p with retryArmed := true })
      (setPortState n psDown (modPort n (darken lsDetect) s))

/-! ### Step 5 and link initialisation (05 R127, R129; 06 R176) -/

/-- Link initialisation begins: counts at 0, LINK_INIT and three probes (06 R159, R167, R176).  A handover of the port's
streams that is still open fails (log entry 101). -/
def startLinkInit (n : Nat) (s : State) : State :=
  let e := selfEp s
  let s := if (portOf s n).hand.isSome then handoverFail n s else s
  modPort n (fun p =>
    let body := leBytes 2 2 ++ leBytes 2 0x0201 ++ leBytes 4 e ++ leBytes 1 n ++
      leBytes 1 p.deckle.width.toNat ++ leBytes 2 1024 ++ leBytes 2 2048
    let p := restartStream { p with
      tx := { lastFlit := p.tx.lastFlit, queue := p.tx.queue }
      rx := updatePause { buf := p.rx.buf }
      ctl := {}
      rttFclk := 0, rttBest := none, echoes := 0, initOk := false
      stuckNoticed := false, digest0 := none }
    let p := sendCtrl tyLinkInit body false p
    let p := sendCtrl tyRttProbe (leBytes 8 0) false p
    let p := sendCtrl tyRttProbe (leBytes 8 1) false p
    sendCtrl tyRttProbe (leBytes 8 2) false p) s

/-- The lanes of a port after its exchange: good ones, the Deckle of R129, and markers started (05 R123, R127 to R129). -/
def startMarkers (n : Nat) (good : BitVec 9) (p : Port) : Port :=
  let p := setLanes (fun k x => { x with good := inMask good k, markerCount := 0 }) p
  let p := settleLanes { p with deckle := chooseDeckle (goodLanes p) 0, phy := { p.phy with txRows := 0, txCount := 0 } }
  let p := setLanes (fun k x => { x with scrambler := scramblerSeed ((logicalOf p.deckle k).getD 0) }) p
  sendMarkers n (newSending p)

/-- Step 5 ends: width and Deckle chosen, markers started (05 R127, R129). -/
def endStep5 (n : Nat) (a : Attempt) (good : BitVec 9) (s : State) : State :=
  startLinkInit n (modPort n (fun p =>
    setAttempt { a with step := 6, lanes := good } { startMarkers n good p with
      exitFails := 0, cal := { p.cal with stale := false, sinceCal := 0 } }) s)

/-! ### The steps (05 R127, R128, R130, R131) -/

/-- Bit errors in step 4 up to which a lane is good (05 R128, R131). -/
def errorLimit (held : Bool) : Nat := if held then 2250 else 22500

/-- Lanes that have locked in step 3 (05 R128). -/
def lockedLanes (p : Port) : BitVec 9 := lanesWhere (fun k => (laneOf p k).align == .locked)

/-- Lanes whose bit errors in step 4 are within the limit (05 R128). -/
def cleanLanes (held : Bool) (o : TrainObs) : BitVec 9 := lanesWhere (fun k => decide (o.bitErrors.getD k 0 ≤ errorLimit held))

/-- The partner's good lanes, from its TRAIN blocks of step 5 (05 R127). -/
def partnerLanes (p : Port) : Option (BitVec 9) :=
  match p.phy.train with
  | some t => if t.step = 5 then some t.mask else none
  | none => none

/-- Step 2 ends: every lane calibrated or trimmed, and its P and N swap found, from the type bytes that came or by the
receiver's own measure (05 R127, R131). -/
def endStep2 (n : Nat) (a : Attempt) (swapped : BitVec 9) (s : State) : State :=
  let s := forEach (allLanes.filter (inMask a.lanes)) (calibrate n) s
  modPort n (fun p =>
    sendTrain 3 a.lanes (setLanes (fun k x =>
      if !inMask a.lanes k then x
      else { x with state := lsAlign, swapped := x.swapped || (!a.held && inMask swapped k) })
      (setAttempt { a with step := 3 } { p with cal := { p.cal with calTemp := p.cal.temp } }))) s

/-- Step 4 ends: the good-lane test (05 R128, R130, R131). -/
def endStep4 (n : Nat) (a : Attempt) (o : TrainObs) (s : State) : State :=
  let good := a.lanes &&& cleanLanes a.held o
  if a.held && good != usedMask s n then startStep2 n false s
  else if maskCount good < 2 then attemptFailed n 0x04 s
  else modPort n (fun p => sendTrain 5 good (setAttempt { a with step := 5, lanes := good } p)) s

/-- A step of a training attempt ends (05 R127, R128, R130, R131). -/
def doTrainingStep (n : Nat) (o : TrainObs) (s : State) : State :=
  match (portOf s n).attempt with
  | none => s
  | some a =>
    if a.step = 1 then
      if o.timedOut || decide (maskCount o.lanes < 2) then attemptFailed n 0x03 s else startStep2 n a.held s
    else if o.timedOut then attemptFailed n 0x0C s
    else match a.step with
    | 2 => endStep2 n a o.swapped s
    | 3 =>
      let locked := a.lanes &&& lockedLanes (portOf s n)
      modPort n (fun p => sendPrbs locked (setAttempt { a with step := 4, lanes := locked } p)) s
    | 4 => endStep4 n a o s
    | 5 =>
      match partnerLanes (portOf s n) with
      | none => attemptFailed n 0x0C s
      | some m =>
        let good := a.lanes &&& m
        if maskCount good < 2 then attemptFailed n 0x04 s else endStep5 n a good s
    | _ => s

/-- The retry interval of a DOWN port has passed (05 R130). -/
def doTrainingRetry (n : Nat) (s : State) : State :=
  let p := portOf s n
  if p.state = psDown ∧ p.retryArmed = true then beginAttempt n (!p.nextFull) s else s

/-- Signal on at least two lanes of a port that waits for its next attempt (05 R130). -/
def doPartnerSignal (n : Nat) (lanes : BitVec 9) (s : State) : State :=
  let p := portOf s n
  if p.state = psDown ∧ p.retryArmed = true ∧ 2 ≤ maskCount lanes then beginAttempt n (!p.nextFull) s else s

/-- A far-end detect pulse (03 R80). -/
def doDetectPulse (n : Nat) (s : State) : State :=
  let p := portOf s n
  if p.state = psDetect then
    { s with out := { s.out with pulse := some (⟨n % 12, Nat.mod_lt _ (by decide)⟩, usedMask s n) } }
  else s

end Sys2Proof.Machine
end

