-- ==== Sys2Proof/Machine/Admission.lean ====
section
/-! DEFINITION. Link initialisation and admission (06 R158, R176; 16 R434 to R436). -/

namespace Sys2Proof.Machine

/-! ### Admission: requests to the root of trust -/

/-- A request belongs to the admission of port n. -/
def admOwner (n : Nat) (o : RotOwner) : Bool :=
  match o with
  | .nonce p => p.val == n
  | .macAnswer p => p.val == n
  | .macExpect p => p.val == n
  | _ => false

/-- Answers to requests that satisfy a test are no longer wanted. -/
def abandonRot (f : RotOwner → Bool) (s : State) : State :=
  let g (r : RotReq) : RotReq := if f r.owner then { r with owner := .abandoned } else r
  { s with sec := { s.sec with rot := s.sec.rot.map g, rotWaiting := s.sec.rotWaiting.filter (fun r => !f r.owner) } }

def portNo (n : Nat) : PortNo := ⟨n % 12, Nat.mod_lt _ (by decide)⟩

/-- The 64-byte input of ADMIT_MAC (16 R434). -/
def admitInput (s : State) (respEp respPort chalEp chalPort : Nat) (nonce : BitVec 192) : List Byte :=
  [0x47, 0x4B, 0x41, 0x44, 0x4D, 0x49, 0x54, 0x32] ++ leBytes 16 s.fur.image.machineId.toNat ++
    leBytes 4 respEp ++ leBytes 1 respPort ++ leBytes 3 0 ++
    leBytes 4 chalEp ++ leBytes 1 chalPort ++ leBytes 3 0 ++ leBytes 24 nonce.toNat

/-- Change the admission under way on a port in ADMISSION. -/
def modAdm (n : Nat) (f : Admission → Admission) (s : State) : State :=
  modPort n (fun p => { p with adm := p.adm.map f }) s

/-- The admission under way on port n. -/
def admOf (s : State) (n : Nat) : Option Admission :=
  if (portOf s n).state = psAdmission then (portOf s n).adm else none

/-- Step 1: ADMIT_ID (16 R435). -/
def sendAdmitId (n : Nat) (s : State) : State :=
  sendCtrlAt n tyAdmitId (leBytes 16 s.fur.image.machineId.toNat ++ leBytes 4 (selfEp s) ++ leBytes 1 n) false s

/-- The control sequence numbers start at 0 again; packets not sent yet keep their order (06 R176). -/
def restartCtl (c : Ctl) : Ctl := { queue := c.held.drop c.sent ++ c.queue, inbox := c.inbox }

/-- Admission begins, with flit counts and control sequence numbers at 0 (06 R175, R176; 16 R435). -/
def startAdmission (n : Nat) (s : State) : State :=
  let s := abandonRot (admOwner n) s
  let s := modPort n (fun p => { p with
    attempt := none, adm := some {}, ctl := restartCtl p.ctl
    tx := { p.tx with nextTx := 0, resend := 0 }, rx := { p.rx with expected := 0, cur := 0 } }) s
  sendAdmitId n (setPortState n psAdmission s)

/-- Step 3: a fresh NONCE, unless one has been asked for (16 R435). -/
def askNonce (n : Nat) (s : State) : State :=
  let mine (r : RotReq) : Bool := match r.owner with | .nonce p => p.val == n | _ => false
  match admOf s n with
  | some a => if a.nonce.isSome || s.sec.rot.any mine || s.sec.rotWaiting.any mine then s
      else rotSend rotNonce [] (.nonce (portNo n)) s
  | none => s

/-- Step 4: the response to the partner's challenge (16 R435). -/
def answerNonce (n : Nat) (nonce : BitVec 192) (s : State) : State :=
  let c := tabGet {} s.fur.image.cabling n
  let s := abandonRot (fun o => match o with | .macAnswer p => p.val == n | _ => false) s
  rotSend rotAdmitMac (admitInput s (selfEp s) n c.peerEndpoint.toNat c.peerPort.toNat nonce) (.macAnswer (portNo n)) s

/-- Refuse the partner: ADMIT_RESULT, and the port is fenced (16 R435, R436). -/
def refusePartner (n : Nat) (cause : Byte) (s : State) : State :=
  fencePort n cause true (sendCtrlAt n tyAdmitResult [2, cause] false s)

/-- Step 6: both sides have accepted (16 R435). -/
def tryAdmit (n : Nat) (s : State) : State :=
  match admOf s n with
  | some a => if a.sentOk && a.rcvdOk then enterService n s else s
  | none => s

/-! ### Received packets -/

/-- LINK_INIT (06 R176). -/
def doLinkInit (n : Nat) (protocol : BitVec 16) (endpoint : BitVec 32) (peerPort : Byte) (broke : BitVec 16)
    (s : State) : State :=
  if !inLinkInit (portOf s n) then s
  else if protocol ≠ 2 then fencePort n 0x03 true s
  else if 1024 < broke.toNat then fencePort n 0x04 true s
  else startAdmission n (modPort n (fun p => { p with
    initOk := true, peerEndpoint := endpoint, peerPort := peerPort }) s)

/-- RTT_PROBE (06 R176): the echo gives the time the block took, which no rule fixes. -/
def doRttProbe (n : Nat) (tag : Word) (s : State) : State :=
  let (k, s) := takeFree s
  sendCtrlAt n tyRttEcho (leBytes 8 tag.toNat ++ leBytes 4 (Config.turnFclk k).toNat) false s

/-- RTT_ECHO of one of the block's three probes: the smallest round trip, less the TURN_FCLK that came with it, and 64 (06
R176). -/
def doRttEcho (n : Nat) (tag : Word) (turn : BitVec 32) (measured : BitVec 16) (s : State) : State :=
  let p := portOf s n
  if !linkUp p || 3 ≤ tag.toNat || 3 ≤ p.echoes then s
  else
    let best := match p.rttBest with
      | some b => if b.1 ≤ measured.toNat then b else (measured.toNat, turn.toNat)
      | none => (measured.toNat, turn.toNat)
    modPort n (fun p => { p with
      echoes := p.echoes + 1, rttBest := some best, rttFclk := BitVec.ofNat 16 (min 65535 (best.1 - best.2 + 64)) }) s

/-- ADMIT_ID (16 R435 step 2).  A second one means that the partner has begun again. -/
def doAdmitId (n : Nat) (machineId : BitVec 128) (endpoint : BitVec 32) (peerPort : Byte) (s : State) : State :=
  match admOf s n with
  | none => s
  | some a =>
    let c := tabGet {} s.fur.image.cabling n
    if machineId ≠ c.peerMachineId ∨ endpoint ≠ c.peerEndpoint ∨ peerPort ≠ c.peerPort then refusePartner n 0x01 s
    else
      let again (a : Admission) : Admission :=
        if a.idOk then { a with peerNonce := none, mac0 := none, mac1 := none, rcvdOk := false } else a
      let s := modAdm n (fun a => { again a with idOk := true }) s
      if a.suspended then s else askNonce n s

/-- ADMIT_NONCE (16 R435 step 4). -/
def doAdmitNonce (n : Nat) (nonce : BitVec 192) (s : State) : State :=
  match admOf s n with
  | none => s
  | some a =>
    let s := modAdm n (fun a => { a with peerNonce := some nonce }) s
    if a.idOk && !a.suspended then answerNonce n nonce s else s

/-- ADMIT_MAC (16 R435 step 5). -/
def doAdmitMac (n : Nat) (part : Bool) (half : BitVec 192) (s : State) : State :=
  match admOf s n with
  | none => s
  | some a =>
    match a.nonce with
    | none => s
    | some mine =>
      let s := modAdm n (fun a => if part then { a with mac1 := some half } else { a with mac0 := some half }) s
      match admOf s n with
      | some b =>
        if b.mac0.isSome && b.mac1.isSome then
          let c := tabGet {} s.fur.image.cabling n
          rotSend rotAdmitMac (admitInput s c.peerEndpoint.toNat c.peerPort.toNat (selfEp s) n mine)
            (.macExpect (portNo n)) s
        else s
      | none => s

/-- ADMIT_RESULT (16 R435 step 6). -/
def doAdmitResult (n : Nat) (res cause : Byte) (s : State) : State :=
  match admOf s n with
  | none => s
  | some _ =>
    if res = 1 then tryAdmit n (modAdm n (fun a => { a with rcvdOk := true }) s)
    else fencePort n cause true s

/-! ### Answers of the root of trust -/

/-- The root of trust refused, or was lastingly silent (16 R436). -/
def suspendAdm (n : Nat) (s : State) : State :=
  match admOf s n with
  | none => s
  | some _ =>
    let s := abandonRot (admOwner n) s
    let s := modAdm n (fun a => { a with suspended := true, nonce := none, mac0 := none, mac1 := none, sentOk := false }) s
    logErr { cls := clsPartner, sev := 1, port := n, unitKind := 3 } s

/-- The block's own NONCE (16 R435 step 3). -/
def nonceGiven (n : Nat) (body : List Byte) (s : State) : State :=
  match admOf s n with
  | none => s
  | some _ =>
    let v := BitVec.ofNat 192 (leNat (body.take 24))
    sendCtrlAt n tyAdmitNonce (leBytes 24 v.toNat) false (modAdm n (fun a => { a with nonce := some v }) s)

/-- The response to the partner's challenge (16 R435 step 4). -/
def macGiven (n : Nat) (body : List Byte) (s : State) : State :=
  match admOf s n with
  | none => s
  | some _ =>
    sendCtrlAt n tyAdmitMac (bytesAt body 24 24) true (sendCtrlAt n tyAdmitMac (bytesAt body 0 24) false s)

/-- The response expected of the partner (16 R435 step 5). -/
def macExpected (n : Nat) (body : List Byte) (s : State) : State :=
  match admOf s n with
  | none => s
  | some a =>
    match a.mac0, a.mac1 with
    | some m0, some m1 =>
      if leBytes 24 m0.toNat ++ leBytes 24 m1.toNat = padTo 48 body then
        tryAdmit n (modAdm n (fun a => { a with sentOk := true }) (sendCtrlAt n tyAdmitResult [1, 0] false s))
      else refusePartner n 0x02 s
    | _, _ => s

/-! ### Timers (16 R436) -/

/-- 50 ms since admission began or was last restarted: a packet of the partner is missing. -/
def doAdmissionTimeout (n : Nat) (s : State) : State :=
  match admOf s n with
  | none => s
  | some a =>
    if a.suspended || (a.idOk && a.peerNonce.isSome && a.mac0.isSome && a.mac1.isSome && a.rcvdOk) then s
    else fencePort n 0x02 true s

/-- Admission restarts from step 1 with new nonces (16 R436). -/
def doAdmissionRestart (n : Nat) (s : State) : State :=
  match admOf s n with
  | none => s
  | some a =>
    if !a.suspended then s
    else
      let s := sendAdmitId n (modAdm n (fun a => { a with suspended := false }) s)
      if !a.idOk then s
      else
        let s := askNonce n s
        match a.peerNonce with
        | some v => answerNonce n v s
        | none => s

end Sys2Proof.Machine
end

