-- ==== Sys2Proof/Machine/Power.lean ====
section
/-! DEFINITION. Power states, ceilings, throttling and telemetry (03), and the steward's watchdog (15
R418 to R420). -/

namespace Sys2Proof.Machine

/-! ### Ceilings (03 R82 to R85) -/

/-- The board ceiling as it acts (03 R82). -/
def boardActs (s : State) : Nat :=
  let b := s.power.boardCeil.toNat
  if b = 0 ∨ 1500 < b then 1500 else b

/-- The host's order as it acts; 0 none (03 PWR_CEIL_HOST). -/
def hostActs (s : State) : Nat := min 1500 s.power.hostCeil.toNat

/-- The lowest of two orders, 0 being none. -/
def lowerOrder (a b : Nat) : Nat := if b = 0 then a else min a b

/-- The effective ceiling that the recorded orders give (03 R82). -/
def ceilingOf (s : State) : Nat := lowerOrder (lowerOrder (boardActs s) s.power.rackCeil.toNat) (hostActs s)

/-- The source whose order equals it: the rack manager before the host before the board (03 R82). -/
def sourceOf (s : State) : BitVec 2 :=
  if s.power.rackCeil.toNat = ceilingOf s then 1 else if hostActs s = ceilingOf s then 2 else 0

/-- The average of the last samples is above a ceiling given in 0.1 W (03 R86; samples in 10 mW). -/
def aboveCeiling (s : State) (ceil : Nat) : Bool := decide (ceil * 10 * s.power.samples.length < s.power.samples.sum)

/-- The power that a level is predicted to draw, in 10 mW: its typical power (03 R86, R89; log entry 2). -/
def levelPower (l : Nat) : Nat := [12800, 11600, 10500, 9300, 8100, 6900, 5800, 4600].getD l 4600

/-- A port's transmit lanes leave electrical idle, unless it is outside its throttle interval (03 R70, R90). -/
def keepActive (n : Nat) (s : State) : State := modPort n (fun p => if p.inInterval then idleExit n p else p) s

/-- Every port that idles is woken (03 R75). -/
def wakeAll (s : State) : State := forEach (List.range 12) keepActive s

/-- Set the throttle level (03 R89, R90); at T0 every port may always send, in P0 none idles, and deferred passes
run. -/
def setLevel (k : Nat) (s : State) : State :=
  let s := { s with power := { s.power with level := BitVec.ofNat 3 k } }
  if k = 0 then
    let s := forEach (List.range 12) (fun n => modPort n (fun p => { p with inInterval := true })) s
    startDeferred (onlyIf (s.power.cur == 0) wakeAll s)
  else s

/-- The level that a shed jumps to: the first from the present one on that is predicted to meet the
ceiling (03 R86). -/
def shedLevel (s : State) : Nat :=
  let fits (l : Nat) : Bool := decide (levelPower l ≤ ceilingOf s * 10)
  (((List.range 8).filter (fun l => decide (s.power.level.toNat ≤ l))).find? fits).getD 7

/-- Orders have been recorded: the effective ceiling follows, CEIL_EPOCH advances when an order or the
ceiling changed, and a shed that lowers the ceiling jumps (03 R82 to R86; 16 R456). -/
def applyOrders (changed shed : Bool) (s : State) : State :=
  let old := s.power.effective.toNat
  let new := ceilingOf s
  let s := { s with power := { s.power with
    effective := BitVec.ofNat 12 new
    source := sourceOf s
    shedActive := sourceOf s == 1 && s.power.rackShed
    ceilEpoch := if changed || new != old then s.power.ceilEpoch + 1 else s.power.ceilEpoch } }
  let s := onlyIf (changed || new != old) bumpEpoch s
  if shed && decide (new < old) then setLevel (shedLevel s) s else s

/-- The host's order (03 R85). -/
def orderHost (v : BitVec 12) (s : State) : State :=
  applyOrders (v != s.power.hostCeil) false { s with power := { s.power with hostCeil := v } }

/-- The rack manager's order; one that RACK_CEIL cannot hold is recorded as its largest value
(03 R83, R85). -/
def orderRack (v : BitVec 16) (shed : Bool) (s : State) : State :=
  let c := BitVec.ofNat 12 (min 4095 v.toNat)
  applyOrders (c != s.power.rackCeil || shed != s.power.rackShed) shed
    { s with power := { s.power with rackCeil := c, rackShed := shed } }

/-- THROTTLE_TICK, every 100 µs (03 R84, R86, R87). -/
def doThrottleTick (s : State) : State :=
  let s := { s with power := { s.power with
    raiseTicks := s.power.raiseTicks + 1
    t7Ticks := if s.power.level = 7 then s.power.t7Ticks + 1 else 0 } }
  let l := s.power.level.toNat
  if aboveCeiling s s.power.effective.toNat then (if l < 7 then setLevel (l + 1) s else s)
  else if l = 0 ∨ s.power.raiseTicks < 10 then s
  else if levelPower (l - 1) * 100 < s.power.effective.toNat * 10 * 95 then
    setLevel (l - 1) { s with power := { s.power with raiseTicks := 0 } }
  else s

/-- THROTTLE_INTERVAL (03 R90): outside its interval a port's lanes are in electrical idle, even in P0, and at its start
they are active in P0, and in P1 when the port has something to send. -/
def doThrottleInterval (n : Nat) (begins : Bool) (s : State) : State :=
  let p := portOf s n
  if begins || decide (s.power.level = 0) || p.cal.forceActive then
    let wake := s.power.cur == 0 || hasWork s p || p.rx.nullReady
    modPort n (fun p => let q := { p with inInterval := true }; if wake then idleExit n q else q) s
  else modPort n (fun p => let q := { p with inInterval := false }; if linkUp q then idleEnter n q else q) s

/-! ### Telemetry (02 R56, R57; 03 R91) -/

/-- Samples in a window: 1 ms, 100 ms, 10 s. -/
def windowLen (w : Nat) : Nat := if w = 0 then 100 else if w = 1 then 10000 else 1000000

def sat16 (n : Nat) : BitVec 16 := BitVec.ofNat 16 (min n 65535)

/-- One sample joins a window (03 R91).  AVG is rounded down, and AVG and PEAK saturate (log entry 109). -/
def addSample (k w v : Nat) (est : Bool) (s : State) : State :=
  let key := 3 * k + w
  let a := tabGet {} s.power.telAcc key
  let b : TelAcc := { sum := a.sum + v, count := a.count + 1, peak := max a.peak v, estimated := a.estimated || est }
  if b.count < windowLen w then { s with power := { s.power with telAcc := tabSet {} key b s.power.telAcc } }
  else
    let old := tabGet {} s.power.tel key
    let r : TelReg := { avg := sat16 (b.sum / b.count), peak := sat16 b.peak, winCount := old.winCount + 1, estimated := b.estimated }
    { s with power := { s.power with tel := tabSet {} key r s.power.tel, telAcc := tabSet {} key {} s.power.telAcc } }

/-- A 1 ms window of total power has closed: T7 held for 1 ms and still above the ceiling is
CEIL_UNMET; a window that meets the ceiling clears it (03 R87). -/
def judgeCeiling (s : State) : State :=
  let above := decide (s.power.effective.toNat * 10 < (tabGet {} s.power.tel 0).avg.toNat)
  if !above then { s with power := { s.power with ceilUnmet := false } }
  else if s.power.t7Ticks < 10 ∨ s.power.ceilUnmet = true then s
  else
    logErr { cls := clsPower, sev := 1, unitKind := 14 } { s with power := { s.power with ceilUnmet := true } }

/-- The power of a rail in 10 mW: mV times units of 10 mA, over 1,000 (02 R56; log entry 110). -/
def railPower (v : RailRead) : Nat := v.millivolts.toNat * v.current.toNat / 1000

/-- One rail's voltage and current reads: its power in 10 mW and whether it is marked as estimated.  A failed read gives
no power that a rule fixes; from the 100th on it is marked (02 R56, R57). -/
def railSample (r : Fin 3) (x : Option RailRead) (s : State) : Nat × Bool × State :=
  match x with
  | some v => (railPower v, false, { s with power := { s.power with
      avsFails := tabSet 0 r 0 s.power.avsFails, rails := tabSet {} r v s.power.rails } })
  | none =>
    let f := tabGet 0 s.power.avsFails r + 1
    let (k, s) := takeFree { s with power := { s.power with avsFails := tabSet 0 r f s.power.avsFails } }
    let s := onlyIf (decide (f = 100)) (logErr { cls := clsPower, sev := 1, unitKind := 14, unitIndex := r }) s
    ((Config.estimatedPower r k).toNat, decide (100 ≤ f), s)

/-- TELEMETRY_SAMPLE, every 10 µs (03 R91). -/
def doTelemetry (core l09 l12 : Option RailRead) (s : State) : State :=
  let (v1, e1, s) := railSample 0 core s
  let (v2, e2, s) := railSample 1 l09 s
  let (v3, e3, s) := railSample 2 l12 s
  let total := v1 + v2 + v3
  let s := { s with power := { s.power with samples := (total :: s.power.samples).take 10 } }
  let before := (tabGet {} s.power.tel 0).winCount
  let s := forEach [0, 1, 2] (fun w s =>
    addSample 3 w v3 e3 (addSample 2 w v2 e2 (addSample 1 w v1 e1 (addSample 0 w total (e1 || e2 || e3) s)))) s
  if (tabGet {} s.power.tel 0).winCount = before then s else judgeCeiling s

/-! ### Power states (03 R70 to R75, R79) -/

/-- POLICY written (03 R71, R75): P0 to P1 at once; P1 to P0 wakes the idle ports first. -/
def setPolicyBit (p : Bool) (s : State) : State :=
  let s := { s with power := { s.power with policy := p } }
  if s.power.transition.isSome then s
  else if p ∧ s.power.cur = 0 then { s with power := { s.power with cur := 1 } }
  else if !p ∧ s.power.cur = 1 then wakeAll { s with power := { s.power with transition := some 0 } }
  else s

/-- Park one port: PARK goes to its partner where R158 allows it, and the lanes power down once it has been sent (03 R70,
R74; 06 R175). -/
def parkPort (n : Nat) (s : State) : State := announce n tyPark [1] .park s

/-- Every port has announced its park and powered down (03 R74). -/
def allParked (s : State) : Bool := (List.range 12).all (fun n => (portOf s n).leaveDue != some .park)

/-- Every port parks, and the transition to P2 runs (03 R73, R74). -/
def startPark (target : BitVec 3) (s : State) : State :=
  let mask := (List.range 12).foldl (fun a n => a + (if inService (portOf s n) then 2 ^ n else 0)) 0
  let s := { s with power := { s.power with
    beforePark := BitVec.ofNat 12 mask, draining := none, transition := some 2
    onward := if target = 3 then some 3 else none } }
  forEach (List.range 12) parkPort s

/-- The lane groups are powered and the ports retrain, those that were up with held calibration (03
R75, R79; 05 R131). -/
def startWake (s : State) : State :=
  let s := { s with power := { s.power with transition := some 1, onward := none } }
  forEach (List.range 12) (fun n s =>
    if (barOf s n).isSome then modPort n (fun p => { p with parked := false }) s
    else
      let s := modPort n (fun p => { p with parked := false, powered := true, pllLock := true }) s
      if (portOf s n).state = psDown then beginAttempt n (s.power.beforePark.getLsbD n) s else s) s

/-- The Vat wakes and the engines are ungated (03 R75, 13). -/
def startUngate (onward : Option (BitVec 3)) (s : State) : State :=
  { s with
    power := { s.power with transition := some 2, onward := onward }
    vat := { s.vat with state := 3 } }

/-- A drain is needed before the ports park: a queue is RUNNING or a tracker is held (03 R73). -/
def needsDrain (s : State) : Bool := s.cq.queues.any (fun e => e.2.state == qRunning) || !s.trk.trackers.isEmpty

/-- A transition that a sideband order began, or a drain for one, is under way. -/
def orderRuns (s : State) : Bool := (match s.power.transition with | some t => t != 0 | none => false) || s.power.draining.isSome

/-- A partition reset or an engine-domain reset runs (14 R399, R401). -/
def resetRuns (s : State) : Bool := s.par.engineBusy || allParts.any (fun p => (partOf s p).state == partResetting)

/-- A refused power order is reported (14 R402, 15 R403; log entry 120). -/
def refusePower (s : State) : State := logErr { cls := clsPower, sev := 1, unitKind := 14 } s

/-- SET_POWER (03 R71, R73, R75; 16 R450): a state that cannot be reached is refused, and so is an order while another is
carried out (log entry 49), or for P2 or P3 while a reset runs (14 R402). -/
def orderPower (target : Nat) (s : State) : Byte × State :=
  let cur := s.power.cur.toNat
  if target = 0 ∨ 3 < target then (stMalformed, s)
  else if orderRuns s || target = cur || (target = 1 && cur == 0) || (decide (2 ≤ target) && resetRuns s) then
    (stStateRefused, refusePower s)
  else if cur ≤ 1 then
    let t := BitVec.ofNat 3 target
    if needsDrain s then (stOk, { s with power := { s.power with draining := some { target := t } } })
    else (stOk, startPark t s)
  else if cur = 2 then
    if target = 1 then (stOk, startWake s) else (stOk, { s with power := { s.power with transition := some 3 } })
  else (stOk, startUngate (if target = 1 then some 1 else none) s)

/-- A descriptor that a switched-out queue has stopped does not run (09 R251). -/
def runDrains (s : State) (r : Run) : Bool :=
  r.phase == .stopped && (match r.queue with | some q => (queueOf s q).state == qSwitchedOut | none => false)

/-- Running descriptors and trackers have drained (03 R73). -/
def doP2Drained (s : State) : State :=
  match s.power.draining with
  | some o => if s.cq.runs.all (runDrains s) && s.trk.trackers.isEmpty then startPark o.target s else s
  | none => s

/-- They have not drained in time: the order is refused and scheduling resumes (03 R73). -/
def doP2Timeout (s : State) : State :=
  match s.power.draining with
  | some _ => refusePower { s with power := { s.power with draining := none } }
  | none => s

/-- Every port that was up before the park has its answer: admitted, fenced, DOWN, or waiting on a
silent root of trust (03 R75). -/
def wakeDone (s : State) : Bool :=
  (List.range 12).all (fun n =>
    let p := portOf s n
    !s.power.beforePark.getLsbD n || inService p || p.state == psFenced || p.state == psDown ||
      (match p.adm with | some a => a.suspended | none => false))

/-- What a transition waits for: every port's answer, every port's park, or the end of a Vat test (03 R74, R75). -/
def transitionReady (t : BitVec 3) (s : State) : Bool :=
  if t = 1 then wakeDone s
  else if t = 2 then s.power.cur == 3 || allParked s
  else t != 3 || (s.vat.state != 2 && !s.vat.busy)

/-- POWER_TRANSITION_COMPLETE (03 R75).  POLICY set to 1 while P1 ends leads to P1; with POLICY 0 a wake from P2 goes on from
P1 to P0 by that row (log entry 111). -/
def doTransition (s : State) : State :=
  match s.power.transition with
  | none => s
  | some t =>
    if !transitionReady t s then s
    else if t = 0 then
      let s := { s with power := { s.power with transition := none } }
      if s.power.policy then s else wakeAll { s with power := { s.power with cur := 0 } }
    else
      let s := { s with power := { s.power with transition := none, cur := t } }
      if t = 3 then vatSleep s
      else if t = 2 then
        let s := if s.vat.state = 3 then vatWake s else s
        match s.power.onward with
        | some 3 => { s with power := { s.power with transition := some 3, onward := none } }
        | some 1 => startWake s
        | _ => s
      else if t = 1 ∧ s.power.policy = false then wakeAll { s with power := { s.power with transition := some 0 } }
      else s

/-! ### The watchdog (15 R418 to R420) -/

/-- A port when the steward stops: its training attempt and its calender pass stop (15 R419). -/
def stewardLeaves (n : Nat) (s : State) : State :=
  let p := portOf s n
  if p.state = psDetect ∨ p.state = psTraining then
    modPort n (fun p => { p with retryArmed := true }) (setPortState n psDown (modPort n (darken lsDetect) s))
  else modPort n stopPass s

/-- The steward, its sideband target and its mailbox are reset, and its scratch is cleared (15 R419,
13 R363). -/
def resetSteward (s : State) : State :=
  let s := forEach (List.range 12) stewardLeaves s
  let s := clearScratch s
  { s with
    out := { s.out with sbRsp := {} }
    sec := { s.sec with mboxBusy := false, mboxStatus := 0, mboxLen := 0, mboxData := [] } }

/-- A steward restart begins (15 R419). -/
def startRestart (s : State) : State :=
  let s := resetSteward s
  let s := { s with err := { s.err with
    restarts := satInc s.err.restarts, restarting := true, lastRestart := BitVec.ofNat 32 (s.nowUs / 1000) } }
  logErr { cls := clsSteward, sev := 1, unitKind := 13 } s

/-- The steward stays in its boot stage (15 R420). -/
def holdSteward (s : State) : State :=
  logErr { cls := clsSteward, sev := 3, unitKind := 13 }
    { resetSteward s with err := { s.err with stewardHeld := true } }

/-- The next heartbeats are suppressed by injection (15 R430, KIND 9). -/
def injectingHeartbeat (s : State) : Bool :=
  match s.err.inject with | some i => i.kind == 9 && decide (0 < i.left) | none => false

/-- WATCHDOG_FIRE (15 R418 to R420). -/
def doWatchdog (s : State) : State :=
  if !stewardUp s then s
  else
    let s := onlyIf (injectingHeartbeat s) injectOne s
    let s := { s with err := { s.err with firedAt := s.nowUs :: s.err.firedAt } }
    let recent := s.err.firedAt.filter (fun a => decide (spanFrom s ≤ a))
    if 3 ≤ recent.length then holdSteward s else startRestart s

/-- STEWARD_RESTART_COMPLETE (15 R419). -/
def doRestartComplete (s : State) : State :=
  if s.err.restarting then flushReports { s with err := { s.err with restarting := false } } else s

/-- Firmware reads its memory: the answer says whether an error there, lost or lasting, restarts the steward (15 R410; log
entry 121). -/
def readSteward (s : State) : Bool × State :=
  let lasting := wordLasting .steward s
  let (lost, s) := readRam .steward { cls := 0, sev := 2, unitKind := 13 } s
  (lost || lasting, s)

/-- HEARTBEAT (15 R418); a suppressed one does not reach the watchdog (R430). -/
def doHeartbeat (s : State) : State :=
  if stewardUp s && !injectingHeartbeat s then
    match readSteward s with
    | (true, s) => startRestart s
    | (false, s) => { s with err := { s.err with heartbeatAt := s.nowUs } }
  else s

end Sys2Proof.Machine
end

