-- ==== Sys2Proof/Machine/Image.lean ====
section
/-! DEFINITION. The furnish image in NVM: its layout, its checks, and what it holds (04 R92 to R98, R102;
05 R132; 07 R186, R188, R193; 13 R362). -/

namespace Sys2Proof.Machine

/-! ### The NVM device (04 R92) -/

/-- Bytes of the NVM device; one that nothing has programmed reads 0xFF (log entry 8). -/
def nvmBytes (s : State) (a n : Nat) : List Byte := tabSlice 0xFF s.fur.nvm a n

/-- Where a furnish slot and a firmware slot begin. -/
def slotBase (b : Bool) : Nat := if b then 0x1000000 else 0
def fwBase (b : Bool) : Nat := if b then 0x2800000 else 0x2000000

/-- Every byte of a range is zero. -/
def zeroAt (l : List Byte) (off n : Nat) : Bool := numAt l off n == 0

/-! ### Header and directory (04 R93) -/

/-- The header of a slot. -/
def headerOf (s : State) (b : Bool) : List Byte := nvmBytes s (slotBase b) 256

/-- MAGIC is wrong (04 R95). -/
def slotEmpty (h : List Byte) : Bool := numAt h 0 4 != 0x4E525546

def hdrGeneration (h : List Byte) : Nat := numAt h 0x0C 4
def hdrSecVersion (h : List Byte) : Nat := numAt h 0x10 4
def hdrSigOffset (h : List Byte) : Nat := numAt h 0x1C 4
def hdrCount (h : List Byte) : Nat := numAt h 0x16 1

/-- A directory entry. -/
structure DirEntry where
  typ    : Nat
  format : Nat
  off    : Nat
  len    : Nat
  deriving DecidableEq, Repr, Inhabited

def dirEntry (h : List Byte) (i : Nat) : DirEntry :=
  let a := 0x40 + 12 * i
  { typ := numAt h a 2, format := numAt h (a + 2) 2, off := numAt h (a + 4) 4, len := numAt h (a + 8) 4 }

/-- The entries that SECTION_COUNT counts. -/
def directory (h : List Byte) : List DirEntry := upTo (hdrCount h) (dirEntry h)

/-- The length that R96 gives a section type; LICENCES has its own. -/
def fixedLength (t : Nat) : Option Nat :=
  [(1, 32), (2, 384), (3, 1728), (4, 1280), (5, 524288), (6, 768), (7, 16), (8, 64), (10, 16)].lookup t

/-- Ranges (base, count) do not overlap. -/
def disjoint : List (Nat × Nat) → Bool
  | [] => true
  | r :: rs => rs.all (fun q => r.2 == 0 || q.2 == 0 || decide (r.1 + r.2 ≤ q.1) || decide (q.1 + q.2 ≤ r.1)) && disjoint rs

/-- The header's own fields (04 R93). -/
def headerFieldsOk (h : List Byte) : Bool :=
  numAt h 4 2 == 2 && numAt h 6 2 == 0x100 && decide (numAt h 8 4 ≤ 0x200000) && hdrGeneration h != 0 &&
    decide (numAt h 0x14 2 ≤ 0x0201) && (hdrCount h == 9 || hdrCount h == 10) && zeroAt h 0x17 1 &&
    decide (numAt h 0x18 4 < 2) && hdrSigOffset h % 16 == 0 && numAt h 8 4 == hdrSigOffset h + 104 && zeroAt h 0x30 16

/-- The directory: every type once, LICENCES only as the tenth; sections within the signed part, clear of
one another and of the header (04 R93, R95, R96). -/
def directoryOk (h : List Byte) : Bool :=
  let ds := directory h
  let need := if hdrCount h = 10 then [1, 2, 3, 4, 5, 6, 7, 8, 9, 10] else [1, 2, 3, 4, 5, 6, 7, 8, 10]
  need.all (fun t => ds.any (fun e => e.typ == t)) &&
    ds.all (fun e => e.format == 1 && e.off % 16 == 0 && decide (0x100 ≤ e.off) && decide (e.off + e.len ≤ hdrSigOffset h) &&
      (match fixedLength e.typ with | some n => e.len == n | none => e.typ == 9)) &&
    disjoint (ds.map (fun e => (e.off, e.len))) &&
    zeroAt h (0x40 + 12 * hdrCount h) (12 * (16 - hdrCount h))

/-- The bytes of a section. -/
def sectionOf (s : State) (b : Bool) (t : Nat) : List Byte :=
  match (directory (headerOf s b)).find? (fun e => e.typ == t) with
  | some e => nvmBytes s (slotBase b + e.off) e.len
  | none => []

/-- The signature block. -/
def sigBlock (s : State) (b : Bool) : List Byte := nvmBytes s (slotBase b + hdrSigOffset (headerOf s b)) 104

/-- Its fixed fields (04 R93). -/
def sigOk (g : List Byte) : Bool := numAt g 0 2 == 1 && decide (numAt g 2 2 < 4) && zeroAt g 4 4

/-! ### Checks of the sections (04 R96) -/

/-- IDENTITY (04 R96, 07 R186). -/
def identityOk (l : List Byte) : Bool :=
  let x := numAt l 20 1
  let y := numAt l 21 1
  let z := numAt l 22 1
  let dx := numAt l 24 1
  let dy := numAt l 25 1
  let dz := numAt l 26 1
  !zeroAt l 0 16 && numAt l 16 4 == x + 64 * y + 4096 * z && decide (x < dx) && decide (y < dy) && decide (z < dz) &&
    decide (dx ≤ 64) && decide (dy ≤ 64) && decide (dz ≤ 32) && zeroAt l 23 1 && zeroAt l 27 5

/-- One CABLING record. -/
def cableOk (n : Nat) (l : List Byte) : Bool :=
  let m := numAt l 1 1
  let d := numAt l 2 2
  numAt l 0 1 == n && decide (m ≤ 2) && (m != 1 || decide (d ≤ 20)) && (m != 2 || decide (d ≤ 1500)) &&
    decide (numAt l 8 1 ≤ 11) && zeroAt l 9 7

def cablingOk (l : List Byte) : Bool := (List.range 12).all (fun n => cableOk n (bytesAt l (32 * n) 32))

/-- A signed byte lies in a range. -/
def inRange (b : Byte) (lo hi : Int) : Bool := decide (lo ≤ b.toInt) && decide (b.toInt ≤ hi)

/-- One EQUALISER entry (05 R132). -/
def equaliserOk (l : List Byte) : Bool :=
  let b (k : Nat) : Byte := l.getD k 0
  let tap (k : Nat) : Nat := (b k).toInt.natAbs
  decide (numAt l 0 1 < 2) && decide (numAt l 1 1 ≤ 15) && inRange (b 2) (-8) 0 && inRange (b 3) (-24) 0 && inRange (b 4) 24 64 &&
    inRange (b 5) (-16) 0 && inRange (b 6) (-4) 4 && decide (numAt l 7 1 ≤ 31) && decide (numAt l 8 1 ≤ 7) && decide (numAt l 9 1 ≤ 31) &&
    [10, 11, 12, 13].all (fun k => inRange (b k) (-64) 63) && decide (numAt l 14 1 ≤ 3) && zeroAt l 15 1 &&
    tap 2 + tap 3 + tap 4 + tap 5 + tap 6 == 64

def equalisersOk (l : List Byte) : Bool := (List.range 108).all (fun k => equaliserOk (bytesAt l (16 * k) 16))

/-- One route entry: coordinate c of a ring of size n, seen from coordinate a (07 R193). -/
def routeOk (n a c : Nat) (l : List Byte) : Bool :=
  if n ≤ c then zeroAt l 0 8
  else if c = a then numAt l 0 8 == 3
  else
    let h := numAt l 2 1
    numAt l 0 1 == 1 && decide (numAt l 1 1 < 2) && h == (if numAt l 1 1 = 0 then (c + n - a) % n else (a + n - c) % n) &&
      decide (2 * h ≤ n) && numAt l 3 1 == n - h && zeroAt l 4 4

def routesOk (id l : List Byte) : Bool :=
  (List.range 160).all (fun i =>
    let d := if i < 64 then 0 else if i < 128 then 1 else 2
    routeOk (numAt id (24 + d) 1) (numAt id (20 + d) 1) (i - 64 * d) (bytesAt l (8 * i) 8))

/-- Numbers of 4 bytes each. -/
def words4 (l : List Byte) : List Nat := (blocksOf 4 (l.length / 4 + 1) l).map leNat

/-- One rank entry beside the endpoints that earlier entries name, as a bit set (07 R188). -/
def rankStep (id : List Byte) (x : Option Nat) (e : Nat) : Option Nat :=
  match x with
  | none => none
  | some seen =>
    let ep := e % 2 ^ 17
    let inside := (List.range 3).all (fun d => decide (coordOf ep d < numAt id (24 + d) 1))
    if bitsOf e 17 14 ≠ 0 then none
    else if e < 2 ^ 31 then some seen
    else if !inside || bitOf seen ep then none
    else some (seen + 2 ^ ep)

def ranksOk (id l : List Byte) : Bool := ((words4 l).foldl (rankStep id) (some 0)).isSome

/-- A PARTITIONS record. -/
def parsePart (l : List Byte) : PartRec :=
  { present := numAt l 0 1 == 1
    portWeight := l.getD 1 0
    beaterWeight := l.getD 2 0
    trackerWeight := l.getD 3 0
    key := BitVec.ofNat 16 (numAt l 4 2)
    minShare := numAt l 6 2
    ctxBase := numAt l 8 2
    ctxCount := numAt l 10 2
    queueBase := numAt l 12 2
    queueCount := numAt l 14 2
    cntBase := 64 * numAt l 16 2
    cntCount := 64 * numAt l 18 2
    trackerQuota := numAt l 20 4
    cacheQuota := numAt l 24 2
    importBase := numAt l 26 2
    importCount := numAt l 28 2
    vatBase := numAt l 30 2
    vatSize := numAt l 32 2 }

/-- The fields of one record: an absent partition's are zero. -/
def partOk (l : List Byte) : Bool :=
  let r := parsePart l
  if numAt l 0 1 = 0 then zeroAt l 0 48
  else
    numAt l 0 1 == 1 && r.portWeight != 0 && r.beaterWeight != 0 && r.trackerWeight != 0 && r.key != 0 &&
      r.queueBase % 64 == 0 && r.queueCount % 64 == 0 && decide (1 ≤ r.ctxCount) && decide (64 ≤ r.queueCount) &&
      decide (r.ctxBase + r.ctxCount ≤ 1024) && decide (r.queueBase + r.queueCount ≤ 4096) &&
      decide (r.cntBase + r.cntCount ≤ 65536) && decide (r.importBase + r.importCount ≤ 4096) &&
      decide (r.vatBase + r.vatSize ≤ 320) && decide (r.trackerQuota ≤ 131072) && decide (r.cacheQuota ≤ 8192) && zeroAt l 34 14

/-- The records of the section. -/
def partRecords (l : List Byte) : List (List Byte) := upTo 16 (fun n => bytesAt l (48 * n) 48)

def partitionsOk (l : List Byte) : Bool :=
  let ps := ((partRecords l).map parsePart).filter (·.present)
  let total (f : PartRec → Nat) : Nat := (ps.map f).sum
  (partRecords l).all partOk && !ps.isEmpty && decide ((ps.map (·.key)).Nodup) &&
    disjoint (ps.map (fun r => (r.ctxBase, r.ctxCount))) && disjoint (ps.map (fun r => (r.queueBase, r.queueCount))) &&
    disjoint (ps.map (fun r => (r.cntBase, r.cntCount))) && disjoint (ps.map (fun r => (r.importBase, r.importCount))) &&
    disjoint (ps.map (fun r => (r.vatBase, r.vatSize))) && decide (total (·.trackerQuota) ≤ 131072) &&
    decide (total (·.cacheQuota) ≤ 8192) && decide (total (·.minShare) ≤ 1024)

def firmwareOk (l : List Byte) : Bool :=
  decide (numAt l 0 1 < 2) && zeroAt l 1 3 && decide (0x1000 ≤ numAt l 4 4) && decide (numAt l 4 4 ≤ 0x100000) &&
    numAt l 4 4 % 16 == 0 && zeroAt l 12 4

/-- COUNT, the section's length and its reserved bytes. -/
def licencesOk (l : List Byte) : Bool :=
  decide (numAt l 0 2 ≤ 8) && l.length == 8 + 168 * numAt l 0 2 && zeroAt l 2 6

def platformOk (l : List Byte) : Bool :=
  decide (8 ≤ numAt l 0 1) && decide (numAt l 0 1 ≤ 16) && decide (1 ≤ numAt l 1 1) && decide (numAt l 1 1 ≤ 8) &&
    zeroAt l 2 2 && decide (numAt l 4 4 ≤ numAt l 1 1 * 128) && decide (numAt l 4 4 ≤ 262144) && zeroAt l 8 8

/-- The contents of every section. -/
def sectionsOk (s : State) (b : Bool) : Bool :=
  let sec := sectionOf s b
  identityOk (sec 1) && cablingOk (sec 2) && equalisersOk (sec 3) && routesOk (sec 1) (sec 4) && ranksOk (sec 1) (sec 5) &&
    partitionsOk (sec 6) && zeroAt (sec 7) 2 14 && firmwareOk (sec 8) &&
    (hdrCount (headerOf s b) == 9 || licencesOk (sec 9)) && platformOk (sec 10)

/-! ### Verdicts (04 R94, R95) -/

def vdEmpty : BitVec 3 := 1
def vdInvalid : BitVec 3 := 2
def vdSigFail : BitVec 3 := 3
def vdFwFail : BitVec 3 := 4
def vdValid : BitVec 3 := 5
def vdRollback : BitVec 3 := 6

/-- EMPTY or INVALID, when one of them holds. -/
def formVerdict (s : State) (b : Bool) : Option (BitVec 3) :=
  let h := headerOf s b
  if slotEmpty h then some vdEmpty
  else if headerFieldsOk h && directoryOk h && sigOk (sigBlock s b) && sectionsOk s b then none
  else some vdInvalid

/-- The digest that the signature covers (04 R94). -/
def imageDigestOf (s : State) (b : Bool) : List Byte :=
  sha384 (nvmBytes s (slotBase b) (hdrSigOffset (headerOf s b) + 8))

/-- The body of VERIFY_IMAGE (16 R432). -/
def verifyBody (s : State) (b : Bool) : List Byte :=
  let g := sigBlock s b
  imageDigestOf s b ++ bytesAt g 2 2 ++ leBytes 4 (hdrSecVersion (headerOf s b)) ++ bytesAt g 8 96

/-- The digest of the firmware that an image names (04 R96, R97). -/
def fwDigestOf (s : State) (b : Bool) : List Byte :=
  let f := sectionOf s b 8
  sha384 (nvmBytes s (fwBase (numAt f 0 1 == 1)) (numAt f 4 4))

/-- The verdict once the root of trust has answered byte 0, or has not (04 R95). -/
def finalVerdict (s : State) (b : Bool) (answer : Option Byte) : BitVec 3 :=
  if answer = some 3 then vdRollback
  else if answer ≠ some 1 then vdSigFail
  else if fwDigestOf s b = bytesAt (sectionOf s b 8) 16 48 then vdValid
  else vdFwFail

/-! ### What an image holds -/

/-- A CABLING record. -/
def parseCable (l : List Byte) : Cabling :=
  { medium := l.getD 1 0
    lengthDm := BitVec.ofNat 16 (numAt l 2 2)
    peerEndpoint := BitVec.ofNat 32 (numAt l 4 4 % 2 ^ 17)
    peerPort := l.getD 8 0
    peerMachineId := BitVec.ofNat 128 (numAt l 16 16) }

/-- The image of a slot (04 R96). -/
def parseImage (s : State) (b : Bool) : Image :=
  let sec := sectionOf s b
  let id := sec 1
  let fw := sec 8
  { machineId := BitVec.ofNat 128 (numAt id 0 16)
    endpoint := BitVec.ofNat 17 (numAt id 16 4)
    coordX := numAt id 20 1, coordY := numAt id 21 1, coordZ := numAt id 22 1
    dimX := numAt id 24 1, dimY := numAt id 25 1, dimZ := numAt id 26 1
    cabling := tabOf {} (upTo 12 (fun n => parseCable (bytesAt (sec 2) (32 * n) 32)))
    equaliser := tabOf 0 ((blocksOf 16 108 (sec 3)).map (fun l => BitVec.ofNat 128 (leNat l)))
    routes := tabOf 0 ((blocksOf 8 160 (sec 4)).map (fun l => BitVec.ofNat 64 (leNat l)))
    partitions := tabOf {} ((partRecords (sec 6)).map parsePart)
    fwSlot := numAt fw 0 1 == 1
    fwLength := numAt fw 4 4
    fwVersion := BitVec.ofNat 32 (numAt fw 8 4)
    fwDigest := bytesAt fw 16 48
    granuleLog2 := numAt (sec 10) 0 1
    memLimitGib := numAt (sec 10) 4 4
    startHold := bitOf (numAt (headerOf s b) 0x18 4) 0 }

/-- The rank entries of a slot (07 R188). -/
def parseRanks (s : State) (b : Bool) : Tab (BitVec 32) := tabOf 0 ((words4 (sectionOf s b 5)).map (BitVec.ofNat 32))

/-- Licence record i of a slot (04 R98). -/
def licRecord (s : State) (b : Bool) (i : Nat) : List Byte := bytesAt (sectionOf s b 9) (8 + 168 * i) 168

/-- The fixed fields of a licence record are as R98 lists. -/
def licFormOk (l : List Byte) : Bool :=
  numAt l 0 2 == 1 && numAt l 2 2 == 168 && decide (numAt l 4 4 < 32) && decide (numAt l 64 2 < 4) && zeroAt l 66 6

/-- Licence records of a slot. -/
def licCount (s : State) (b : Bool) : Nat := if hdrCount (headerOf s b) = 10 then numAt (sectionOf s b 9) 0 2 else 0

/-- GENERATION of a slot's header, which orders the slots (04 R102). -/
def slotGeneration (s : State) (b : Bool) : Nat := hdrGeneration (headerOf s b)

/-- OTHER_GEN: the GENERATION of the slot not in use, 0 when that is EMPTY (04 FUR_SLOTS). -/
def otherGeneration (s : State) (b : Bool) : Nat := if slotEmpty (headerOf s b) then 0 else slotGeneration s b

end Sys2Proof.Machine
end

