-- ==== Sys2Proof/Machine/Startup.lean ====
section
/-! DEFINITION. Cold reset and start-up: slot selection, licences, the phases and their outcomes, holds and
stops (02 R54, R60, R63; 04 R97 to R115). -/

namespace Sys2Proof.Machine

/-- Change the start-up status. -/
def modFur (f : Furnish → Furnish) (s : State) : State := { s with fur := f s.fur }

/-! ### Reset and clock pins (02 R54, R60, R63; 04 R104) -/

/-- COLD_RESET_ASSERT: every state of the block at its reset value; the NVM device keeps its contents. -/
def doColdReset (s : State) : State :=
  { State.reset with pending := s.pending, freeCtr := s.freeCtr, fur := { nvm := s.fur.nvm } }

/-- COLD_START: a rising edge after at least 10 µs low samples SB_ADDR (02 R50, 04 R104). -/
def doColdStart (sbAddr : BitVec 2) (lowUs : Nat) (s : State) : State :=
  if s.pins.rstColdN ∨ lowUs < 10 then s
  else { s with pins := { s.pins with rstColdN := true, sbAddr := sbAddr } }

/-- ROOT_PLL_LOCK (02 R54, R60): the output clocks run, and the NVM device leaves reset. -/
def doPllLock (s : State) : State :=
  if s.pins.rstColdN && !s.pins.clkLock && !s.pins.lockLost then
    { s with pins := { s.pins with clkLock := true, clkOut := true, nvmRstN := true, portReady := true } }
  else s

/-- ROOT_PLL_UNLOCK: lasting until cold reset (02 R54). -/
def doPllUnlock (s : State) : State :=
  if s.pins.clkLock then { s with pins := { s.pins with clkLock := false, clkOut := false, lockLost := true } } else s

/-- RAIL_OUT_OF_TOLERANCE while RST_COLD_N is 1: every state of the block is undefined (02 R63); the pin itself
and the NVM device are not the block's. -/
def doRailOut (s : State) : State :=
  if s.pins.rstColdN then
    let t := Config.undefinedState s.freeCtr
    { t with
      pending := s.pending
      freeCtr := s.freeCtr + 1
      fur := { t.fur with nvm := s.fur.nvm }
      pins := { t.pins with rstColdN := true, railsOk := false } }
  else s

/-! ### Holds and stops (04 R107, R112, R113) -/

/-- FUR_STATUS bits [11:0] (04 FUR_STATUS). -/
def furFlags (s : State) : Nat :=
  let f := s.fur
  f.phase.toNat + 2 ^ 4 * f.outcome.toNat + 2 ^ 6 * b2n f.activeSlot + 2 ^ 7 * b2n f.fallback + 2 ^ 8 * b2n f.genTie +
    2 ^ 9 * b2n f.directed + 2 ^ 10 * b2n f.overridden + 2 ^ 11 * b2n f.isolated

/-- A START record (15 R403). -/
def logStart (sev cause : Nat) (s : State) : State := logErr { cls := clsStart, sev := sev, unitKind := 13, cause := cause } s

/-- Start-up stops in its phase, and directed mode begins (04 R107, R112). -/
def stopStart (cause : Byte) (s : State) : State :=
  logStart 3 cause.toNat (modFur (fun f => { f with outcome := 1, failCause := cause, directed := true, heldAt := s.nowUs }) s)

/-- Start-up holds at the end of its phase (04 R112). -/
def holdStart (s : State) : State := modFur (fun f => { f with outcome := 2, directed := true, heldAt := s.nowUs }) s

/-! ### Phase 1: slots (04 R94, R95, R102) -/

def setVerdict (b : Bool) (v : BitVec 3) (s : State) : State :=
  modFur (fun f => if b then { f with verdict1 := v } else { f with verdict0 := v }) s

def verdictOf (s : State) (b : Bool) : BitVec 3 := if b then s.fur.verdict1 else s.fur.verdict0

/-- Verify the slots that are left, in order, until one asks the root of trust; at most two. -/
def verifyNext : Nat → State → State
  | 0, s => s
  | k + 1, s =>
    match s.fur.toVerify with
    | [] => s
    | b :: rest =>
      let s := modFur (fun f => { f with toVerify := rest }) s
      match formVerdict s b with
      | some v => verifyNext k (setVerdict b v s)
      | none => rotSend rotVerifyImage (verifyBody s b) (.verifyImage b false) s

/-- The higher GENERATION first; of two equal ones slot 0, with GEN_TIE (04 R102). -/
def beginImage (s : State) : State :=
  let g0 := slotGeneration s false
  let g1 := slotGeneration s true
  verifyNext 2 (modFur (fun f => { f with genTie := g0 == g1, toVerify := if g0 < g1 then [true, false] else [false, true] }) s)

/-! ### Phase 1: licences (04 R99, R100) -/

/-- A licence record is accepted or rejected. -/
def licDone (w : LicWork) (ok : Bool) (s : State) : State :=
  modFur (fun f =>
    let f := { f with licWork := f.licWork.filter (fun x => x.index != w.index) }
    if ok then { f with licAccepted := f.licAccepted + 1, features := f.features ||| w.features }
    else { f with licRejected := f.licRejected + 1 }) s

/-- Decide every record whose answers are all in. -/
def licSettle (s : State) : State :=
  forEach s.fur.licWork (fun w s =>
    match w.sig, s.fur.dieId with
    | some false, _ => licDone w false s
    | some true, some d => licDone w (decide (d = w.binding)) s
    | _, _ => s) s

/-- The root of trust's answer on a record's signature, or none. -/
def licSigned (i : Nat) (ok : Bool) (s : State) : State :=
  licSettle (modFur (fun f => { f with licWork := f.licWork.map (fun w => if w.index = i then { w with sig := some ok } else w) }) s)

/-- The host die identity digest, or an empty one where the root of trust gives none. -/
def dieGiven (d : List Byte) (s : State) : State := licSettle (modFur (fun f => { f with dieId := some d }) s)

/-- Start the check of a licence record. -/
def startLicence (b : Bool) (i : Nat) (s : State) : State :=
  let l := licRecord s b i
  let w : LicWork := { index := i, features := BitVec.ofNat 5 (numAt l 4 4), formOk := licFormOk l, binding := bytesAt l 16 48 }
  if w.formOk then
    rotSend rotVerifyLicence (sha384 (l.take 72) ++ bytesAt l 64 2 ++ bytesAt l 72 96) (.verifyLicence i)
      (modFur (fun f => { f with licWork := f.licWork ++ [w] }) s)
  else licDone w false s

/-- Check every licence record of the image in use. -/
def startLicences (b : Bool) (s : State) : State :=
  let s := forEach (List.range (licCount s b)) (startLicence b) s
  if s.fur.licWork.isEmpty then s else rotSend rotDieIdentity [] .dieIdentity s

/-! ### Phase 1: the image is used (04 R97, R102, R108; 16 R437) -/

/-- Present partitions become READY. -/
def readyParts (s : State) : State :=
  forEach allParts (fun (p : PartNo) (s : State) => onlyIf (partRec s p).present (setPartState p partReady) s) s

/-- The measurements of image and firmware (16 R437 kinds 1 and 2). -/
def measureImage (s : State) : State :=
  let f := s.fur
  let s := measure measFurnish 0xFF 0xFFFF
    (leBytes 4 f.activeGen.toNat ++ leBytes 4 f.activeSec.toNat ++ leBytes 1 (b2n f.activeSlot) ++ leBytes 1 (b2n f.fallback))
    f.imageDigest none s
  measure measFirmware 0xFF 0xFFFF (leBytes 4 f.image.fwVersion.toNat ++ leBytes 1 (b2n f.image.fwSlot)) f.image.fwDigest none s

/-- A slot is VALID: its contents take effect, its firmware starts, and its licences are checked. -/
def useImage (b : Bool) (s : State) : State :=
  let h := headerOf s b
  let other := verdictOf s !b
  let fb := other ≠ 0 ∧ other ≠ vdEmpty
  let s := modFur (fun f => { f with
    image := parseImage s b
    activeSlot := b
    fallback := decide fb
    toVerify := []
    activeGen := BitVec.ofNat 32 (hdrGeneration h)
    activeSec := BitVec.ofNat 32 (hdrSecVersion h)
    otherGen := BitVec.ofNat 32 (otherGeneration s !b)
    imageDigest := imageDigestOf s b
    fwDigest := fwDigestOf s b }) s
  let s := { s with route := { s.route with ranks := parseRanks s b, digest := sha384 (sectionOf s b 5) } }
  let s := applyOrders false false { s with power := { s.power with
    boardCeil := BitVec.ofNat 12 (min 4095 (numAt (sectionOf s b 7) 0 2)) } }
  let s := measureImage (readyParts s)
  let s := flushReports (modFur (fun f => { f with fwStarted := true }) s)
  let s := onlyIf (decide fb) (logStart 1 0) s
  startLicences b s

/-- The root of trust has answered VERIFY_IMAGE for a slot of phase 1, or has not (04 R95). -/
def imageAnswer (b : Bool) (answer : Option Byte) (s : State) : State :=
  let v := finalVerdict s b answer
  let s := setVerdict b v s
  if v = vdValid then useImage b s else verifyNext 2 s

/-- Phase 1 ends: with no image in use start-up stops; otherwise the features are fixed (04 R99, R100,
R107). -/
def endImage (s : State) : State × Option Byte :=
  if !s.fur.fwStarted then
    let s := abandonRot (fun o => match o with | .verifyImage _ staged => !staged | _ => false) s
    (s, some (if s.fur.verdict0 = vdEmpty ∧ s.fur.verdict1 = vdEmpty then 0x02 else 0x03))
  else
    let s := forEach s.fur.licWork (fun w => licDone w false) s
    let s := modFur (fun f => { f with capsSet := true }) s
    ({ s with btr := { s.btr with licensed := if s.fur.features.getLsbD 1 then 0xFF else 0x0F } }, none)

/-! ### Phase 2: the Vat and the Beaters (12 R356, R357; 13 R372, R373) -/

/-- Put a licensed Beater into service, or take out one that failed. -/
def admitBeater (passed : Byte) (b : Nat) (s : State) : State :=
  if !s.btr.licensed.getLsbD b then s
  else modBeater b (fun u => { u with state := if passed.getLsbD b then 1 else 2 }) s

/-- Beaters in service. -/
def beatersServing (s : State) : Nat := ((List.range 8).filter (beaterServes s)).length

/-- The results of the self-test at start-up (12 R356, R357). -/
def startBeaters (passed : Byte) (us : BitVec 16) (s : State) : State :=
  let failed := s.btr.licensed &&& ~~~passed
  let s := { s with btr := { s.btr with passed := passed &&& s.btr.licensed, failed := failed, lastUs := us, busy := false } }
  let s := forEach (List.range 8) (admitBeater passed) s
  forEach ((List.range 8).filter (fun b => failed.getLsbD b))
    (fun b s => logTakeover { cls := 0, sev := 0, unitKind := 9, unitIndex := b } (beatersServing s) s) s

/-- Phase 2 ends. -/
def endVatTest (o : PhaseObs) (s : State) : State × Option Byte :=
  let s := destructiveResult o.banksFailed s
  let s := { s with vat := { s.vat with passed := o.banksFailed == 0, lastUs := o.marchUs } }
  let s := startBeaters o.beatersPassed o.selfTestUs s
  if 3 ≤ (banksIn o.banksFailed).length then (s, some 0x10)
  else if beatersServing s = 0 then (s, some 0x11)
  else (releaseHeld { s with vat := { s.vat with state := vatActive } }, none)

/-! ### Phases 3 to 6 (04 R107 to R111) -/

/-- Phase 3 starts for a port: it stays dark, or its lanes are powered and it trains (03 R79, 04 R109).  In P2 or P3 the
ports stay parked (03 R70). -/
def startPort (n : Nat) (s : State) : State :=
  match barOf s n with
  | some (out, cause) => setOutcome n out (modPort n (fun p => { p with downCause := cause }) s)
  | none =>
    if !awake s then s
    else beginAttempt n false (modPort n (fun p => { p with powered := true, pllLock := true, partnerSeen := false }) s)

/-- A port that has not trained by the end of phase 3 keeps its outcome (04 R110, R111).  One that has trained shows 0xA
until phase 4 ends (log entry 108). -/
def endTraining (n : Nat) (s : State) : State :=
  let p := portOf s n
  if (barOf s n).isSome || !(p.state == psDown || p.state == psDetect || p.state == psTraining) then s
  else setOutcome n (if p.downCause = 0x04 then 0x4 else if p.partnerSeen then 0x9 else 0x5) s

/-- The outcome of a trained port when phase 4 ends (04 R111). -/
def endAdmission (n : Nat) (s : State) : State :=
  let p := portOf s n
  if outcomeOf s n ≠ 0xA then s
  else setOutcome n (if inService p then servedOutcome p else if p.state = psFenced then 0x8 else 0xB) s

/-- Firmware reports every outcome (05 R129). -/
def logOutcome (n : Nat) (s : State) : State := reportOutcome n (outcomeOf s n) s

/-- Phase 5: the break maps from the block's own ports, and the rank digest to every partner (04 R107, 07
R196, R199). -/
def startRoutes (s : State) : State :=
  let s := forEach (List.range 6) (fun d s =>
    let (link, e) := ownLink s d
    if decide (1 < dimSize s (dirDim d)) && dirDead s d && !(reportOf s (dirDim d) link e).broken then setOwnLink d true s else s) s
  forEach (servicePorts s) sendDigest s

/-- FUR_PORT_RESULT (04 R111). -/
def portResults (s : State) : Nat := (List.range 12).foldl (fun a n => a + (outcomeOf s n).toNat * 16 ^ n) 0

/-- Phase 6: the START measurement, then RST_READY rises and queues may be scheduled (04 R107, R110; 16
R437). -/
def startReady (s : State) : State :=
  let alone := (servicePorts s).isEmpty
  let s := modFur (fun f => { f with isolated := alone }) s
  let s := onlyIf alone (logStart 1 0) s
  let s := measure measStart 0xFF 0xFFFF
    (leBytes 4 s.fur.features.toNat ++ leBytes 2 s.fur.overrides.toNat ++ leBytes 2 (furFlags s) ++ leBytes 6 (portResults s)) [] none s
  pumpMisses s.xlt.waiting.length (pumpMem { s with pins := { s.pins with ready := true } })

/-! ### The phases in order (04 R107, R113) -/

/-- Phase n starts. -/
def startPhase (n : Nat) (nvmUsable : Bool) (s : State) : State :=
  let now := s.nowUs
  let s := modFur (fun f => { f with phase := BitVec.ofNat 4 n, outcome := 0, phaseAt := now }) s
  match n with
  | 1 => if nvmUsable then beginImage s else stopStart 0x01 s
  | 2 => startSelfTest s
  | 3 => forEach (List.range 12) startPort s
  | 5 => startRoutes s
  | 6 => startReady s
  | _ => s

/-- The phase under way ends; the FAIL_CAUSE of one that stops start-up. -/
def endPhase (o : PhaseObs) (s : State) : State × Option Byte :=
  match s.fur.phase.toNat with
  | 1 => endImage s
  | 2 => endVatTest o s
  | 3 => (forEach (List.range 12) endTraining s, none)
  | 4 => (forEach (List.range 12) logOutcome (forEach (List.range 12) endAdmission s), none)
  | _ => (s, none)

/-- Count the time a phase ran. -/
def addRun (us : BitVec 32) (s : State) : State :=
  modFur (fun f =>
    let n := f.phase.toNat
    { f with
      elapsed := f.elapsed + us
      runUs := if n = 0 then f.runUs else tabMod 0 n (· + us) f.runUs }) s

/-- PHASE_END (04 R107, R112). -/
def doPhaseEnd (o : PhaseObs) (s : State) : State :=
  let n := s.fur.phase.toNat
  if 6 ≤ n ∨ s.fur.outcome ≠ 0 then s
  else
    match endPhase o (addRun o.runUs s) with
    | (s, some c) => stopStart c s
    | (s, none) =>
      if s.fur.holdOrder || (decide (n = 2) && s.fur.image.startHold) then holdStart s
      else startPhase (n + 1) o.nvmUsable s

/-- Start-up goes on from a hold: a phase 2 that stopped runs again, and otherwise the next phase runs (04 R113).  A step
order on a block that stopped in phase 2 runs that phase again too, and holds at its end (log entry 112). -/
def leaveHold (s : State) : State :=
  let n := s.fur.phase.toNat
  let s := modFur (fun f => { f with holdUs := tabMod 0 n (· + BitVec.ofNat 32 (s.nowUs - f.heldAt)) f.holdUs }) s
  if s.fur.outcome = 1 then
    startSelfTest (modFur (fun f => { f with outcome := 0, failCause := 0 }) { s with vat := { s.vat with state := vatTesting } })
  else startPhase (n + 1) true s

end Sys2Proof.Machine
end

