-- ==== Sys2Proof/Machine/Trust.lean ====
section
/-! DEFINITION. Answers of the root of trust, repeats and silences, and SET_POLICY (02 R48; 16 R431 to R433,
R436, R438 to R441). -/

namespace Sys2Proof.Machine

/-- How a request to the root of trust ends (16 R432). -/
inductive RotAnswer where
  /-- STATUS 0, with its body -/
  | done (body : List Byte)
  /-- STATUS 1, or 2, which has the outcome of a refusal -/
  | refused
  /-- lasting silence -/
  | silent
  deriving DecidableEq, Repr, Inhabited

def RotAnswer.isDone : RotAnswer → Bool
  | .done _ => true
  | _ => false

/-- The status of a run whose request was not answered as done (16 R439 to R441). -/
def RotAnswer.failStatus : RotAnswer → Byte
  | .silent => stTimeout
  | _ => stRights

/-- Byte 0 of the body. -/
def RotAnswer.first : RotAnswer → Option Byte
  | .done b => b.head?
  | _ => none

/-- The verdict of a staged check is known (04 R106): it waits in the upper byte of the long command's
argument. -/
def stagedAnswer (b : Bool) (answer : Option Byte) (s : State) : State :=
  let v := finalVerdict s b answer
  { s with sec := { s.sec with longArg := BitVec.ofNat 16 (b2n b + 256 * v.toNat) } }

/-- A measurement has its answer: the next one is sent (16 R438). -/
def measureAnswered (idx : BitVec 32) (a : RotAnswer) (s : State) : State :=
  match s.sec.measures with
  | [] => s
  | m :: rest =>
    if m.index ≠ idx then s
    else
      let s := { s with sec := { s.sec with
        measures := rest
        measFailed := if a.isDone then s.sec.measFailed else satInc s.sec.measFailed } }
      let s := onlyIf (!a.isDone && decide (m.kind.toNat ≤ 4)) (logStart 3 0) s
      let s := sendMeasure s
      match m.run with
      | some id => runMeasured id a.isDone (bytesAt m.record 32 48) a.failStatus s
      | none => s

/-- The answer to a KEY_REQUEST (16 R441). -/
def keyAnswer (run : Nat) (a : RotAnswer) (s : State) : State :=
  match a with
  | .done b => keyAnswered run (some (padTo 32 b)) stOk { s with sec := { s.sec with keyReleases := satInc s.sec.keyReleases } }
  | .refused => keyAnswered run none stRights { s with sec := { s.sec with keyRefused := satInc s.sec.keyRefused } }
  | .silent => keyAnswered run none stTimeout s

/-- What an answer means to the one who asked (16 R432, table). -/
def rotDeliver (o : RotOwner) (a : RotAnswer) (s : State) : State :=
  match o with
  | .verifyImage b staged => if staged then stagedAnswer b a.first s else imageAnswer b a.first s
  | .verifyLicence i => licSigned i (decide (a.first = some 1)) s
  | .dieIdentity => dieGiven (match a with | .done b => b.take 48 | _ => []) s
  | .nonce p => match a with | .done b => nonceGiven p b s | _ => suspendAdm p s
  | .macAnswer p => match a with | .done b => macGiven p b s | _ => suspendAdm p s
  | .macExpect p => match a with | .done b => macExpected p b s | _ => suspendAdm p s
  | .measure i => measureAnswered i a s
  | .key r => keyAnswer r a s
  | .notice => s
  | .abandoned => s

/-- An INTERNAL record about the root-of-trust port. -/
def logRot (sev : Nat) (s : State) : State := logErr { cls := clsInternal, sev := sev, unitKind := 13 } s

/-- A message that R48 discards. -/
def badFrame (m : RotMsg) : Bool := m.sopInside || decide (64 < m.beats)

/-- A request is no longer outstanding; those that waited are sent (16 R432). -/
def rotRetire (tag : BitVec 16) (s : State) : State :=
  rotPump { s with sec := { s.sec with rot := s.sec.rot.filter (fun r => r.tag != tag) } }

/-- RESULT (16 R432). -/
def doResult (m : RotMsg) (s : State) : State :=
  if badFrame m then logRot 2 s
  else match s.sec.rot.find? (fun r => r.tag == m.tag) with
    | none => logRot 0 s
    | some r =>
      let s := rotRetire m.tag s
      let s := onlyIf (decide (m.status = 2)) (logRot 2) s
      rotDeliver r.owner (if m.status = 0 then .done m.body else .refused) s

/-- VERIFY_IMAGE is never repeated (16 R432). -/
def neverRepeated (o : RotOwner) : Bool := match o with | .verifyImage _ _ => true | _ => false

/-- ROT_REQUEST_TIMEOUT: repeated once with a new TAG; a second silence is lasting (16 R432). -/
def doRotTimeout (tag : BitVec 16) (s : State) : State :=
  match s.sec.rot.find? (fun r => r.tag == tag) with
  | none => s
  | some r =>
    if neverRepeated r.owner then rotDeliver r.owner .silent (rotRetire tag s)
    else if r.repeated then
      let s := { s with sec := { s.sec with rotLasting := satInc s.sec.rotLasting } }
      rotDeliver r.owner .silent (rotRetire tag s)
    else
      { s with sec := { s.sec with
        rotRepeats := satInc s.sec.rotRepeats
        rot := s.sec.rot.map (fun q => if q.tag = tag then { q with tag := s.sec.rotTag, repeated := true } else q)
        rotTag := s.sec.rotTag + 1 } }

/-- SET_POLICY: the mask with bit 0 set, answered with RESULT (16 R433). -/
def doSetPolicy (m : RotMsg) (s : State) : State :=
  if badFrame m then logRot 2 s
  else
    { s with
      sec := { s.sec with policy := BitVec.ofNat 6 (m.body.headD 0).toNat ||| 1, policySet := true }
      out := { s.out with rotResults := s.out.rotResults ++ [(m.tag, 0)] } }

end Sys2Proof.Machine
end

