-- ==== Sys2Proof/Machine/Readings.lean ====
section
/-! DEFINITION. What each register reads (17 R457, R462, and the register tables of 03 to 17).  A function
answers `none` at an offset that no table assigns (17 R459). -/

namespace Sys2Proof.Machine

/-- Bytes 8i to 8i + 7 of a byte string, byte 8i lowest. -/
def wordOf (l : List Byte) (i : Nat) : Word := BitVec.ofNat 64 (numAt l (8 * i) 8)

/-- Element i of an array of registers: n of them from `lo` on, `stride` apart. -/
def arrayIx (off lo stride n : Nat) : Option Nat :=
  if lo ≤ off ∧ (off - lo) % stride = 0 ∧ (off - lo) / stride < n then some ((off - lo) / stride) else none

/-! ### Identity (17) -/

/-- Ports and Beaters licensed; 0 until phase 1 ends. -/
def portsLicensed (s : State) : Nat := if !s.fur.capsSet then 0 else if s.fur.features.getLsbD 0 then 12 else 6
def beatersLicensed (s : State) : Nat := if !s.fur.capsSet then 0 else if s.fur.features.getLsbD 1 then 8 else 4

def rdIdentity (o : Nat) (s : State) : Option Word :=
  match o with
  | 0x00 => some (packFields [(0, 32, 0x32315A59), (32, 16, 0x0201), (48, 8, 2), (56, 8, 2)])
  | 0x08 => some (packFields [(0, 5, s.fur.features.toNat), (8, 4, portsLicensed s), (12, 4, beatersLicensed s), (32, 5, 0x1F)])
  | 0x10 => some (packFields [(0, 16, 1024), (16, 16, 4096), (32, 16, 4096), (48, 16, 8192)])
  | 0x18 => some (packFields [(0, 20, 131072), (20, 16, 16384), (36, 8, 32), (48, 5, 16), (56, 8, 24)])
  | 0x20 => some (packFields [(0, 17, 65536), (24, 8, 12), (32, 8, 8), (40, 8, 9), (48, 16, 16384)])
  | 0x28 =>
    let a := s.access
    some (packFields [(0, 16, a.count.toNat), (16, 24, a.offset.toNat), (40, 5, a.par.toNat), (45, 2, a.kind.toNat),
      (47, 1, b2n a.wasWrite)])
  | _ => none

/-! ### Clocks, power and telemetry (03) -/

/-- PWR_TEL register k = 3s + w. -/
def rdTel (s : State) (k : Nat) : Word :=
  let t := tabGet {} s.power.tel k
  packFields [(0, 16, t.avg.toNat), (16, 16, t.peak.toNat), (32, 16, t.winCount.toNat), (48, 1, b2n t.estimated)]

/-- One bit for each port. -/
def portMask (s : State) (f : Port → Bool) : Nat :=
  (List.range 12).foldl (fun a n => a + b2n (f (portOf s n)) * 2 ^ n) 0

def rdPwrState (p : Power) : Word :=
  packFields [(0, 3, p.cur.toNat), (3, 1, b2n p.policy), (4, 1, b2n p.transition.isSome), (16, 16, p.idleDelay.toNat)]

def rdPower (o : Nat) (s : State) : Option Word :=
  let p := s.power
  match o with
  | 0x00 => some (packFields [(0, 1, b2n s.pins.clkLock), (1, 12, portMask s (·.pllLock))])
  | 0x08 => some (rdPwrState p)
  | 0x10 => some (packFields [(0, 12, p.effective.toNat), (12, 2, p.source.toNat), (14, 3, p.level.toNat),
      (17, 1, b2n p.ceilUnmet), (18, 1, b2n p.shedActive), (32, 16, p.ceilEpoch.toNat)])
  | 0x18 => some (packFields [(0, 12, p.hostCeil.toNat)])
  | 0x20 => some (packFields [(0, 12, p.rackCeil.toNat), (12, 1, b2n p.rackShed)])
  | 0x28 => some (packFields [(0, 12, p.boardCeil.toNat)])
  | _ => (arrayIx o 0x100 8 12).map (rdTel s)

/-! ### Start-up (04) -/

/-- FUR_STATUS. -/
def furStatus (s : State) : Word :=
  packFields [(0, 12, furFlags s), (16, 8, s.fur.failCause.toNat), (32, 32, s.fur.elapsed.toNat)]

def rdFurnish (o : Nat) (s : State) : Option Word :=
  let f := s.fur
  match o with
  | 0x00 => some (furStatus s)
  | 0x08 => some (packFields [(0, 3, f.verdict0.toNat), (3, 3, f.verdict1.toNat), (32, 32, f.otherGen.toNat)])
  | 0x10 => some (packFields [(0, 32, f.activeGen.toNat), (32, 32, f.activeSec.toNat)])
  | 0x40 => some (packFields [(0, 48, portResults s)])
  | 0x48 => some (packFields [(0, 5, f.features.toNat), (8, 4, f.licAccepted.toNat), (12, 4, f.licRejected.toNat)])
  | 0xB0 => some (packFields [(0, 16, f.overrides.toNat)])
  | _ =>
    match arrayIx o 0x18 8 5, arrayIx o 0x50 8 6, arrayIx o 0x80 8 6 with
    | some k, _, _ => some (packFields [(0, 32, (tabGet 0 f.runUs (k + 1)).toNat), (32, 32, (tabGet 0 f.holdUs (k + 1)).toNat)])
    | _, some i, _ => some (wordOf f.imageDigest i)
    | _, _, some i => some (wordOf f.fwDigest i)
    | _, _, _ => none

/-! ### Ports (05, 06) -/

def rdPortState (p : Port) : Word :=
  packFields [(0, 4, p.state.toNat), (4, 8, p.downCause.toNat), (12, 8, p.fenceCause.toNat), (20, 1, b2n p.twinCarrying),
    (21, 1, b2n p.carryingTwin)]

def rdPortLink (p : Port) : Word :=
  packFields [(0, 16, p.rttFclk.toNat), (16, 11, p.tx.broke.length), (27, 12, p.rx.buf.length), (39, 1, b2n p.rx.paused),
    (40, 8, p.rx.xoffSent.toNat), (48, 8, p.rx.xoffRcvd.toNat)]

def rdPause (p : Port) : Word :=
  packFields [(0, 13, p.pauseLimit.toNat), (16, 16, p.longestXoff.toNat), (32, 16, p.stuckCount.toNat)]

def rdDeckle (p : Port) : Word :=
  packFields (upTo 8 (fun l => (4 * l, 4, (physOf p.deckle l).toNat)) ++
    [(32, 4, p.deckle.spare.toNat), (36, 2, p.deckle.width.toNat), (40, 8, p.deckle.epoch.toNat)])

def rdLaneState (p : Port) : Word := packFields (upTo 9 (fun k => (4 * k, 4, (laneOf p k).state.toNat)))

def rdCal (p : Port) : Word :=
  let c := p.cal
  packFields [(0, 10, c.temp.toNat), (10, 10, c.calTemp.toNat), (20, 1, b2n c.stale), (21, 1, b2n c.pass.isSome),
    (22, 1, b2n c.deferred), (32, 16, c.passCount.toNat), (48, 16, c.narrowedUs.toNat)]

def rdLoopCtrl (p : Port) : Word := packFields [(0, 2, p.loopMode.toNat), (2, 1, b2n p.loopPattern), (3, 9, p.loopLanes.toNat)]

/-- The registers of one port, by their place in its 64 KiB. -/
def rdPort (o : Nat) (p : Port) : Option Word :=
  match o with
  | 0x00 => some (rdPortState p)
  | 0x08 => some (rdPortLink p)
  | 0x10 => some (packFields [(0, 40, p.tx.nextTx.toNat)])
  | 0x18 => some (packFields [(0, 40, p.rx.expected.toNat)])
  | 0x20 => some (packFields [(0, 16, p.nakSent.toNat), (16, 16, p.nakRcvd.toNat), (32, 16, p.replayTimeouts.toNat), (48, 16, p.cnakSent.toNat)])
  | 0x28 => some (packFields [(0, 40, p.replayed.toNat), (40, 24, p.dupDiscarded.toNat)])
  | 0x30 => some (rdPause p)
  | 0x38 => some (packFields [(0, 16, p.pauseViol.toNat), (16, 16, p.malformed.toNat), (32, 16, p.nakStorms.toNat), (48, 16, p.linkLosses.toNat)])
  | 0x40 => some (packFields [(0, 16, p.handovers.toNat), (16, 16, p.handoverFails.toNat), (32, 11, p.lastResent.toNat)])
  | 0x48 => some (packFields [(0, 40, p.lastPeerExp.toNat)])
  | 0x200 => some (rdDeckle p)
  | 0x208 => some (rdLaneState p)
  | 0x210 => some (rdCal p)
  | 0x270 => some (rdLoopCtrl p)
  | 0x2C0 => some 0
  | _ =>
    match arrayIx o 0x220 8 9, arrayIx o 0x278 8 9 with
    | some k, _ =>
      let x := laneOf p k
      some (packFields [(0, 32, x.corrSymbols.toNat), (32, 16, x.lockLosses.toNat), (48, 8, x.swapFails.toNat)])
    | _, some k =>
      let x := laneOf p k
      some (packFields [(0, 32, x.loopErrBits.toNat), (32, 1, b2n x.checkerLock), (40, 24, x.checked.toNat)])
    | _, _ => none

/-! ### Routing (07) -/

/-- RTE_BREAK of a dimension. -/
def rdBreak (s : State) (d : Nat) : Word :=
  packFields (upTo 64 (fun c => (c, 1, b2n (decide (c < dimSize s d) && linkBroken s d c))))

/-- RTE_ROUTE of an entry. -/
def rdRoute (s : State) (e : Nat) : Word :=
  let d := if e < 64 then 0 else if e < 128 then 1 else 2
  let x := routeEntry s d (e - 64 * d)
  let used := bitOf x 0 && !bitOf x 1
  packFields [(0, 32, x), (32, 1, b2n (used && pathBlocked s d (primaryHops x) (primaryMinus x))),
    (33, 1, b2n (used && pathBlocked s d (detourHops x) (!primaryMinus x)))]

/-- Two entries of the rank window. -/
def rdRank (s : State) (w : Nat) : Word :=
  packFields [(0, 32, (tabGet 0 s.route.ranks (2 * w)).toNat), (32, 32, (tabGet 0 s.route.ranks (2 * w + 1)).toNat)]

def rdRouting (o : Nat) (s : State) : Option Word :=
  let r := s.route
  let i := s.fur.image
  match o with
  | 0x00 => some (packFields [(0, 3, r.localWeight.toNat)])
  | 0x08 => some (packFields [(0, 17, i.endpoint.toNat), (32, 6, i.coordX), (40, 6, i.coordY), (48, 5, i.coordZ)])
  | 0x10 => some (packFields [(0, 7, i.dimX), (8, 7, i.dimY), (16, 6, i.dimZ)])
  | 0x18 => some (rdBreak s 0)
  | 0x20 => some (rdBreak s 1)
  | 0x28 => some (rdBreak s 2)
  | 0x30 => some (packFields ((0, 12, portMask s inService) :: upTo 6 (fun d => (12 + d, 1, b2n (dirDead s d)))))
  | 0x38 => some (packFields [(0, 32, r.rankGen.toNat), (32, 16, r.mismatches.toNat), (48, 1, b2n r.digestBusy)])
  | 0x40 => some 0
  | 0x78 => some (packFields [(0, 48, r.transitMsgs.toNat)])
  | 0x80 => some (packFields [(0, 16, r.turned.toNat), (16, 16, r.unreachSent.toNat), (32, 16, r.unreachDrops.toNat), (48, 16, r.checkFails.toNat)])
  | _ =>
    match arrayIx o 0x48 8 6, arrayIx o 0x1000 8 160, arrayIx o 0x80000 8 65536 with
    | some k, _, _ => some (wordOf r.digest k)
    | _, some e, _ => some (rdRoute s e)
    | _, _, some w => some (rdRank s w)
    | _, _, _ => none

/-! ### Trackers, atomic units, replay table (08) -/

def rdTrackers (o : Nat) (s : State) : Option Word :=
  let t := s.trk
  match o with
  | 0x00 => some (packFields [(0, 16, t.respTimeout.toNat), (16, 16, t.atomicRetain.toNat)])
  | 0x08 => some (packFields [(0, 18, t.trackers.length), (18, 18, t.peak), (36, 18, trkCapacity s)])
  | 0x10 => some (packFields [(0, 16, t.timeouts.toNat), (16, 16, t.reissues.toNat), (32, 16, t.ambiguous.toNat), (48, 16, t.lateDiscards.toNat)])
  | 0x18 => some (packFields [(0, 15, t.replay.length), (15, 15, t.replayPeak), (32, 32, min (2 ^ 32 - 1) ((s.nowUs - t.clearedAt) / 1000))])
  | 0x20 => some (packFields [(0, 16, t.hits.toNat), (16, 16, t.expiries.toNat), (32, 16, t.fullStalls.toNat), (48, 16, t.ambigSent.toNat)])
  | 0x28 => some (packFields [(0, 48, t.executed.toNat), (48, 16, t.lockDataErrors.toNat)])
  | 0x30 => some (packFields [(0, 7, t.openRuns.length), (16, 16, t.gapCloses.toNat), (32, 16, t.strayConts.toNat), (48, 16, t.dataErrorsSent.toNat)])
  | _ => none

/-! ### Contexts, queues and counters (09) -/

def rdCtxState (s : State) (c : Nat) : Word :=
  let x := ctxOf s c
  let own : Nat := match ctxPart s c with | some p => p | none => 0
  packFields [(0, 2, x.state.toNat), (2, 4, own), (16, 16, x.gen.toNat),
    (32, 18, (s.trk.trackers.filter (fun t => t.ctx.val == c)).length),
    (51, 13, (s.cq.queues.filter (fun q => q.2.bound && q.2.ctx.val == c)).length)]

/-- HEAD in [31:0] and TAIL in [63:32]. -/
def rdQPtrs (q : Queue) : Word := packFields [(0, 32, q.head.toNat), (32, 32, q.tail.toNat)]

/-- The registers of queue k. -/
def rdQueue (s : State) (k o : Nat) : Option Word :=
  let q := queueOf s k
  match o with
  | 0x00 => some (rdQRing q)
  | 0x08 => some (rdQConfig q)
  | 0x10 => some (packFields [(0, 3, q.state.toNat), (3, 1, b2n q.bound), (4, 10, q.ctx), (14, 4, q.errCause.toNat),
      (18, 4, (queueRuns s k).length), (32, 32, q.failedIndex.toNat)])
  | 0x18 => some (rdQPtrs q)
  | 0x20 => some (rdQPeriod q)
  | 0x28 => some (packFields [(0, 32, q.periods.toNat), (32, 16, q.lateCount.toNat), (48, 16, q.latePeriods.toNat)])
  | 0x30 => some (packFields [(0, 4, q.vector.toNat)])
  | _ => none

/-- The region from 0x50_0000 on. -/
def rdContexts (o : Nat) (s : State) : Option Word :=
  let c := s.cq
  if o = 0x200 then some (packFields [(0, 16, c.ignored.toNat), (16, 16, c.bad.toNat), (32, 16, c.trigWaits.toNat), (48, 16, c.stateRefusals.toNat)])
  else if o = 0x208 then some (packFields [(0, 15, c.armed.length), (32, 15, c.armedPeak)])
  else
    match arrayIx o 0x00 0x10 17, arrayIx o 0x08 0x10 17, arrayIx o 0x10000 8 1024 with
    | some _, _, _ => some 0
    | _, some r, _ => let x := slotOf s r; some (packFields [(0, 8, x.code.toNat), (8, 8, x.lastCmd.toNat), (16, 32, x.seq.toNat)])
    | _, _, some k => some (rdCtxState s k)
    | _, _, _ =>
      if 0x20000 ≤ o ∧ o < 0x60000 then rdQueue s ((o - 0x20000) / 0x40) ((o - 0x20000) % 0x40)
      else
        match arrayIx o 0x100000 8 65536, arrayIx o 0x180000 8 65536 with
        | some k, _ => some (cntOf s k)
        | _, some _ => some 0
        | _, _ => none

/-- A doorbell slot: HEAD and TAIL at slot offset 0, zero elsewhere (09 R255, 17 R463). -/
def rdDoorbell (o : Nat) (s : State) : Option Word := some (if o % 0x40 = 0 then rdQPtrs (queueOf s (o / 0x40)) else 0)

/-! ### Translation (10) -/

/-- Descriptors with held translations (10 XLT_STATUS). -/
def heldXlts (s : State) : Nat := (s.cq.queues.map (fun q => (q.2.fetched.filter (fun f => f.held.isSome)).length)).sum

/-- The sticky flags of 64 contexts. -/
def rdSticky (s : State) (w : Nat) : Word := packFields (upTo 64 (fun b => (b, 1, b2n (ctxOf s (64 * w + b)).sticky)))

def rdXltCtx (s : State) (c : Nat) : Word :=
  let x := ctxOf s c
  packFields [(0, 16, x.epoch.toNat), (16, 16, min 65535 x.usesOld), (32, 16, min 65535 x.usesCur),
    (48, 1, b2n (s.xlt.inv.any (fun i => i.2.busy && i.2.ctx.val == c)))]

/-- An import window's registers. -/
def rdWindow (s : State) (w o : Nat) : Option Word :=
  let x := winOf s w
  let own : Nat := match winPart s w with | some p => p | none => 0
  match o with
  | 0x00 => some (packFields [(12, 52, x.base.toNat)])
  | 0x08 => some (packFields [(0, 32, x.pages.toNat)])
  | 0x10 => some (packFields [(0, 48, x.map.toNat)])
  | 0x18 => some (packFields [(0, 17, x.srcValue.toNat), (32, 17, x.srcMask.toNat)])
  | 0x20 => some (packFields [(0, 2, x.state.toNat), (4, 3, x.rights.toNat), (7, 1, b2n x.counter), (8, 4, own),
      (32, 7, (s.trk.openRuns.filter (fun r => r.window == w)).length)])
  | _ => none

def rdXltSlot (s : State) (r k : Nat) : Word :=
  let i := invOf s r
  match k with
  | 0 => i.addr
  | 1 => packFields [(0, 45, i.len.toNat)]
  | 2 => 0
  | _ => packFields [(0, 8, i.code.toNat), (8, 1, b2n i.busy), (16, 32, i.doneSeq.toNat)]

def rdFq (s : State) (p k : Nat) : Word :=
  let f := fqOf s p
  match k with
  | 0 => packFields [(6, 42, f.base.toNat)]
  | 1 => packFields [(0, 5, f.log2.toNat)]
  | 2 => packFields [(0, 32, f.head.toNat), (32, 32, f.tail.toNat)]
  | _ => packFields [(0, 32, f.ovfCount.toNat), (32, 1, b2n f.overflowed)]

def rdXltPar (s : State) (p : Nat) : Word :=
  let mine (r : Range) : Bool := match rangePart s r with | some q => q.val == p | none => false
  packFields [(0, 14, cacheHeld s p), (16, 14, cacheQuotaOf s p), (32, 14, (s.xlt.cache.filter (fun r => mine r && r.keep)).length)]

def rdXlt (o : Nat) (s : State) : Option Word :=
  let x := s.xlt
  match o with
  | 0x00 => some (packFields [(0, 14, x.timeout.toNat)])
  | 0x08 => some (packFields [(0, 9, x.misses.length), (16, 14, cacheCapacity s), (32, 15, heldXlts s)])
  | 0x10 => some (packFields [(0, 16, x.transient.toNat), (16, 16, x.lasting.toNat), (32, 16, x.strayReplies.toNat), (48, 16, x.staleRetrans.toNat)])
  | 0x18 => some (packFields [(0, 48, x.missCount.toNat)])
  | 0x20 => some (packFields [(0, 16, x.prefetchFails.toNat), (16, 16, x.retired.toNat), (32, 16, x.replyErrors.toNat)])
  | _ =>
    match arrayIx o 0x100 8 68, arrayIx o 0x1000 8 64, arrayIx o 0x2000 8 16 with
    | some k, _, _ => some (rdXltSlot s (k / 4) (k % 4))
    | _, some k, _ => some (rdFq s (k / 4) (k % 4))
    | _, _, some w => some (rdSticky s w)
    | _, _, _ =>
      match arrayIx o 0x4000 8 1024, arrayIx o 0x6000 8 16 with
      | some c, _ => some (rdXltCtx s c)
      | _, some p => some (rdXltPar s p)
      | _, _ => if 0x80000 ≤ o ∧ o < 0xC0000 then rdWindow s ((o - 0x80000) / 0x40) ((o - 0x80000) % 0x40) else none

/-! ### Headbox and Beaters (11, 12) -/

/-- A plan slot's registers. -/
def rdPlan (s : State) (k j : Nat) : Word :=
  let p := planOf s k
  match j with
  | 0 => packFields [(0, 16, p.defn.collId.toNat), (16, 4, p.part), (20, 10, p.ctx), (32, 3, p.state.toNat), (40, 8, p.defn.round.toNat), (48, 12, p.queue)]
  | 1 => packFields [(0, 32, p.chunksDone), (32, 32, if p.state = 0 then 0 else planChunks p.defn)]
  | 2 => packFields [(0, 12, planRemoteWait p), (16, 12, planLocalWait p), (32, 32, planLongest s p)]
  | _ => packFields [(0, 32, p.resends), (32, 32, p.recomputes)]

def rdSelfTest (s : State) : Word := packFields [(1, 1, b2n s.btr.busy), (8, 8, s.btr.passed.toNat), (16, 16, s.btr.lastUs.toNat)]

def rdHeadbox (o : Nat) (s : State) : Option Word :=
  let h := s.hbx
  let b := s.btr
  match o with
  | 0x00 => some (packFields [(0, 5, plansRunning s), (16, 14, armedNow s), (32, 14, h.armedPeak)])
  | 0x08 => some (packFields [(0, 16, h.resends.toNat), (16, 16, h.stale.toNat), (32, 16, h.abortsSent.toNat), (48, 16, h.abortsRcvd.toNat)])
  | 0x10 => some (packFields [(0, 16, h.mismatch.toNat), (16, 16, h.duplicates.toNat), (32, 16, h.stepLimits.toNat), (48, 16, h.planRefused.toNat)])
  | 0x1000 => some (packFields (upTo 8 (fun k => (k, 1, b2n (beaterServes s k))) ++
      [(8, 8, b.licensed.toNat), (16, 8, b.failed.toNat), (24, 12, 288 * beatersServing s)]))
  | 0x1008 => some (packFields [(0, 16, b.wmTransient.toNat), (16, 16, b.plTransient.toNat), (32, 16, b.txWmTransient.toNat), (48, 16, b.lasting.toNat)])
  | 0x1010 => some (packFields [(0, 48, b.addGranules.toNat)])
  | 0x1018 => some (packFields [(0, 48, b.copyGranules.toNat)])
  | 0x1020 => some (packFields [(0, 16, b.nanOut.toNat), (16, 16, b.saturated.toNat), (32, 16, b.mxNanBlocks.toNat), (48, 16, b.scaleClamped.toNat)])
  | 0x1028 => some b.lastFail
  | 0x1030 => some (rdSelfTest s)
  | _ =>
    match arrayIx o 0x100 8 64, arrayIx o 0x1100 8 8 with
    | some k, _ => some (rdPlan s (k / 4) (k % 4))
    | _, some u => some (packFields [(0, 2, (beaterOf s u).state.toNat), (16, 48, (beaterOf s u).granules.toNat)])
    | _, _ => none

/-! ### The Vat (13) -/

/-- Repair map entries in use. -/
def repairsUsed (v : Vat) : Nat := b2n v.map0.valid + b2n v.map1.valid

def rdVat (o : Nat) (s : State) : Option Word :=
  let v := s.vat
  match o with
  | 0x00 => some (packFields [(0, 2, v.state.toNat), (2, 2, (freeSpares v).length), (4, 2, repairsUsed v)])
  | 0x08 => some (packFields [(0, 6, v.map0.logical.toNat), (6, 1, b2n v.map0.valid), (7, 1, b2n v.map0.spare),
      (8, 6, v.map1.logical.toNat), (14, 1, b2n v.map1.valid), (15, 1, b2n v.map1.spare), (16, 2, v.spareFailed.toNat)])
  | 0x10 => some (packFields [(0, 50, v.bankFail.toNat)])
  | 0x18 => some (packFields [(0, 32, v.corrected.toNat), (32, 16, v.uncorrectable.toNat), (48, 16, v.scrubPasses.toNat)])
  | 0x20 => some (packFields [(0, 23, v.eccLast.toNat)])
  | 0x28 => some (packFields [(1, 1, b2n v.mode), (2, 1, b2n v.busy), (3, 1, b2n v.passed), (16, 16, v.lastUs.toNat)])
  | 0x300 => some (packFields [(3, 22, v.winAddr.toNat)])
  | 0x308 => some 0
  | _ =>
    match arrayIx o 0x100 8 16, arrayIx o 0x200 8 10 with
    | some p, _ => some (packFields [(0, 9, (partRec s p).vatBase), (16, 9, (partRec s p).vatSize)])
    | _, some m => some (packFields [(0, 7, allowOf s m), (16, 32, (tabGet 0 v.conflicts m).toNat), (48, 16, (tabGet 0 v.violations m).toNat)])
    | _, _ => none

/-! ### Partitions and interrupts (14) -/

/-- The registers of partition p. -/
def rdPart (s : State) (p o : Nat) : Option Word :=
  let x := partOf s p
  let r := partRec s p
  match o with
  | 0x00 => some (packFields [(0, 2, x.state.toNat), (4, 4, x.step.toNat), (8, 8, x.lastCode.toNat), (16, 16, x.resets.toNat)])
  | 0x08 => some (packFields [(0, 8, r.portWeight.toNat), (8, 8, r.beaterWeight.toNat), (16, 8, r.trackerWeight.toNat),
      (32, 10, r.minShare), (48, 16, r.key.toNat)])
  | 0x10 => some (packFields [(0, 18, trkQuotaOf s p), (18, 18, trkHeld s p), (48, 16, x.waits.toNat)])
  | 0x18 => some (packFields [(0, 48, x.localFlits.toNat)])
  | 0x20 => some (packFields [(0, 48, x.granules.toNat)])
  | 0x28 => some (packFields [(0, 4, x.faultVec.toNat), (4, 4, x.invVec.toNat), (8, 4, x.errorVec.toNat), (12, 4, x.resetVec.toNat)])
  | 0x30 => some (packFields [(0, 32, x.sent.toNat), (32, 16, x.discarded.toNat), (48, 16, x.drops.toNat)])
  | _ => none

def rdVecCtrl (v : Vector) : Word :=
  packFields [(0, 16, v.tag.toNat), (16, 8, v.thresh.toNat), (24, 12, v.timeUs.toNat), (36, 1, b2n v.mask)]

/-- The registers of vector v of partition p. -/
def rdVector (s : State) (p v o : Nat) : Option Word :=
  let x := vecOf s p v
  match o with
  | 0x00 => some x.addr
  | 0x08 => some (rdVecCtrl x)
  | 0x10 => some (packFields [(0, 32, x.pending.toNat), (32, 1, b2n (msgHeld s p v)), (40, 24, x.events.toNat)])
  | _ => none

def rdPartitions (o : Nat) (s : State) : Option Word :=
  if o = 0 then
    some (packFields [(1, 1, b2n s.par.engineBusy), (8, 4, s.par.lastCode.toNat), (16, 16, s.par.engineResets.toNat)])
  else if 0x100 ≤ o ∧ o < 0x500 then rdPart s ((o - 0x100) / 0x40) ((o - 0x100) % 0x40)
  else if 0x10000 ≤ o ∧ o < 0x12000 then rdVector s ((o - 0x10000) / 0x200) ((o - 0x10000) / 0x20 % 16) ((o - 0x10000) % 0x20)
  else none

/-! ### Errors (15) -/

def rdErrCtrl (e : Err) : Word := packFields [(0, 1, b2n e.hangScan), (3, 1, b2n e.injectEnable), (16, 16, e.faultStallMs.toNat)]

def rdErrors (o : Nat) (s : State) : Option Word :=
  let e := s.err
  match o with
  | 0x00 => some (rdErrCtrl e)
  | 0x08 => some (packFields [(0, 2, e.drainState.toNat), (2, 1, b2n e.suspect), (3, 4, e.suspectCause.toNat), (7, 1, b2n e.banksMarked),
      (32, 32, e.suspectSeq.toNat)])
  | 0x10 => some (packFields [(0, 32, e.nextSeq.toNat), (32, 16, e.overwritten.toNat)])
  | 0x18 => some (packFields [(0, 16, e.scans.toNat), (16, 16, e.positive.toNat), (32, 16, e.declared.toNat), (48, 16, e.faultStalls.toNat)])
  | 0x20 =>
    let last : Nat × Nat := match e.captures.getLast? with | some c => (c.first, c.units) | none => (0, 0)
    some (packFields [(0, 32, e.capSeq.toNat), (32, 4, last.1), (36, 4, last.2), (40, 16, e.capOverwritten.toNat)])
  | 0x28 => some (packFields [(0, 16, e.restarts.toNat), (16, 1, b2n e.stewardHeld), (17, 1, b2n e.restarting), (32, 32, e.lastRestart.toNat)])
  | 0x30 => some (packFields [(33, 1, b2n e.inject.isSome), (48, 16, e.injected.toNat)])
  | 0x38 => some (packFields [(0, 8, e.takeLanes.toNat), (8, 8, e.takeTwins.toNat), (16, 8, e.takeDetours.toNat),
      (24, 4, ((List.range 8).filter (fun b => (beaterOf s b).state == 2)).length), (28, 2, repairsUsed s.vat),
      (32, 16, e.takeTrackers.toNat), (48, 16, e.takeCache.toNat)])
  | _ =>
    match arrayIx o 0x108 8 14, arrayIx o 0x10000 8 8192 with
    | some k, _ =>
      let c := tabGet {} e.counts (k + 1)
      some (packFields [(0, 32, c.events.toNat), (32, 3, c.maxSev.toNat), (40, 24, c.records.toNat)])
    | _, some k => some (BitVec.ofNat 64 (leNat (Memory.readBytes s.vat.mem (logBase + 8 * k) 8)))
    | _, _ => none

/-! ### Security and steward (16) -/

/-- Movers whose key registers hold a key (16 R443). -/
def keysHeld (s : State) : Nat :=
  ((s.cq.runs.filter (fun r => r.key.isSome)).flatMap (fun r => r.chunks.map (·.mover) ++ r.mover.toList)).eraseDups.length

def rdSecurity (o : Nat) (s : State) : Option Word :=
  let c := s.sec
  match o with
  | 0x000 => some (packFields [(0, 5, c.rot.length), (8, 6, c.policy.toNat), (14, 1, b2n c.policySet), (15, 6, keysHeld s)])
  | 0x008 => some (packFields [(0, 32, c.measIndex.toNat), (32, 11, c.planTable.length), (48, 16, c.measFailed.toNat)])
  | 0x010 => some (packFields [(0, 16, c.admitted.toNat), (16, 16, c.admitFenced.toNat), (32, 16, c.rotRepeats.toNat), (48, 16, c.rotLasting.toNat)])
  | 0x018 => some (packFields [(0, 16, c.keyReleases.toNat), (16, 16, c.keyRefused.toNat), (32, 16, c.tagFails.toNat)])
  | 0x100 => some (packFields [(0, 32, if s.fur.fwStarted then s.fur.image.fwVersion.toNat else 0), (32, 1, b2n (!c.reports.isEmpty)),
      (33, 1, b2n c.longFrom.isSome), (40, 9, c.reports.length)])
  | 0x108 => some (packFields [(0, 32, c.mgmtEpoch.toNat), (32, 16, c.lost.toNat)])
  | 0x110 => some (packFields [(0, 16, c.commands.toNat), (16, 16, c.pecErrors.toNat), (32, 16, c.busResets.toNat), (48, 16, c.refused.toNat)])
  | 0x200 => some 0
  | 0x208 => some (packFields [(0, 1, b2n c.mboxBusy), (8, 8, c.mboxStatus.toNat), (16, 8, c.mboxLen.toNat), (32, 32, c.mboxSeq.toNat)])
  | _ => (arrayIx o 0x300 8 32).map (fun i => tabGet 0 c.mboxData i)

/-! ### The whole window (17 R457) -/

/-- What an offset reads for privileged software; `none` where no table assigns it. -/
def readReg (o : Nat) (s : State) : Option Word :=
  if o % 8 ≠ 0 then none
  else if o < 0x10000 then rdIdentity o s
  else if o < 0x20000 then rdPower (o - 0x10000) s
  else if o < 0x30000 then rdFurnish (o - 0x20000) s
  else if o < 0x100000 then none
  else if o < 0x1C0000 then rdPort (o % 0x10000) (portOf s ((o - 0x100000) / 0x10000))
  else if o < 0x200000 then none
  else if o < 0x300000 then rdRouting (o - 0x200000) s
  else if o < 0x400000 then rdTrackers (o - 0x300000) s
  else if o < 0x440000 then rdDoorbell (o - 0x400000) s
  else if o < 0x500000 then none
  else if o < 0x800000 then rdContexts (o - 0x500000) s
  else if o < 0x900000 then rdXlt (o - 0x800000) s
  else if o < 0xA00000 then rdHeadbox (o - 0x900000) s
  else if o < 0xB00000 then rdVat (o - 0xA00000) s
  else if o < 0xC00000 then rdPartitions (o - 0xB00000) s
  else if o < 0xD00000 then rdErrors (o - 0xC00000) s
  else if o < 0xE00000 then rdSecurity (o - 0xD00000) s
  else none

end Sys2Proof.Machine
end

