-- ==== Sys2Proof/Machine/Access.lean ====
section
/-! DEFINITION. Reads of the register window: who may read what, the answers of the command port, and
ID_ACCESS_ERR (02 R43, R45; 13 R365, R377; 17 R458 to R464). -/

namespace Sys2Proof.Machine

/-! ### ID_ACCESS_ERR (17 R460) -/

/-- A refused access, or one to an unassigned offset. -/
def akRefused : BitVec 2 := 1
def akUnassigned : BitVec 2 := 2

/-- Record an access answered 01 or 10 (17 R460). -/
def recordErr (off par : Nat) (kind : BitVec 2) (wr : Bool) (s : State) : State :=
  { s with access :=
    { count := satInc s.access.count, offset := BitVec.ofNat 24 off, par := BitVec.ofNat 5 par, kind := kind, wasWrite := wr } }

/-- An access is refused (17 R460). -/
def refuseAccess (off par : Nat) (wr : Bool) (s : State) : BitVec 2 × State :=
  (rspRefused, recordErr off par akRefused wr s)

/-- An access to an offset that no table assigns (17 R459). -/
def unmappedAccess (off par : Nat) (wr : Bool) (s : State) : BitVec 2 × State :=
  (rspUnmapped, recordErr off par akUnassigned wr s)

/-- CMD_REQ_PAR names no requester (02 R43). -/
def noRequester (par : Nat) : Bool := decide (16 ≤ par) && par != parPriv

/-- The identity and start-up status regions (02 R45). -/
def earlyRegion (off : Nat) : Bool := decide (off < 0x10000) || (decide (0x20000 ≤ off) && decide (off < 0x30000))

/-! ### What a partition requester reads (17 R464) -/

/-- The owner reads a value; any other partition is refused. -/
def ownRead (owner : Option PartNo) (p : Nat) (v : Word) : Option Word :=
  match owner with
  | some q => if q.val = p then some v else none
  | none => none

/-- Contexts, queues and counters (09). -/
def viewContexts (p o : Nat) (v : Word) (s : State) : Option Word :=
  if o = 0x200 ∨ o = 0x208 then some v
  else if o < 0x200 then (if o / 0x10 = p then some v else none)
  else if o < 0x20000 then ownRead (ctxPart s ((o - 0x10000) / 8)) p v
  else if o < 0x100000 then ownRead (queuePart s ((o - 0x20000) / 0x40)) p v
  else ownRead (cntPart s ((o % 0x80000) / 8)) p v

/-- The sticky flags of a partition's own contexts (10 R298). -/
def viewSticky (p w : Nat) (v : Word) (s : State) : Word :=
  packFields (upTo 64 (fun b => (b, 1,
    b2n (v.getLsbD b && (match ctxPart s (64 * w + b) with | some q => q.val == p | none => false)))))

/-- Translation (10). -/
def viewXlt (p o : Nat) (v : Word) (s : State) : Option Word :=
  if o < 0x100 then some v
  else if o < 0x1000 then (if (o - 0x100) / 0x20 = p then some v else none)
  else if o < 0x2000 then (if (o - 0x1000) / 0x20 = p then some v else none)
  else if o < 0x4000 then some (viewSticky p ((o - 0x2000) / 8) v s)
  else if o < 0x6000 then ownRead (ctxPart s ((o - 0x4000) / 8)) p v
  else if o < 0x80000 then (if (o - 0x6000) / 8 = p then some v else none)
  else ownRead (winPart s ((o - 0x80000) / 0x40)) p v

/-- Headbox and Beaters (11, 12). -/
def viewHeadbox (p o : Nat) (v : Word) (s : State) : Word :=
  if 0x100 ≤ o ∧ o < 0x300 then
    let x := planOf s ((o - 0x100) / 0x20)
    if x.state ≠ 0 ∧ x.part.val = p then v else 0
  else if o = 0x1028 then (if fld v 8 4 = p then v else 0)
  else v

/-- Partitions and interrupts (14). -/
def viewPartitions (p o : Nat) (v : Word) : Word :=
  if 0x100 ≤ o ∧ o < 0x500 then (if (o - 0x100) / 0x40 = p then v else 0)
  else if 0x10000 ≤ o then (if (o - 0x10000) / 0x200 = p then v else 0)
  else 0

/-- What partition p reads where privileged software reads v; `none` is a refusal (17 R464). -/
def partView (p o : Nat) (v : Word) (s : State) : Option Word :=
  if o < 0x400000 then some v
  else if o < 0x500000 then ownRead (queuePart s ((o - 0x400000) / 0x40)) p v
  else if o < 0x800000 then viewContexts p (o - 0x500000) v s
  else if o < 0x900000 then viewXlt p (o - 0x800000) v s
  else if o < 0xA00000 then some (viewHeadbox p (o - 0x900000) v s)
  else if o < 0xB00000 then some v
  else if o < 0xC00000 then some (viewPartitions p (o - 0xB00000) v)
  else some 0

/-! ### A read -/

/-- Offset of VAT_WIN_DATA. -/
def offWinData : Nat := 0xA00308

/-- A read of VAT_WIN_DATA; a blocked one is a violation and leaves the address (13 R365, R377). -/
def readWindow (par : Nat) (s : State) : BitVec 2 × Word × State :=
  if winAllowed par false s then
    let (v, s) := winAccess false 0 0xFF s
    (rspDone, v, s)
  else
    let (e, s) := refuseAccess offWinData par false s
    (e, 0, vatViolation (if par = parPriv then 8 else 7) (if par < 16 then some par else none) (winAddrOf s) s)

/-- A read at an offset: the answer, the data and the state.  `side` marks the sideband and the mailbox,
which R45 does not limit. -/
def readAccess (side : Bool) (par off : Nat) (s : State) : BitVec 2 × Word × State :=
  let no (x : BitVec 2 × State) : BitVec 2 × Word × State := (x.1, 0, x.2)
  if noRequester par then no (refuseAccess off par false s)
  else if !side && !s.pins.ready && !earlyRegion off then no (refuseAccess off par false s)
  else match readReg off s with
    | none => no (unmappedAccess off par false s)
    | some v =>
      if off = offWinData then readWindow par s
      else if par = parPriv then (rspDone, v, s)
      else match partView par off v s with
        | some w => (rspDone, w, s)
        | none => no (refuseAccess off par false s)

end Sys2Proof.Machine
end

