-- ==== Sys2Proof/Machine/Mgmt.lean ====
section
/-! DEFINITION. What the steward's commands share, the commands of groups 0 and 5, long commands, and the
steward mailbox (04 R105, R106, R112 to R115; 16 R433, R447 to R456). -/

namespace Sys2Proof.Machine

/-- A command's answer: STATUS, response payload, and the state it leaves. -/
abbrev Answer := Byte × List Byte × State

/-! ### Which commands may run (16 R433, R449, R450) -/

/-- The policy group of a command code (16 R449). -/
def groupOf (code : Byte) : Option Nat :=
  [(0x01, 0), (0x02, 0), (0x03, 0), (0x04, 2), (0x05, 1), (0x06, 1), (0x07, 0), (0x08, 0), (0x09, 1), (0x0A, 3), (0x0B, 3),
   (0x0C, 2), (0x0D, 2), (0x0E, 0), (0x10, 4), (0x11, 4), (0x20, 0), (0x21, 5), (0x22, 5), (0x23, 5), (0x24, 0)].lookup code.toNat

/-- The root of trust's policy allows a group (16 R433). -/
def policyAllows (s : State) (g : Nat) : Bool := g == 0 || s.sec.policy.getLsbD g

/-- No firmware has been started, or the steward stays in its boot stage (04 R115, 15 R420). -/
def bootStage (s : State) : Bool := !s.fur.fwStarted || s.err.stewardHeld

/-- The recovery set (16 R450). -/
def bootAllows (code : Byte) : Bool := [0x01, 0x02, 0x03, 0x24, 0x21, 0x22, 0x23].contains code.toNat

/-- Start-up is held, or stopped, with firmware started (04 R112, R113). -/
def inHold (s : State) : Bool := s.fur.fwStarted && s.fur.outcome != 0

/-- The commands that a held block runs: what reads, WRITE_REG, tests, staging, step and resume (04 R113). -/
def holdAllows (code : Byte) : Bool :=
  match groupOf code with
  | some g => g == 0 || g == 4 || g == 5 || code == 0x04
  | none => false

/-- STATUS of a command before its own rules: OK lets it go on. -/
def gate (code : Byte) (s : State) : Byte :=
  match groupOf code with
  | none => stMalformed
  | some g =>
    if !policyAllows s g then stRights
    else if bootStage s && !bootAllows code then stStateRefused
    else if inHold s && !holdAllows code then stStateRefused
    else stOk

/-- A command that takes effect and changes any state advances MGMT_EPOCH (16 R456). -/
def withEpoch (f : State → Answer) (s : State) : Answer :=
  let (st, pl, t) := f s
  if st = stOk ∧ t ≠ s then (st, pl, bumpEpoch t) else (st, pl, t)

/-! ### Long commands (16 R450, R451) -/

/-- OP_STATE of a source: the mailbox, or the sideband. -/
def opOf (mbox : Bool) (s : State) : OpState := if mbox then s.sec.opMbox else s.sec.opSb

def setOp (mbox : Bool) (o : OpState) (s : State) : State :=
  { s with sec := if mbox then { s.sec with opMbox := o } else { s.sec with opSb := o } }

/-- A long command takes effect. -/
def beginOp (mbox : Bool) (code : Byte) (arg : BitVec 16) (s : State) : State :=
  let s := setOp mbox { seq := (opOf mbox s).seq + 1, cmd := code, state := 1, status := 0, res := 0 } s
  { s with sec := { s.sec with longFrom := some mbox, longCmd := code, longArg := arg } }

/-- Start a long command: refused while another runs, or by its own rules. -/
def startLong (mbox : Bool) (code : Byte) (arg : BitVec 16) (f : State → Byte × State) (s : State) : Answer :=
  if s.sec.longFrom.isSome then (stStateRefused, [], s)
  else
    let (st, t) := f s
    if st = stOk then (stOk, [], beginOp mbox code arg t) else (st, [], t)

/-- A long command's result, once its work is done: STATUS and RESULT. -/
def longResult (s : State) : Option (Byte × Byte) :=
  let arg := s.sec.longArg.toNat
  let when_ (b : Bool) : Option (Byte × Byte) := if b then some (stOk, 0) else none
  match s.sec.longCmd.toNat with
  | 0x06 =>
    if orderRuns s then none
    else if s.power.cur.toNat = arg ∨ (arg = 1 ∧ s.power.cur = 0) then some (stOk, 0)
    else some (stStateRefused, 0)
  | 0x09 =>
    let st := (portOf s arg).state
    when_ (st != psDetect && st != psTraining && st != psAdmission)
  | 0x0A =>
    (match arg % 256 with
     | 1 => when_ ((partOf s (arg / 256)).state != partResetting)
     | 2 => when_ (!s.par.engineBusy)
     | 3 => when_ (!s.err.restarting)
     | _ => when_ true)
  | 0x0B => when_ (s.err.drainState == 2)
  | 0x0D => when_ (!s.route.digestBusy)
  | 0x11 =>
    (match arg with
     | 1 => when_ (!s.vat.busy)
     | 2 => when_ (!s.vat.busy)
     | 3 => when_ (!s.btr.busy)
     | _ => when_ true)
  | 0x23 => if arg / 256 = 0 then none else some (stOk, BitVec.ofNat 8 (arg / 256))
  | _ => when_ true

/-- LONG_COMMAND_COMPLETE (16 R451). -/
def doLongComplete (s : State) : State :=
  match s.sec.longFrom, longResult s with
  | some mbox, some (st, r) =>
    let s := setOp mbox { opOf mbox s with state := 2, status := st, res := r } s
    { s with sec := { s.sec with longFrom := none } }
  | _, _ => s

/-! ### Commands of group 0 (16 R449) -/

/-- IDENTIFY. -/
def mgIdentify (s : State) : List Byte :=
  leBytes 2 0x0201 ++ leBytes 4 (selfEp s) ++ leBytes 16 s.fur.image.machineId.toNat ++ leBytes 8 (furStatus s).toNat

/-- GET_EPOCH; UPTIME_MS since cold reset. -/
def mgEpoch (s : State) : List Byte :=
  leBytes 4 s.sec.mgmtEpoch.toNat ++ leBytes 2 s.power.ceilEpoch.toNat ++ leBytes 4 s.route.rankGen.toNat ++
    leBytes 4 s.err.nextSeq.toNat ++ leBytes 8 (s.nowUs / 1000)

/-- Read registers one after another as requester 0x1F, up to the first refusal: whether all were read,
their bytes, and the state. -/
def readRegs : Nat → Nat → State → Bool × List Byte × State
  | 0, _, s => (true, [], s)
  | n + 1, off, s =>
    let (e, v, t) := readAccess true parPriv off s
    if e ≠ rspDone then (false, [], t)
    else
      let (ok, bs, u) := readRegs n (off + 8) t
      (ok, leBytes 8 v.toNat ++ bs, u)

/-- READ_REG; the boot stage reads only the regions of R45.  A refused one moves no window address. -/
def mgReadReg (off count : Nat) (s : State) : Answer :=
  if count = 0 ∨ 30 < count then (stMalformed, [], s)
  else if bootStage s && !(List.range count).all (fun k => earlyRegion (off + 8 * k)) then (stStateRefused, [], s)
  else
    let (ok, bs, t) := readRegs count off s
    if ok then (stOk, bs, t) else (stRights, [], { t with vat := { t.vat with winAddr := s.vat.winAddr } })

/-- TELEMETRY: the 12 PWR_TEL registers. -/
def mgTelemetry (s : State) : List Byte := (List.range 12).flatMap (fun k => leBytes 8 (rdTel s k).toNat)

/-- PORT_STATUS. -/
def mgPortStatus (n : Nat) (s : State) : Answer :=
  if 12 ≤ n then (stMalformed, [], s)
  else
    let p := portOf s n
    (stOk, [rdPortState p, rdDeckle p, rdLaneState p, rdPortLink p].flatMap (fun w => leBytes 8 w.toNat), s)

/-- OP_STATE of the asking source (16 R451). -/
def mgOpState (mbox : Bool) (s : State) : List Byte :=
  let o := opOf mbox s
  leBytes 4 o.seq.toNat ++ [o.cmd, o.state, o.status, o.res]

/-! ### NVM (04 R92, R105, R106; 16 R449) -/

/-- Bytes of NVM that the block uses (04 R92). -/
def nvmEnd : Nat := 0x3000000

/-- NVM_READ. -/
def mgNvmRead (off len : Nat) (s : State) : Answer :=
  if len = 0 ∨ 240 < len ∨ nvmEnd < off + len then (stMalformed, [], s) else (stOk, nvmBytes s off len, s)

/-- An offset lies in the furnish slot in use, or in the firmware slot that its image names (04 R105). -/
def slotInUse (s : State) (off : Nat) : Bool :=
  let f := slotBase s.fur.activeSlot
  let w := fwBase s.fur.image.fwSlot
  s.fur.fwStarted && ((decide (f ≤ off) && decide (off < f + 0x1000000)) || (decide (w ≤ off) && decide (off < w + 0x800000)))

/-- Phase 1 runs (04 R105). -/
def imageRunning (s : State) : Bool := s.fur.phase == 1 && s.fur.outcome == 0

/-- A staging write at an offset is refused (04 R105). -/
def stagingRefused (s : State) (off : Nat) : Bool := imageRunning s || slotInUse s off

/-- Erase bytes of NVM. -/
def eraseNvm (off n : Nat) (s : State) : State :=
  modFur (fun f => { f with nvm := f.nvm.filter (fun e => decide (e.1 < off) || decide (off + n ≤ e.1)) }) s

/-- Program bytes of NVM: a bit once 0 stays 0 until it is erased. -/
def programNvm (off : Nat) (d : List Byte) (s : State) : State :=
  modFur (fun f => { f with nvm := (d.zipIdx off).foldl (fun t x => tabMod 0xFF x.2 (· &&& x.1) t) f.nvm }) s

/-- NVM_ERASE. -/
def mgNvmErase (mbox : Bool) (off : Nat) (size : Byte) (s : State) : Answer :=
  let n := if size = 0 then 0x1000 else 0x10000
  if 2 ≤ size.toNat ∨ off % n ≠ 0 ∨ nvmEnd < off + n then (stMalformed, [], s)
  else startLong mbox 0x21 0 (fun s => if stagingRefused s off then (stStateRefused, s) else (stOk, eraseNvm off n s)) s

/-- NVM_WRITE. -/
def mgNvmWrite (mbox : Bool) (off : Nat) (d : List Byte) (s : State) : Answer :=
  if d.length = 0 ∨ 240 < d.length ∨ off / 256 ≠ (off + d.length - 1) / 256 ∨ nvmEnd < off + d.length then (stMalformed, [], s)
  else startLong mbox 0x22 0 (fun s => if stagingRefused s off then (stStateRefused, s) else (stOk, programNvm off d s)) s

/-- The checks of R95 on a staged slot start; EMPTY and INVALID are known at once (04 R106). -/
def checkStaged (b : Bool) (s : State) : State :=
  match formVerdict s b with
  | some v => { s with sec := { s.sec with longArg := BitVec.ofNat 16 (b2n b + 256 * v.toNat) } }
  | none => rotSend rotVerifyImage (verifyBody s b) (.verifyImage b true) s

/-- NVM_CHECK. -/
def mgNvmCheck (mbox : Bool) (slot : Byte) (s : State) : Answer :=
  if 2 ≤ slot.toNat then (stMalformed, [], s)
  else
    let (st, pl, t) := startLong mbox 0x23 (slot.setWidth 16) (fun s => (stOk, s)) s
    (st, pl, if st = stOk then checkStaged (slot == 1) t else t)

/-! ### The mailbox (16 R454) -/

/-- Codes that the mailbox takes. -/
def mboxTakes (code : Byte) : Bool := (groupOf code == some 0 || groupOf code == some 5) && code != 0x0E

/-- A command of groups 0 and 5 from its payload (16 R449). -/
def runPayload (code : Byte) (p : List Byte) (s : State) : Answer :=
  let fixed (n : Nat) (a : Answer) : Answer := if p.length = n then a else (stMalformed, [], s)
  match code.toNat with
  | 0x01 => fixed 0 (stOk, mgIdentify s, s)
  | 0x02 => fixed 0 (stOk, mgEpoch s, s)
  | 0x03 => fixed 5 (mgReadReg (numAt p 0 4) (numAt p 4 1) s)
  | 0x07 => fixed 0 (stOk, mgTelemetry s, s)
  | 0x08 => fixed 1 (mgPortStatus (numAt p 0 1) s)
  | 0x20 => fixed 5 (mgNvmRead (numAt p 0 4) (numAt p 4 1) s)
  | 0x21 => fixed 5 (mgNvmErase true (numAt p 0 4) (p.getD 4 0) s)
  | 0x22 => if p.length < 5 then (stMalformed, [], s) else mgNvmWrite true (numAt p 0 4) (p.drop 4) s
  | 0x23 => fixed 1 (mgNvmCheck true (p.getD 0 0) s)
  | _ => fixed 0 (stOk, mgOpState true s, s)

/-- What a mailbox command answers. -/
def runMailbox (code : Byte) (p : List Byte) (s : State) : Answer :=
  if !mboxTakes code then (stRights, [], s)
  else if s.err.restarting then (stStateRefused, [], s)
  else if gate code s ≠ stOk then (gate code s, [], s)
  else withEpoch (runPayload code p) s

/-- The bytes of STW_MBOX_DATA. -/
def mboxBytes (s : State) : List Byte := (List.range 32).flatMap (fun i => leBytes 8 (tabGet 0 s.sec.mboxData i).toNat)

/-- The response overwrites the payload (16 R447, R454). -/
def mboxRespond (a : Answer) : State :=
  let (st, pl, s) := a
  let bytes := [st, 0] ++ leBytes 4 s.sec.mgmtEpoch.toNat ++ pl
  let all := bytes ++ (mboxBytes s).drop bytes.length
  { s with sec := { s.sec with
    mboxData := tabOf 0 (upTo 32 (wordOf all))
    mboxStatus := st
    mboxLen := BitVec.ofNat 8 bytes.length
    mboxSeq := s.sec.mboxSeq + 1 } }

/-- STW_MBOX_CMD: CODE and LENGTH (16 R454). -/
def wrMboxCmd : RegFun := fun par v be s =>
  if par != parPriv || s.sec.mboxBusy then none
  else if !fieldEnabled be 0 8 then some s
  else
    let n := if be.getLsbD 1 then fld v 8 8 else 0
    some (mboxRespond (runMailbox (BitVec.ofNat 8 (fld v 0 8)) ((mboxBytes s).take n) s))

/-- STW_MBOX_DATA. -/
def wrMboxData (i : Nat) : RegFun := fun par v be s =>
  if par != parPriv then none
  else some { s with sec := { s.sec with mboxData := tabMod 0 i (fun w => mergeBytes w v be) s.sec.mboxData } }

end Sys2Proof.Machine
end

