-- ==== Sys2Proof/Machine/Writes.lean ====
section
/-! DEFINITION. Writes of the register window: every register's own write, and who may write what (00
R467; 02 R43, R45; 14 R381; 17 R458 to R464). -/

namespace Sys2Proof.Machine

/-- Only privileged software may write. -/
def privOnly (f : RegFun) : RegFun := fun par v be s => if par = parPriv then f par v be s else none

/-- A register without a field that a write changes. -/
def wrRO : RegFun := fun _ _ _ s => some s

/-- Owner or privileged software. -/
def ownedRO (owner : State → Option PartNo) : RegFun := fun par _ _ s => if ownerOk (owner s) par then some s else none

/-! ### Power (03) -/

/-- PWR_STATE: IDLE_DELAY and POLICY. -/
def wrPwrState : RegFun := fun _ v be s =>
  let r := mergeBytes (rdPwrState s.power) v be
  let s := { s with power := { s.power with idleDelay := BitVec.ofNat 16 (fld r 16 16) } }
  some (if be.getLsbD 0 then setPolicyBit (bitOf r.toNat 3) s else s)

/-- PWR_CEIL_HOST. -/
def wrCeilHost : RegFun := fun _ v be s =>
  some (orderHost (BitVec.ofNat 12 (fld (mergeBytes (s.power.hostCeil.setWidth 64) v be) 0 12)) s)

/-! ### Ports (05, 06) -/

/-- PORT_PAUSE: PAUSE_LIMIT. -/
def wrPause (n : Nat) : RegFun := fun _ v be s =>
  some (modPort n (fun p => { p with pauseLimit := BitVec.ofNat 13 (fld (mergeBytes (rdPause p) v be) 0 13) }) s)

/-- PORT_LOOP_CTRL: an access error outside TEST. -/
def wrLoopCtrl (n : Nat) : RegFun := fun _ v be s =>
  let r := mergeBytes (rdLoopCtrl (portOf s n)) v be
  setLoopCtrl n (BitVec.ofNat 2 (fld r 0 2)) (bitOf r.toNat 2) (BitVec.ofNat 9 (fld r 3 9)) s

/-- PORT_RETRAIN: PASS_NOW, refused under R144, then RETRAIN. -/
def wrRetrain (n : Nat) : RegFun := fun _ v be s =>
  if !be.getLsbD 0 then some s
  else
    let go (s : State) : State := if bitOf v.toNat 0 then orderRetrain n (bitOf v.toNat 1) s else s
    if bitOf v.toNat 2 then (passNow n s).map go else some (go s)

/-! ### Routing (07) -/

/-- RTE_CTRL: LOCAL_WEIGHT. -/
def wrRteCtrl : RegFun := fun _ v be s =>
  some (countRoute (fun r => { r with localWeight := BitVec.ofNat 3 (fld (mergeBytes (r.localWeight.setWidth 64) v be) 0 3) }) s)

/-- RTE_RANK_COMMIT: refused while DIGEST_BUSY (07 R191). -/
def wrRankCommit : RegFun := fun _ v be s =>
  if s.route.digestBusy then none
  else some (if be.getLsbD 0 && bitOf v.toNat 0 then commitRanks s else s)

/-- Two entries of the rank window: refused while DIGEST_BUSY, and whole when an entry written is one that
R188 refuses (07 R188, R191). -/
def wrRank (w : Nat) : RegFun := fun _ v be s =>
  if s.route.digestBusy then none
  else
    let r := mergeBytes (rdRank s w) v be
    let lo := BitVec.ofNat 32 (fld r 0 32)
    let hi := BitVec.ofNat 32 (fld r 32 32)
    let t := writeRank (2 * w + 1) hi (writeRank (2 * w) lo s)
    if (fieldTouched be 0 32 && rankRefused t (2 * w) lo) || (fieldTouched be 32 32 && rankRefused t (2 * w + 1) hi) then none
    else some t

/-! ### Trackers, queues, translation (08, 09, 10) -/

/-- TRK_CTRL. -/
def wrTrkCtrl : RegFun := fun _ v be s =>
  let r := mergeBytes (packFields [(0, 16, s.trk.respTimeout.toNat), (16, 16, s.trk.atomicRetain.toNat)]) v be
  some { s with trk := { s.trk with respTimeout := BitVec.ofNat 16 (fld r 0 16), atomicRetain := BitVec.ofNat 16 (fld r 16 16) } }

/-- Q_IRQ: VECTOR (14). -/
def wrQIrq (k : QueueNo) : RegFun := fun par v be s =>
  if !ownerOk (queuePart s k) par then none
  else some (modQueue k (fun q => { q with vector := if be.getLsbD 0 then BitVec.ofNat 4 (fld v 0 4) else q.vector }) s)

/-- XLT_CTRL: XLT_TIMEOUT. -/
def wrXltCtrl : RegFun := fun _ v be s =>
  some { s with xlt := { s.xlt with timeout := BitVec.ofNat 14 (fld (mergeBytes (s.xlt.timeout.setWidth 64) v be) 0 14) } }

/-! ### The Vat (13) -/

/-- VAT_MARCH: MODE, and RUN under R372 and R374. -/
def wrVatMarch : RegFun := fun _ v be s =>
  if !s.fur.directed then none
  else if !be.getLsbD 0 then some s
  else
    let mode := bitOf v.toNat 1
    if bitOf v.toNat 0 && !marchAllowed mode s then none
    else
      let s := { s with vat := { s.vat with mode := mode } }
      some (if bitOf v.toNat 0 then startMarch mode s else s)

/-- VAT_WIN_ADDR. -/
def wrWinAddr : RegFun := fun _ v be s =>
  let r := mergeBytes (packFields [(3, 22, s.vat.winAddr.toNat)]) v be
  some { s with vat := { s.vat with winAddr := BitVec.ofNat 22 (fld r 3 22) } }

/-! ### Partitions and interrupts (14) -/

def partNo (p : Nat) : PartNo := ⟨p % 16, Nat.mod_lt _ (by decide)⟩

/-- PAR_CTRL: ENGINE_RESET (14 R400). -/
def wrParCtrl : RegFun := fun _ v be s => some (if be.getLsbD 0 && bitOf v.toNat 0 then (orderEngineReset s).2 else s)

/-- PAR_STATE: RESET (14 R398). -/
def wrParState (p : PartNo) : RegFun := fun _ v be s => some (if be.getLsbD 0 && bitOf v.toNat 2 then (orderPartReset p s).2 else s)

/-- PAR_IRQ_MAP. -/
def wrIrqMap (p : PartNo) : RegFun := fun par v be s =>
  if !ownerOk (some p) par then none
  else some (modPart p (fun x =>
    let old := packFields [(0, 4, x.faultVec.toNat), (4, 4, x.invVec.toNat), (8, 4, x.errorVec.toNat), (12, 4, x.resetVec.toNat)]
    let r := mergeBytes old v be
    { x with
      faultVec := BitVec.ofNat 4 (fld r 0 4), invVec := BitVec.ofNat 4 (fld r 4 4)
      errorVec := BitVec.ofNat 4 (fld r 8 4), resetVec := BitVec.ofNat 4 (fld r 12 4) }) s)

/-- IRQ_VEC_ADDR: a message that may now be made is (14 R383, R386). -/
def wrVecAddr (p v : PartNo) : RegFun := fun _ x be s =>
  some (tryMessage p v (modVec p v (fun t => { t with addr := mergeBytes t.addr x be }) s))

/-- IRQ_VEC_CTRL: TAG is written by privileged software only; a message that may now be made is (14 R383). -/
def wrVecCtrl (p v : PartNo) : RegFun := fun par x be s =>
  if !ownerOk (some p) par || (par != parPriv && fieldTouched be 0 16) then none
  else some (tryMessage p v (modVec p v (fun t =>
    let r := mergeBytes (rdVecCtrl t) x be
    { t with
      tag := BitVec.ofNat 16 (fld r 0 16), thresh := BitVec.ofNat 8 (fld r 16 8)
      timeUs := BitVec.ofNat 12 (fld r 24 12), mask := bitOf r.toNat 36 }) s))

/-- The write of MASK alone that a partition out of service may make (14 R381). -/
def writeMask (p v : PartNo) (x : Word) (s : State) : State :=
  tryMessage p v (modVec p v (fun t => { t with mask := bitOf x.toNat 36 }) s)

/-! ### Errors (15) -/

/-- Byte 0 of ERR_CTRL is enabled and INJECT_ENABLE would change: the only RWL field of the map (00 R467). -/
def rwlChange (off : Nat) (v : Word) (be : BitVec 8) (s : State) : Bool :=
  off == 0xC00000 && be.getLsbD 0 && bitOf v.toNat 3 != s.err.injectEnable

/-- A write under R114: it counts, marks the start and is measured (16 R437, kind 3). -/
def override (off : Nat) (v : Word) (s : State) : State :=
  measure measOverride 0xFF 0xFFFF (leBytes 4 off ++ leBytes 8 v.toNat) [] none
    (modFur (fun f => { f with overrides := satInc f.overrides, overridden := true }) s)

/-- ERR_CTRL. -/
def wrErrCtrl : RegFun := fun _ v be s =>
  let change := rwlChange 0xC00000 v be s
  if change && s.pins.ready then none
  else
    let r := mergeBytes (rdErrCtrl s.err) v be
    let s := { s with err := { s.err with
      hangScan := bitOf r.toNat 0, injectEnable := bitOf r.toNat 3, faultStallMs := BitVec.ofNat 16 (fld r 16 16) } }
    let s := if change then override 0xC00000 v s else s
    let s := if be.getLsbD 0 && bitOf v.toNat 1 then declareSuspect 4 s else s
    some (if be.getLsbD 0 && bitOf v.toNat 2 then capture 6 .all 0 s else s)

/-- ERR_INJECT: KIND, UNIT and COUNT are kept as written; ARM starts the injection (15 R430). -/
def wrInject : RegFun := fun _ v be s =>
  let armed := be.getLsbD 4 && bitOf v.toNat 32
  if armed && !s.err.injectEnable then none
  else
    let o := s.err.injectSet
    let i : Inject :=
      { kind := if be.getLsbD 0 then BitVec.ofNat 4 (fld v 0 4) else o.kind
        unit := if be.getLsbD 1 then BitVec.ofNat 8 (fld v 8 8) else o.unit
        left := if fieldEnabled be 16 16 then fld v 16 16 else o.left }
    some { s with err := { s.err with
      injectSet := i
      inject := if armed then (if i.left = 0 then none else some i) else s.err.inject } }

/-! ### Every register (17 R457, R464) -/

def queueNo (k : Nat) : QueueNo := ⟨k % 4096, Nat.mod_lt _ (by decide)⟩

/-- A port's registers. -/
def wrPort (n o : Nat) : RegFun :=
  privOnly (if o = 0x30 then wrPause n else if o = 0x270 then wrLoopCtrl n else if o = 0x2C0 then wrRetrain n else wrRO)

def wrRouting (o : Nat) : RegFun :=
  privOnly (if o = 0 then wrRteCtrl else if o = 0x40 then wrRankCommit
    else if 0x80000 ≤ o then wrRank ((o - 0x80000) / 8) else wrRO)

/-- A doorbell slot: nothing but slot offset 0 has a meaning (17 R463). -/
def wrDoorbellSlot (o : Nat) : RegFun :=
  if o % 0x40 = 0 then wrDoorbell (queueNo (o / 0x40)) else ownedRO (fun s => queuePart s (o / 0x40))

/-- A queue's registers. -/
def wrQueueReg (k : QueueNo) (o : Nat) : RegFun :=
  if o = 0x00 then wrQRing k else if o = 0x08 then wrQConfig k else if o = 0x20 then wrQPeriod k
  else if o = 0x30 then wrQIrq k else ownedRO (fun s => queuePart s k)

def wrContexts (o : Nat) : RegFun :=
  if o = 0x200 ∨ o = 0x208 then privOnly wrRO
  else if o < 0x200 then
    (if o % 0x10 = 0 then wrCtxCmd (o / 0x10) else fun par _ _ s => if slotOwner (o / 0x10) par then some s else none)
  else if o < 0x20000 then ownedRO (fun s => ctxPart s ((o - 0x10000) / 8))
  else if o < 0x100000 then wrQueueReg (queueNo ((o - 0x20000) / 0x40)) ((o - 0x20000) % 0x40)
  else if o < 0x180000 then wrCntValue ((o - 0x100000) / 8)
  else wrCntAdd ((o - 0x180000) / 8)

/-- An INVALIDATE slot's registers. -/
def wrInvReg (r k : Nat) : RegFun :=
  if k = 0 then wrInvAddr r else if k = 1 then wrInvLen r else if k = 2 then wrInvCmd r
  else fun par _ _ s => if slotOwner r par then some s else none

/-- A fault queue's registers. -/
def wrFqReg (p : PartNo) (k : Nat) : RegFun :=
  if k = 0 then wrFqBase p else if k = 1 then wrFqCfg p else if k = 2 then wrFqPtrs p else ownedRO (fun _ => some p)

/-- An import window's registers. -/
def wrWinReg (w o : Nat) : RegFun :=
  if o = 0x00 then wrWinBase w else if o = 0x08 then wrWinSize w else if o = 0x10 then wrWinMap w
  else if o = 0x18 then wrWinSrc w else wrWinCtrl w

def wrXlt (o : Nat) : RegFun :=
  if o < 0x100 then privOnly (if o = 0 then wrXltCtrl else wrRO)
  else if o < 0x1000 then wrInvReg ((o - 0x100) / 0x20) ((o - 0x100) / 8 % 4)
  else if o < 0x2000 then wrFqReg (partNo ((o - 0x1000) / 0x20)) ((o - 0x1000) / 8 % 4)
  else if o < 0x4000 then wrSticky ⟨(o - 0x2000) / 8 % 16, Nat.mod_lt _ (by decide)⟩
  else if o < 0x6000 then ownedRO (fun s => ctxPart s ((o - 0x4000) / 8))
  else if o < 0x80000 then ownedRO (fun _ => some (partNo ((o - 0x6000) / 8)))
  else wrWinReg ((o - 0x80000) / 0x40) ((o - 0x80000) % 0x40)

def wrHeadbox (o : Nat) : RegFun := if o = 0x1030 then wrSelfTest else privOnly wrRO

def wrVat (o : Nat) : RegFun := if o = 0x28 then privOnly wrVatMarch else if o = 0x300 then wrWinAddr else privOnly wrRO

/-- A partition's registers. -/
def wrPartReg (p : PartNo) (o : Nat) : RegFun :=
  if o = 0x28 then wrIrqMap p else privOnly (if o = 0 then wrParState p else wrRO)

/-- A vector's registers. -/
def wrVecReg (p v : PartNo) (o : Nat) : RegFun :=
  if o = 0x08 then wrVecCtrl p v else privOnly (if o = 0 then wrVecAddr p v else wrRO)

def wrPartitions (o : Nat) : RegFun :=
  if o = 0 then privOnly wrParCtrl
  else if o < 0x10000 then wrPartReg (partNo ((o - 0x100) / 0x40)) ((o - 0x100) % 0x40)
  else wrVecReg (partNo ((o - 0x10000) / 0x200)) (partNo ((o - 0x10000) / 0x20)) ((o - 0x10000) % 0x20)

def wrErrors (o : Nat) : RegFun := privOnly (if o = 0 then wrErrCtrl else if o = 0x30 then wrInject else wrRO)

def wrSecurity (o : Nat) : RegFun :=
  privOnly (if o = 0x200 then wrMboxCmd else if 0x300 ≤ o then wrMboxData ((o - 0x300) / 8) else wrRO)

/-- The write of an assigned offset other than VAT_WIN_DATA. -/
def wrAt (o : Nat) : RegFun :=
  if o < 0x100000 then privOnly (if o = 0x10008 then wrPwrState else if o = 0x10018 then wrCeilHost else wrRO)
  else if o < 0x200000 then wrPort ((o - 0x100000) / 0x10000) (o % 0x10000)
  else if o < 0x300000 then wrRouting (o - 0x200000)
  else if o < 0x400000 then privOnly (if o = 0x300000 then wrTrkCtrl else wrRO)
  else if o < 0x500000 then wrDoorbellSlot (o - 0x400000)
  else if o < 0x800000 then wrContexts (o - 0x500000)
  else if o < 0x900000 then wrXlt (o - 0x800000)
  else if o < 0xA00000 then wrHeadbox (o - 0x900000)
  else if o < 0xB00000 then wrVat (o - 0xA00000)
  else if o < 0xC00000 then wrPartitions (o - 0xB00000)
  else if o < 0xD00000 then wrErrors (o - 0xC00000)
  else wrSecurity (o - 0xD00000)

/-! ### A write -/

/-- A write of VAT_WIN_DATA (13 R365, R377; 15 R430 KIND 3 and 4). -/
def writeWindow (par : Nat) (v : Word) (be : BitVec 8) (s : State) : BitVec 2 × State :=
  if be = 0 then (if winAllowed par true s then (rspDone, s) else refuseAccess offWinData par true s)
  else if winAllowed par true s then
    let a := winAddrOf s
    (rspDone, (vatInject a (winAccess true v be s).2).2)
  else
    let (e, t) := refuseAccess offWinData par true s
    (e, vatViolation (if par = parPriv then 8 else 7) (if par < 16 then some par else none) (winAddrOf s) t)

/-- The partition requester is ABSENT or RESETTING (14 R381). -/
def outOfService (par : Nat) (s : State) : Bool := decide (par < 16) && (partOf s par).state != partReady

/-- Partition and vector of an IRQ_VEC_CTRL register. -/
def vecCtrlAt (off : Nat) : Option (PartNo × PartNo) :=
  if 0xB10000 ≤ off ∧ off < 0xB12000 ∧ off % 0x20 = 8 then some (partNo ((off - 0xB10000) / 0x200), partNo ((off - 0xB10000) / 0x20))
  else none

/-- A doorbell slot's own write (09 R255). -/
def isDoorbell (off : Nat) : Bool := decide (0x400000 ≤ off) && decide (off < 0x440000)

/-- A write by a partition that is out of service (14 R381). -/
def writeOut (par off : Nat) (v : Word) (be : BitVec 8) (s : State) : Option State :=
  match vecCtrlAt off with
  | some (p, w) => if p.val = par ∧ be.getLsbD 4 = true then some (writeMask p w v s) else none
  | none => if isDoorbell off then wrAt off par v be s else none

/-- A write at an offset: the answer and the state.  `side` marks the sideband, which R45 does not limit. -/
def writeReg (side : Bool) (off par : Nat) (v : Word) (be : BitVec 8) (s : State) : BitVec 2 × State :=
  if noRequester par then refuseAccess off par true s
  else if !side && !s.pins.ready then refuseAccess off par true s
  else if (readReg off s).isNone then unmappedAccess off par true s
  else if off = offWinData && !outOfService par s then writeWindow par v be s
  else match if outOfService par s then writeOut par off v be s else wrAt off par v be s with
    | none => refuseAccess off par true s
    | some t => (rspDone, if be = 0 then s else t)

/-! ### WRITE_REG (16 R449, R450) -/

/-- The WO and W1C fields at an offset: lowest bit and width (R450: fields other than RW). -/
def woFields (o : Nat) : List (Nat × Nat) :=
  if 0x100000 ≤ o ∧ o < 0x1C0000 ∧ o % 0x10000 = 0x2C0 then [(0, 3)]
  else if o = 0x200040 then [(0, 1)]
  else if isDoorbell o then [(0, 32)]
  else if 0x500000 ≤ o ∧ o < 0x500110 ∧ o % 0x10 = 0 then [(0, 8), (8, 16), (32, 32)]
  else if 0x680000 ≤ o ∧ o < 0x700000 then [(0, 64)]
  else if 0x800100 ≤ o ∧ o < 0x800320 ∧ (o - 0x800100) % 0x20 = 0x10 then [(0, 10), (16, 1)]
  else if 0x802000 ≤ o ∧ o < 0x802080 then upTo 8 (fun k => (8 * k, 8))
  else if 0x880000 ≤ o ∧ o < 0x8C0000 ∧ o % 0x40 = 0x20 then [(2, 2)]
  else if o = 0x901030 ∨ o = 0xA00028 ∨ o = 0xB00000 then [(0, 1)]
  else if 0xB00100 ≤ o ∧ o < 0xB00500 ∧ (o - 0xB00100) % 0x40 = 0 then [(2, 1)]
  else if o = 0xC00000 then [(1, 2)]
  else if o = 0xC00030 then [(0, 4), (8, 8), (16, 16), (32, 1)]
  else if o = 0xD00200 then [(0, 8), (8, 8)]
  else []

/-- WRITE_REG writes a field other than RW. -/
def writesOther (off : Nat) (v : Word) (be : BitVec 8) (s : State) : Bool :=
  rwlChange off v be s || (woFields off).any (fun f => fieldEnabled be f.1 f.2)

/-- WRITE_REG: directed mode for anything but RW fields; one that would change an RWL field after ready is
refused by the register rules instead. -/
def mgWriteReg (off : Nat) (v : Word) (be : BitVec 8) (s : State) : Answer :=
  if !(s.pins.ready && rwlChange off v be s) && !s.fur.directed && writesOther off v be s then (stStateRefused, [], s)
  else
    let (e, t) := writeReg true off parPriv v be s
    (if e = rspDone then stOk else stRights, [], t)

end Sys2Proof.Machine
end

