-- ==== Sys2Proof/Machine/Sideband.lean ====
section
/-! DEFINITION. The sideband: its commands, the alert response and bus resets (04 R112, R113; 16 R447 to
R455). -/

namespace Sys2Proof.Machine

/-! ### A command (16 R447, R448) -/

/-- The sideband's answer. -/
def setRsp (r : SbRsp) (s : State) : State := { s with out := { s.out with sbRsp := r } }

/-- COMMANDS and REFUSED of STW_SB_EVENTS. -/
def countCommand (st : Byte) (s : State) : State :=
  { s with sec := { s.sec with
    commands := if st = stOk then satInc s.sec.commands else s.sec.commands
    refused := if st = stRights ∨ st = stStateRefused then satInc s.sec.refused else s.sec.refused } }

/-- One command whose write block has arrived: `pec` says that its PEC is correct.  One with a bad PEC, and
any while the steward restarts, is not acknowledged (16 R448, 15 R419). -/
def sbCommand (pec : Bool) (code : Byte) (f : State → Answer) (s : State) : State :=
  if s.err.restarting then setRsp {} s
  else if !pec then setRsp {} { s with sec := { s.sec with pecErrors := satInc s.sec.pecErrors } }
  else
    let g := gate code s
    let (st, pl, s) := if g = stOk then withEpoch f s else (g, [], s)
    let s := countCommand st s
    setRsp { acked := true, status := st, epoch := s.sec.mgmtEpoch, payload := pl } s

/-- An answer without a payload. -/
def plain (x : Byte × State) : Answer := (x.1, [], x.2)

/-- A command of another form than R449 gives it. -/
def malformed (s : State) : Answer := (stMalformed, [], s)

/-- A command's own rules refuse it. -/
def refused (s : State) : Answer := (stStateRefused, [], s)

/-! ### Orders -/

/-- SET_CEILING (03 R82 to R85). -/
def sbCeiling (ceil : BitVec 16) (shed : Byte) (s : State) : Answer :=
  if 2 ≤ shed.toNat then malformed s
  else
    let s := orderRack ceil (shed == 1) s
    (stOk, leBytes 2 s.power.effective.toNat ++ leBytes 1 s.power.source.toNat, s)

/-- SET_POWER (03 R71, R73, R75). -/
def sbPower (target : Byte) (s : State) : Answer :=
  if target = 0 ∨ 4 ≤ target.toNat then malformed s
  else startLong false 0x06 (target.setWidth 16) (orderPower target.toNat) s

/-- RETRAIN (06 R469). -/
def sbRetrain (port fullCal : Byte) (s : State) : Answer :=
  if 12 ≤ port.toNat ∨ 2 ≤ fullCal.toNat then malformed s
  else startLong false 0x09 (port.setWidth 16) (fun s => (stOk, orderRetrain port.toNat (fullCal == 1) s)) s

/-- RESET of a unit: 1 partition, 2 engine domain, 3 steward, 4 capture. -/
def sbReset (unit : Nat) (p : Byte) (f : State → Byte × State) (s : State) : Answer :=
  if 16 ≤ p.toNat then malformed s else startLong false 0x0A (BitVec.ofNat 16 (unit + 256 * p.toNat)) f s

/-- DRAIN (15 R425). -/
def sbDrain (s : State) : Answer := startLong false 0x0B 0 (fun s => (stOk, declareSuspect 3 s)) s

/-! ### The rank table (07 R188, R191) -/

/-- Entries written from rank r on. -/
def writeRanks (first : Nat) (es : List (BitVec 32)) (s : State) : State := forEach (es.zipIdx first) (fun x => writeRank x.2 x.1) s

/-- RANK_WRITE. -/
def sbRankWrite (first : Nat) (es : List (BitVec 32)) (s : State) : Answer :=
  if es.length = 0 ∨ 60 < es.length ∨ 131072 < first + es.length then malformed s
  else if s.route.digestBusy then refused s
  else
    let t := writeRanks first es s
    if (es.zipIdx first).any (fun x => rankRefused t x.2 x.1) then (stRights, [], s) else (stOk, [], t)

/-- RANK_COMMIT. -/
def sbRankCommit (s : State) : Answer :=
  startLong false 0x0D 0 (fun s => if s.route.digestBusy then (stStateRefused, s) else (stOk, commitRanks s)) s

/-! ### Reports (16 R452) -/

/-- REPORTS: those up to ACK_SEQ are removed, and the oldest three that remain are returned. -/
def sbReports (ack : BitVec 32) (s : State) : Answer :=
  let left := s.sec.reports.filter (fun r => decide (ack.toNat < numAt r 4 4))
  let s := { s with sec := { s.sec with reports := left } }
  (stOk, leBytes 2 left.length ++ leBytes 2 s.sec.lost.toNat ++ (left.take 3).flatMap id, s)

/-! ### Directed mode (04 R112, R113; 16 R453) -/

/-- ACTION 1: the hold order of R112 before ready, and directed mode after. -/
def sbHold (s : State) : Answer :=
  if s.pins.ready then (stOk, [], modFur (fun f => { f with directed := true }) s)
  else (stOk, [], modFur (fun f => { f with holdOrder := true }) s)

/-- Held with firmware started. -/
def heldNow (s : State) : Bool := inHold s && !s.pins.ready

/-- ACTION 2: the next phase runs, and start-up holds again at its end. -/
def sbStep (s : State) : Answer :=
  if heldNow s then (stOk, [], leaveHold (modFur (fun f => { f with holdOrder := true }) s)) else refused s

/-- ACTION 3: start-up goes on, and directed mode ends. -/
def sbResume (s : State) : Answer :=
  if heldNow s then (stOk, [], leaveHold (modFur (fun f => { f with holdOrder := false, directed := false }) s)) else refused s

/-- A port leaves TEST, and its retrain begins (06 R175). -/
def leaveTest (n : Nat) (s : State) : State :=
  if (portOf s n).state ≠ psTest then s
  else
    let bar := barOf s n
    let s := modPort n (fun p =>
      let p := setLoops p { p with loopMode := 0, loopPattern := false, loopLanes := 0, farLoop := 0 }
      darken (if bar.isSome then lsOff else lsDetect) p) s
    if mayTrain s n then beginAttempt n false s else beginAttempt n false (setPortState n psDown s)

/-- ACTION 4: every port in TEST leaves it, and directed mode ends. -/
def sbLeave (s : State) : Answer :=
  if s.pins.ready && s.fur.directed then
    (stOk, [], modFur (fun f => { f with directed := false }) (forEach (List.range 12) leaveTest s))
  else refused s

/-! ### TEST (16 R449, R450) -/

/-- A test in directed mode. -/
def sbTest (test : Nat) (f : State → Byte × State) (s : State) : Answer :=
  if s.fur.directed then startLong false 0x11 (BitVec.ofNat 16 test) f s else refused s

/-- Tests 1 and 2 (13 R372, R374). -/
def testMarch (preserving : Bool) (s : State) : Byte × State :=
  if marchAllowed preserving s then (stOk, startMarch preserving s) else (stStateRefused, s)

/-- Test 3 (12 R356, R357). -/
def testBeaters (s : State) : Byte × State :=
  if selfTestAllowed s then (stOk, startSelfTest s) else (stStateRefused, s)

/-- Test 4: a port enters TEST, its traffic moving as for DOWN (06 R175).  A barred port stays DOWN and dark (01 R21, 04
R109). -/
def enterTest (n : Nat) (s : State) : State :=
  if (portOf s n).state = psTest ∨ (barOf s n).isSome = true then s
  else
    let was := inService (portOf s n)
    let s := modPort n (fun p => { darken lsOff p with retryArmed := false, loopMode := 0, loopPattern := false, loopLanes := 0, farLoop := 0 }) s
    let s := setPortState n psTest s
    if was then leaveService n true s else s

/-- Test 4, refused for a barred port. -/
def testEnter (n : Nat) (s : State) : Byte × State :=
  if (barOf s n).isSome then (stStateRefused, s) else (stOk, enterTest n s)

/-- Test 5: a port in TEST leaves it. -/
def testExit (n : Nat) (s : State) : Byte × State :=
  if (portOf s n).state = psTest then (stOk, leaveTest n s) else (stStateRefused, s)

/-- Test 6: the loops of a port in TEST, from PORT_LOOP_CTRL bits [11:0], or the near-end serial loop on the spare lane of
one that is UP (05 R145). -/
def testLoops (n : Nat) (bits : BitVec 16) (s : State) : Byte × State :=
  let f := if (portOf s n).state = psTest then setLoopCtrl else setSpareLoop
  match f n (bits.extractLsb' 0 2) (bits.getLsbD 2) (bits.extractLsb' 3 9) s with
  | some t => (stOk, t)
  | none => (stStateRefused, s)

/-- A test of a port. -/
def sbPortTest (test : Nat) (port : Byte) (f : Nat → State → Byte × State) (s : State) : Answer :=
  if 12 ≤ port.toNat then malformed s else sbTest test (f port.toNat) s

/-! ### Alert response and bus reset (16 R452, R455) -/

/-- The sideband address chosen by SB_ADDR (02 R50). -/
def ownAddress (s : State) : Byte := 0x60 + s.pins.sbAddr.setWidth 8

/-- ALERT_RESPONSE: the block answers with its own address while SB_ALERT_N is asserted. -/
def doAlertResponse (s : State) : State :=
  if s.sec.reports.isEmpty || s.err.restarting then setRsp {} s
  else setRsp { acked := true, payload := [ownAddress s] } s

/-- BUS_RESET: the target's state only. -/
def doBusReset (s : State) : State := setRsp {} { s with sec := { s.sec with busResets := satInc s.sec.busResets } }

end Sys2Proof.Machine
end

