-- ==== Sys2Proof/Machine/Settle.lean ====
section
/-! DEFINITION. What every command has in common: it acts on a running block, leaves the queue and the reset
and clock inputs to those who drive them, and lets what it set going take effect in the same step. -/

namespace Sys2Proof.Machine

/-! ### Settling -/

/-- Nothing waits to take effect at a port: no lost link, no fence, no handover or
handback, no announced leaving and no pass that waits for its twin (05 R144; 06 R175 to R183). -/
def portQuiet (p : Port) : Bool :=
  p.lossDue.isNone && p.fenceDue.isNone && p.hand.isNone && !p.handback && p.leaveDue.isNone && !p.cal.waitsTwin

/-- Two uncorrectable errors within 600 s (15 R425). -/
def uncorrSuspect (s : State) : Bool :=
  match s.err.uncorrAt with
  | a :: b :: _ => decide (a - b < 600000000)
  | _ => false

/-- An action that can end: an aborted one of which nothing is outside any more, or a FENCE whose earlier descriptors all
have their final status (09 R247 step 5, R258). -/
def runReady (s : State) (r : Run) : Bool :=
  (r.phase == .aborting && runQuiet s r.id && r.plan.isNone && r.statusPending == 0) ||
    (r.phase == .holding && r.op == dFence && fenceReady s r)

/-- End an action that can end. -/
def settleReady (id : Nat) (s : State) : State :=
  match runOf s id with
  | none => s
  | some r => if !runReady s r then s else if r.phase = .holding then endRun id stOk s else settleRun id s

/-- Every action that can end. -/
def settleRuns (s : State) : State := forEach ((s.cq.runs.filter (runReady s)).map (·.id)) settleReady s

/-- Every aperture channel that waited and need not any more (08 R223). -/
def settleChannels (s : State) : State := forEach ((channelReady s).map (·.id)) issueParts s

/-! ### The rings of deficit round robin (14 R387, R395) -/

/-- A ring holds just the partitions that wait. -/
def ringStands (ring waiting : List Nat) : Bool := ringUpdate ring waiting == ring

/-- The rings of a port's VC buffers. -/
def txRingsStand (s : State) (p : Port) : Bool :=
  (p.tx.queue.isEmpty && p.tx.ring.isEmpty) ||
    (List.range 8).all (fun v => ringStands (tabGet [] p.tx.ring v) (localWaiting s p v))

/-- Every ring. -/
def ringsStand (s : State) : Bool :=
  s.ports.all (fun x => txRingsStand s x.2) && ringStands s.cq.ring (moverParts (moverWork s)) &&
    ringStands s.btr.ring (beatParts s) && ringStands s.trk.ring (trkWaiting s)

/-- Partitions that have come join the ring of a VC buffer, and those that have left lose their deficit. -/
def settleTxRing (s : State) (v : Nat) (p : Port) : Port :=
  let ring := ringUpdate (tabGet [] p.tx.ring v) (localWaiting s p v)
  { p with tx := { p.tx with ring := tabSet [] v ring p.tx.ring, deficit := deficitUpdate (fun q => 16 * v + q) ring p.tx.deficit } }

/-- The same for every ring. -/
def settleRings (s : State) : State :=
  let s := forEach (List.range 12) (fun n s => modPort n (fun p => (List.range 8).foldl (fun p v => settleTxRing s v p) p) s) s
  let movers := ringUpdate s.cq.ring (moverParts (moverWork s))
  let beats := ringUpdate s.btr.ring (beatParts s)
  let trks := ringUpdate s.trk.ring (trkWaiting s)
  { s with
    cq := { s.cq with ring := movers, deficit := deficitUpdate id movers s.cq.deficit }
    btr := { s.btr with ring := beats, deficit := deficitUpdate id beats s.btr.deficit }
    trk := { s.trk with ring := trks, deficit := deficitUpdate id trks s.trk.deficit } }

/-! ### What a step found -/

/-- Nothing that a step found waits to take effect: at no port, in no plan, at no Beater, in no action, at no aperture
channel, and the endpoint is not to be declared suspect. -/
def quiet (s : State) : Bool :=
  s.ports.all (fun x => portQuiet x.2) && s.hbx.plans.all (fun x => x.2.state == 0) && s.btr.queue.isEmpty &&
    !s.cq.runs.any (runReady s) && (channelReady s).isEmpty && !s.err.suspectDue && !uncorrSuspect s && ringsStand s

/-- What a step found takes effect: ports, then plans and their Beaters, then actions and aperture channels, then the
endpoint's own state, and then who waits for a turn. -/
def settle (s : State) : State :=
  if quiet s then s
  else settleRings (settleSuspect (settleChannels (settleRuns (feedBeaters (pumpPlans (settlePasses (settlePorts s)))))))

/-! ### A command -/

/-- The queue of commands, the time, and the inputs RST_COLD_N, CLK_LOCK and SB_ADDR with what follows from them are not
a command's to change: the events of the pins and the tick alone do. -/
def keepInputs (s t : State) : State :=
  { t with
    pending := s.pending
    nowUs := s.nowUs
    pins := { t.pins with
      rstColdN := s.pins.rstColdN
      railsOk := s.pins.railsOk
      clkLock := s.pins.clkLock
      clkOut := s.pins.clkOut
      lockLost := s.pins.lockLost
      sbAddr := s.pins.sbAddr
      nvmRstN := s.pins.nvmRstN
      portReady := s.pins.portReady } }

/-- A command with the effect `f`: a block in cold reset or without its root clock does nothing (02 R28, R54). -/
def act (f : State → State) (s : State) : Host.Outcome State Fault Refusal :=
  .next (if live s then keepInputs s (settle (f s)) else s)

/-- A block without a waiting command: 1 µs passes for one that runs, and nothing else happens (log entry 30). -/
def tick (s : State) : State := if live s then { s with nowUs := s.nowUs + 1 } else s

/-- A write at the command port: the answer stands on CMD_RSP_* (02 R43, 17 R458). -/
def cmdWrite (off : Nat) (a : RegAcc) (s : State) : State :=
  let (e, t) := writeReg false off a.par.toNat a.value a.be s
  { t with out := { t.out with cmdRsp := { rdata := 0, err := e } } }

/-- A read at the command port. -/
def cmdRead (off : Nat) (par : BitVec 5) (s : State) : State :=
  let (e, v, t) := readAccess false par.toNat off s
  { t with out := { t.out with cmdRsp := { rdata := v, err := e } } }

/-- A command of the sideband. -/
def sideband (pec : Bool) (code : Byte) (f : State → Answer) : State → Host.Outcome State Fault Refusal :=
  act (sbCommand pec code f)

end Sys2Proof.Machine
end

