-- ==== Sys2Proof/Machine/CmdControl.lean ====
section
/-! DEFINITION. The commands of partitions, resets, errors and captures (14, 15), of the root of trust and the mailbox (16),
and the write of a register that has no command of its own (17). -/

namespace Sys2Proof.Machine

/-- REGISTER_WRITE (17 R458). -/
def execRegisterWrite (offset : BitVec 24) (a : RegAcc) (s : State) : Host.Outcome State Fault Refusal :=
  act (cmdWrite offset.toNat a) s

/-- RESET: a write of PAR_STATE (14 R398). -/
def execReset (p : PartNo) (a : RegAcc) (s : State) : Host.Outcome State Fault Refusal :=
  act (cmdWrite (0xB00100 + 0x40 * p) a) s

/-- PARTITION_RESET_DRAINED (14 R399). -/
def execPartitionResetDrained (p : PartNo) (s : State) : Host.Outcome State Fault Refusal :=
  act (doPartDrained p) s

/-- ENGINE_RESET: a write of PAR_CTRL (14 R401). -/
def execEngineReset (a : RegAcc) (s : State) : Host.Outcome State Fault Refusal :=
  act (cmdWrite 0xB00000 a) s

/-- ENGINE_RESET_MEMORY_DRAINED (14 R401). -/
def execEngineResetMemoryDrained (s : State) : Host.Outcome State Fault Refusal :=
  act doEngineDrained s

/-- IRQ_VEC_CTRL: a write of that register (14 R383). -/
def execIrqVecCtrl (p v : PartNo) (a : RegAcc) (s : State) : Host.Outcome State Fault Refusal :=
  act (cmdWrite (0xB10008 + 0x200 * p + 0x20 * v) a) s

/-- HANG_SCAN (15 R413). -/
def execHangScan (s : State) : Host.Outcome State Fault Refusal :=
  act doHangScan s

/-- HEARTBEAT (15 R418). -/
def execHeartbeat (s : State) : Host.Outcome State Fault Refusal :=
  act doHeartbeat s

/-- WATCHDOG_FIRE (15 R418). -/
def execWatchdogFire (s : State) : Host.Outcome State Fault Refusal :=
  act doWatchdog s

/-- STEWARD_RESTART_COMPLETE (15 R419). -/
def execStewardRestartComplete (s : State) : Host.Outcome State Fault Refusal :=
  act doRestartComplete s

/-- ERR_CTRL_DRAIN: a write of ERR_CTRL (15 R426). -/
def execErrCtrlDrain (a : RegAcc) (s : State) : Host.Outcome State Fault Refusal :=
  act (cmdWrite 0xC00000 a) s

/-- CAPTURE_NOW: a write of ERR_CTRL (15 R424). -/
def execCaptureNow (a : RegAcc) (s : State) : Host.Outcome State Fault Refusal :=
  act (cmdWrite 0xC00000 a) s

/-- ARM: a write of ERR_INJECT (15 R430). -/
def execArm (a : RegAcc) (s : State) : Host.Outcome State Fault Refusal :=
  act (cmdWrite 0xC00030 a) s

/-- DRAIN_COMPLETE (15 R426). -/
def execDrainComplete (s : State) : Host.Outcome State Fault Refusal :=
  act doDrainComplete s

/-- RESULT (16 R432). -/
def execResult (m : RotMsg) (s : State) : Host.Outcome State Fault Refusal :=
  act (doResult m) s

/-- ROT_REQUEST_TIMEOUT (16 R432). -/
def execRotRequestTimeout (tag : BitVec 16) (s : State) : Host.Outcome State Fault Refusal :=
  act (doRotTimeout tag) s

/-- SET_POLICY (16 R433). -/
def execSetPolicy (m : RotMsg) (s : State) : Host.Outcome State Fault Refusal :=
  act (doSetPolicy m) s

/-- STW_MBOX_CMD: a write of that register (16 R454). -/
def execStwMboxCmd (a : RegAcc) (s : State) : Host.Outcome State Fault Refusal :=
  act (cmdWrite 0xD00200 a) s

/-- LONG_COMMAND_COMPLETE (16 R451). -/
def execLongCommandComplete (s : State) : Host.Outcome State Fault Refusal :=
  act doLongComplete s

end Sys2Proof.Machine
end

