-- ==== Sys2Proof/Machine/CmdEngines.lean ====
section
/-! DEFINITION. The commands of the Headbox, the Beaters and the Vat (11, 12, 13). -/

namespace Sys2Proof.Machine

/-- RING_STEP_START (11 R318). -/
def execRingStepStart (plan : Fin 16) (level : Fin 3) (ring : Fin 4) (s : State) : Host.Outcome State Fault Refusal :=
  act (doRingStep plan level ring) s

/-- PIECE_SEND (11 R321, 12 R352). -/
def execPieceSend (plan : Fin 16) (level : Fin 3) (x : SendObs) (s : State) : Host.Outcome State Fault Refusal :=
  act (doPieceSend plan level x.ring x.wm) s

/-- CREDIT_REPEAT_TIMER (11 R322). -/
def execCreditRepeatTimer (plan : Fin 16) (level : Fin 3) (ring : Fin 4) (s : State) : Host.Outcome State Fault Refusal :=
  act (doCreditRepeat plan level ring) s

/-- BEATER_PIECE_DONE (12 R337). -/
def execBeaterPieceDone (beater : Fin 8) (obs : BeatObs) (s : State) : Host.Outcome State Fault Refusal :=
  act (doBeaterPieceDone beater obs) s

/-- RECOMPUTE_DONE (12 R354). -/
def execRecomputeDone (beater : Fin 8) (obs : BeatObs) (s : State) : Host.Outcome State Fault Refusal :=
  act (doRecomputeDone beater obs) s

/-- STEP_LIMIT_EXPIRY (11 R327). -/
def execStepLimitExpiry (plan : Fin 16) (s : State) : Host.Outcome State Fault Refusal :=
  act (doStepLimit plan) s

/-- FAULT_STALL_EXPIRY (15 R416). -/
def execFaultStallExpiry (plan : Fin 16) (s : State) : Host.Outcome State Fault Refusal :=
  act (doFaultStall plan) s

/-- SCRUB_ROW (13 R371). -/
def execScrubRow (errs : List VatErr) (s : State) : Host.Outcome State Fault Refusal :=
  act (doScrubRow errs) s

/-- VAT_MARCH: a write of that register (13 R374). -/
def execVatMarch (a : RegAcc) (s : State) : Host.Outcome State Fault Refusal :=
  act (cmdWrite 0xA00028 a) s

/-- MARCH_COMPLETE (13 R373). -/
def execMarchComplete (failed : BitVec 50) (us : BitVec 16) (s : State) : Host.Outcome State Fault Refusal :=
  act (doMarchComplete failed us) s

/-- VAT_WIN_ADDR: a write of that register (13 R377). -/
def execVatWinAddr (a : RegAcc) (s : State) : Host.Outcome State Fault Refusal :=
  act (cmdWrite 0xA00300 a) s

/-- VAT_WIN_DATA: an access to the window (13 R377). -/
def execVatWinData (isWrite : Bool) (a : RegAcc) (s : State) : Host.Outcome State Fault Refusal :=
  act (if isWrite then cmdWrite offWinData a else cmdRead offWinData a.par) s

/-- BTR_SELFTEST: a write of that register (12 R357). -/
def execBtrSelftest (a : RegAcc) (s : State) : Host.Outcome State Fault Refusal :=
  act (cmdWrite 0x901030 a) s

/-- SELF_TEST_COMPLETE (12 R357). -/
def execSelfTestComplete (passed : BitVec 8) (us : BitVec 16) (s : State) : Host.Outcome State Fault Refusal :=
  act (doSelfTestComplete passed us) s

end Sys2Proof.Machine
end

