-- ==== Sys2Proof/Machine/CmdLanes.lean ====
section
/-! DEFINITION. The commands of training, lanes and calibration (05). -/

namespace Sys2Proof.Machine


/-- DETECT_PULSE (03 R80). -/
def execDetectPulse (port : PortNo) (s : State) : Host.Outcome State Fault Refusal :=
  act (doDetectPulse port) s

/-- PARTNER_SIGNAL_DETECT (05 R130). -/
def execPartnerSignalDetect (port : PortNo) (lanes : BitVec 9) (s : State) : Host.Outcome State Fault Refusal :=
  act (doPartnerSignal port lanes) s

/-- TRAINING_RETRY_TIMER (05 R130). -/
def execTrainingRetryTimer (port : PortNo) (s : State) : Host.Outcome State Fault Refusal :=
  act (doTrainingRetry port) s

/-- TRAINING_STEP_COMPLETE (05 R127). -/
def execTrainingStepComplete (port : PortNo) (obs : TrainObs) (s : State) : Host.Outcome State Fault Refusal :=
  act (doTrainingStep port obs) s

/-- LANE_BLOCK (05 R121). -/
def execLaneBlock (port : PortNo) (lane : LaneNo) (header : BitVec 2) (payload : BitVec 128) (s : State) : Host.Outcome State Fault Refusal :=
  act (doLaneBlock port lane header payload) s

/-- MARKER (05 R124). -/
def execMarker (port : PortNo) (lane : LaneNo) (payload : BitVec 128) (s : State) : Host.Outcome State Fault Refusal :=
  act (doMarker port lane payload) s

/-- TRAIN (05 R120). -/
def execTrain (port : PortNo) (lane : LaneNo) (payload : BitVec 128) (s : State) : Host.Outcome State Fault Refusal :=
  act (doTrain port lane payload) s

/-- BURST (05 R136). -/
def execBurst (port : PortNo) (lane : LaneNo) (s : State) : Host.Outcome State Fault Refusal :=
  act (doBurst port lane) s

/-- IDLE_ENTRY (05 R135). -/
def execIdleEntry (port : PortNo) (lane : LaneNo) (s : State) : Host.Outcome State Fault Refusal :=
  act (doIdleEntry port lane) s

/-- CALENDER (05 R141). -/
def execCalender (port : PortNo) (logical : Fin 8) (spare : LaneNo) (epoch : Byte) (s : State) : Host.Outcome State Fault Refusal :=
  act (doCalender port logical spare epoch) s

/-- LOOP_REQ (05 R145). -/
def execLoopReq (port : PortNo) (close : Bool) (lanes : BitVec 9) (s : State) : Host.Outcome State Fault Refusal :=
  act (doLoopReq port close lanes) s

/-- LANE_ERROR_WINDOW (05 R138). -/
def execLaneErrorWindow (port : PortNo) (corrected : List Nat) (s : State) : Host.Outcome State Fault Refusal :=
  act (doLaneWindow port corrected) s

/-- LANE_TEMPERATURE_READ (05 R140). -/
def execLaneTemperatureRead (port : PortNo) (temp : BitVec 10) (s : State) : Host.Outcome State Fault Refusal :=
  act (doTemperature port temp) s

/-- CALENDER_STEP (05 R141). -/
def execCalenderStep (port : PortNo) (differing : Nat) (s : State) : Host.Outcome State Fault Refusal :=
  act (doCalenderStep port differing) s

/-- CALENDER_RETRY_TIMER (05 R142). -/
def execCalenderRetryTimer (port : PortNo) (s : State) : Host.Outcome State Fault Refusal :=
  act (doCalenderRetry port) s

/-- CALENDER_ANSWER_TIMEOUT (05 R144). -/
def execCalenderAnswerTimeout (port : PortNo) (s : State) : Host.Outcome State Fault Refusal :=
  act (doCalenderAnswer port) s

/-- CALENDER_DEFER_EXPIRY (05 R144). -/
def execCalenderDeferExpiry (port : PortNo) (s : State) : Host.Outcome State Fault Refusal :=
  act (doCalenderDefer port) s

/-- PORT_RETRAIN: a write of that register (06 R469). -/
def execPortRetrain (port : PortNo) (a : RegAcc) (s : State) : Host.Outcome State Fault Refusal :=
  act (cmdWrite (0x1002C0 + 0x10000 * port) a) s

/-- PASS_NOW: a write of PORT_RETRAIN (05 R144). -/
def execPassNow (port : PortNo) (a : RegAcc) (s : State) : Host.Outcome State Fault Refusal :=
  act (cmdWrite (0x1002C0 + 0x10000 * port) a) s

/-- PORT_LOOP_CTRL: a write of that register (05 R145). -/
def execPortLoopCtrl (port : PortNo) (a : RegAcc) (s : State) : Host.Outcome State Fault Refusal :=
  act (cmdWrite (0x100270 + 0x10000 * port) a) s

end Sys2Proof.Machine
end

