-- ==== Sys2Proof/Machine/CmdLink.lean ====
section
/-! DEFINITION. The commands of the link layer: flits, control packets and their timers (06), admission (16) and what the
control packets carry for routing (07). -/

namespace Sys2Proof.Machine


/-- FLIT_RECEIVED (06 R162). -/
def execFlitReceived (port : PortNo) (bytes : List Byte) (badCodeword : Bool) (s : State) : Host.Outcome State Fault Refusal :=
  act (recvFlit port bytes badCodeword) s

/-- FLIT_TRANSMIT (06 R163). -/
def execFlitTransmit (port : PortNo) (s : State) : Host.Outcome State Fault Refusal :=
  act (sendFlit port) s

/-- ACK_OWED_TIMEOUT (06 R156). -/
def execAckOwedTimeout (port : PortNo) (s : State) : Host.Outcome State Fault Refusal :=
  act (doAckOwed port) s

/-- LINK_INIT (06 R158, R176). -/
def execLinkInit (port : PortNo) (protocol version : BitVec 16) (endpoint : BitVec 32) (peerPort width : Byte)
    (broke rxbuf : BitVec 16) (s : State) : Host.Outcome State Fault Refusal :=
  act (onPacket port tyLinkInit false (leBytes 2 protocol.toNat ++ leBytes 2 version.toNat ++ leBytes 4 endpoint.toNat ++
      [peerPort, width] ++ leBytes 2 broke.toNat ++ leBytes 2 rxbuf.toNat)
    (doLinkInit port protocol endpoint peerPort broke)) s

/-- RTT_PROBE (06 R176). -/
def execRttProbe (port : PortNo) (tag : Word) (s : State) : Host.Outcome State Fault Refusal :=
  act (onPacket port tyRttProbe false (leBytes 8 tag.toNat)
    (doRttProbe port tag)) s

/-- RTT_ECHO (06 R176). -/
def execRttEcho (port : PortNo) (tag : Word) (turn : BitVec 32) (measured : BitVec 16) (s : State) : Host.Outcome State Fault Refusal :=
  act (onPacket port tyRttEcho false (leBytes 8 tag.toNat ++ leBytes 4 turn.toNat)
    (doRttEcho port tag turn measured)) s

/-- NAK (06 R163). -/
def execNak (port : PortNo) (expected : Count) (reason : Byte) (s : State) : Host.Outcome State Fault Refusal :=
  act (onPacket port tyNak false (leBytes 5 expected.toNat ++ [reason])
    (doNak port expected)) s

/-- REPLAY_START (06 R162). -/
def execReplayStart (port : PortNo) (first : Count) (cause : Byte) (s : State) : Host.Outcome State Fault Refusal :=
  act (onPacket port tyReplayStart false (leBytes 5 first.toNat ++ [cause])
    (doReplayStart port first)) s

/-- CNAK (06 R167). -/
def execCnak (port : PortNo) (cexpected : BitVec 16) (s : State) : Host.Outcome State Fault Refusal :=
  act (onPacket port tyCnak false (leBytes 2 cexpected.toNat)
    (doCnak port cexpected)) s

/-- REPLAY_TIMEOUT (06 R164). -/
def execReplayTimeout (port : PortNo) (s : State) : Host.Outcome State Fault Refusal :=
  act (doReplayTimeout port) s

/-- REPLAY_START_WAIT_TIMEOUT (06 R164). -/
def execReplayStartWaitTimeout (port : PortNo) (s : State) : Host.Outcome State Fault Refusal :=
  act (doReplayStartWait port) s

/-- CONTROL_REPLAY_TIMEOUT (06 R167). -/
def execControlReplayTimeout (port : PortNo) (s : State) : Host.Outcome State Fault Refusal :=
  act (doControlTimeout port) s

/-- PAUSE_LIMIT_EXPIRY (06 R173). -/
def execPauseLimitExpiry (port : PortNo) (vcb : Fin 8) (s : State) : Host.Outcome State Fault Refusal :=
  act (doPauseLimit port vcb) s

/-- HANDOVER (06 R178). -/
def execHandover (port : PortNo) (deadPort : Byte) (expected nextTx : Count) (s : State) : Host.Outcome State Fault Refusal :=
  act (onPacket port tyHandover false ([deadPort] ++ leBytes 5 expected.toNat ++ leBytes 5 nextTx.toNat)
    (doHandover port expected)) s

/-- HANDOVER_DONE (06 R178): the partner has resent its flits, which this side holds for by R179; nothing else follows. -/
def execHandoverDone (port : PortNo) (deadPort : Byte) (flits : BitVec 16) (s : State) : Host.Outcome State Fault Refusal :=
  act (onPacket port tyHandoverDone false ([deadPort] ++ leBytes 2 flits.toNat)
    (id)) s

/-- HANDOVER_TIMEOUT (06 R180). -/
def execHandoverTimeout (port : PortNo) (s : State) : Host.Outcome State Fault Refusal :=
  act (doHandoverTimeout port) s

/-- TWIN_HOLD_RELEASE (06 R179). -/
def execTwinHoldRelease (port : PortNo) (s : State) : Host.Outcome State Fault Refusal :=
  act (doHoldRelease port) s

/-- HANDBACK_MARK (06 R181). -/
def execHandbackMark (port : PortNo) (restored : Byte) (s : State) : Host.Outcome State Fault Refusal :=
  act (onPacket port tyHandbackMark false ([restored])
    (doHandbackMark port)) s

/-- PARK (03 R74). -/
def execPark (port : PortNo) (parking : Byte) (s : State) : Host.Outcome State Fault Refusal :=
  act (onPacket port tyPark false ([parking])
    (doPark port parking)) s

/-- RETRAIN_REQ (06 R469). -/
def execRetrainReq (port : PortNo) (fullCal : Byte) (s : State) : Host.Outcome State Fault Refusal :=
  act (onPacket port tyRetrainReq false ([fullCal])
    (doRetrainReq port fullCal)) s

/-- FENCE_NOTICE (06 R175). -/
def execFenceNotice (port : PortNo) (cause : Byte) (s : State) : Host.Outcome State Fault Refusal :=
  act (onPacket port tyFenceNotice false ([cause])
    (doFenceNotice port cause)) s

/-- STUCK_NOTICE (06 R173). -/
def execStuckNotice (port : PortNo) (vcb : Byte) (s : State) : Host.Outcome State Fault Refusal :=
  act (onPacket port tyStuckNotice false ([vcb])
    (doStuckNotice port)) s

/-- MISBEHAVIOUR_WINDOW (06 R182). -/
def execMisbehaviourWindow (port : PortNo) (s : State) : Host.Outcome State Fault Refusal :=
  act (doMisbehaviourWindow port) s

/-- ADMIT_ID (16 R435). -/
def execAdmitId (port : PortNo) (machineId : BitVec 128) (endpoint : BitVec 32) (peerPort : Byte) (s : State) : Host.Outcome State Fault Refusal :=
  act (onPacket port tyAdmitId false (leBytes 16 machineId.toNat ++ leBytes 4 endpoint.toNat ++ [peerPort])
    (doAdmitId port machineId endpoint peerPort)) s

/-- ADMIT_NONCE (16 R435). -/
def execAdmitNonce (port : PortNo) (nonce : BitVec 192) (s : State) : Host.Outcome State Fault Refusal :=
  act (onPacket port tyAdmitNonce false (leBytes 24 nonce.toNat)
    (doAdmitNonce port nonce)) s

/-- ADMIT_MAC (16 R435). -/
def execAdmitMac (port : PortNo) (part : Bool) (half : BitVec 192) (s : State) : Host.Outcome State Fault Refusal :=
  act (onPacket port tyAdmitMac part (leBytes 24 half.toNat)
    (doAdmitMac port part half)) s

/-- ADMIT_RESULT (16 R435). -/
def execAdmitResult (port : PortNo) (res cause : Byte) (s : State) : Host.Outcome State Fault Refusal :=
  act (onPacket port tyAdmitResult false ([res, cause])
    (doAdmitResult port res cause)) s

/-- ADMISSION_TIMEOUT (16 R436). -/
def execAdmissionTimeout (port : PortNo) (s : State) : Host.Outcome State Fault Refusal :=
  act (doAdmissionTimeout port) s

/-- ADMISSION_RESTART_TIMER (16 R436). -/
def execAdmissionRestartTimer (port : PortNo) (s : State) : Host.Outcome State Fault Refusal :=
  act (doAdmissionRestart port) s

/-- RANK_DIGEST (07 R192). -/
def execRankDigest (port : PortNo) (part : Bool) (half : BitVec 192) (s : State) : Host.Outcome State Fault Refusal :=
  act (onPacket port tyRankDigest part (leBytes 24 half.toNat)
    (takeDigest port part half)) s

/-- ROUTE_BREAK (07 R199). -/
def execRouteBreak (port : PortNo) (dim link state : Byte) (origin : BitVec 32) (seq : BitVec 16) (s : State) : Host.Outcome State Fault Refusal :=
  act (onPacket port tyRouteBreak false ([dim, link, state, 0] ++ leBytes 4 origin.toNat ++ leBytes 2 seq.toNat)
    (takeNotice port dim.toNat link.toNat state.toNat origin seq)) s

/-- ROUTE_RESTORE_HOLD_EXPIRY (07 R196). -/
def execRouteRestoreHoldExpiry (dir : Fin 6) (s : State) : Host.Outcome State Fault Refusal :=
  act (doRestoreHold dir) s

/-- RTE_RANK: a write of the rank window (07 R191). -/
def execRteRank (w : Fin 65536) (a : RegAcc) (s : State) : Host.Outcome State Fault Refusal :=
  act (cmdWrite (0x280000 + 8 * w) a) s

/-- RTE_RANK_COMMIT: a write of that register (07 R191). -/
def execRteRankCommit (a : RegAcc) (s : State) : Host.Outcome State Fault Refusal :=
  act (cmdWrite 0x200040 a) s

/-- DIGEST_COMPUTED (07 R191). -/
def execDigestComputed (s : State) : Host.Outcome State Fault Refusal :=
  act doDigestComputed s

end Sys2Proof.Machine
end

