-- ==== Sys2Proof/Machine/CmdMemory.lean ====
section
/-! DEFINITION. The commands of the memory port, the load/store aperture and the interrupt port (02, 08, 14). -/

namespace Sys2Proof.Machine

/-- MEM_READ_DATA (02 R34): a beat for no outstanding read concerns no request and changes nothing (log entry 114). -/
def execMemReadData (ch : Fin 16) (tag : Fin 512) (data : List Byte) (err : BitVec 2) (s : State) : Host.Outcome State Fault Refusal :=
  act (fun s => match findReq s ch false tag with | some r => takeBeat r data err s | none => s) s

/-- MEM_WRITE_RESPONSE (02 R35); log entry 114. -/
def execMemWriteResponse (ch : Fin 16) (tag : Fin 512) (err : BitVec 2) (s : State) : Host.Outcome State Fault Refusal :=
  act (fun s => match findReq s ch true tag with | some r => takeWriteRsp r err s | none => s) s

/-- LOAD (08 R240). -/
def execLoad (r : LsaReq) (s : State) : Host.Outcome State Fault Refusal :=
  act (aperRequest .load false r) s

/-- LOAD_RELAXED (08 R240). -/
def execLoadRelaxed (r : LsaReq) (s : State) : Host.Outcome State Fault Refusal :=
  act (aperRequest .load true r) s

/-- STORE (08 R240, R243, R471). -/
def execStore (r : LsaReq) (s : State) : Host.Outcome State Fault Refusal :=
  act (aperRequest .store false r) s

/-- STORE_RELAXED (08 R240, R471). -/
def execStoreRelaxed (r : LsaReq) (s : State) : Host.Outcome State Fault Refusal :=
  act (aperRequest .store true r) s

/-- APERTURE_ATOMIC (08 R240, R242). -/
def execApertureAtomic (r : LsaReq) (s : State) : Host.Outcome State Fault Refusal :=
  act (aperRequest .atomic false r) s

/-- ATOMIC_RELAXED (08 R240, R242). -/
def execAtomicRelaxed (r : LsaReq) (s : State) : Host.Outcome State Fault Refusal :=
  act (aperRequest .atomic true r) s

/-- APERTURE_FENCE (08 R240). -/
def execApertureFence (r : LsaReq) (s : State) : Host.Outcome State Fault Refusal :=
  act (fenceRequest r) s

/-- INTERRUPT_MESSAGE_TRANSFER (14 R385, 02 R46); none before ready (02 R39). -/
def execInterruptMessageTransfer (s : State) : Host.Outcome State Fault Refusal :=
  act (fun s => onlyIf s.pins.ready doInterruptTransfer s) s

/-- INTERRUPT_TIME_LIMIT (14 R383). -/
def execInterruptTimeLimit (p v : PartNo) (s : State) : Host.Outcome State Fault Refusal :=
  act (doInterruptTimeLimit p v) s

/-- RESPONSE_TIMEOUT (08 R225). -/
def execResponseTimeout (tracker : Fin 131072) (s : State) : Host.Outcome State Fault Refusal :=
  act (doResponseTimeout tracker) s

/-- REPLAY_ENTRY_EXPIRY (08 R234). -/
def execReplayEntryExpiry (source tag : BitVec 32) (s : State) : Host.Outcome State Fault Refusal :=
  act (fun s => retryStalled (doReplayExpiry source tag s)) s

/-- OPEN_RUN_GAP_EXPIRY (08 R211). -/
def execOpenRunGapExpiry (source tag : BitVec 32) (s : State) : Host.Outcome State Fault Refusal :=
  act (doOpenRunGap source tag) s

end Sys2Proof.Machine
end

