-- ==== Sys2Proof/Machine/CmdMessages.lean ====
section
/-! DEFINITION. The messages that arrive at the block (07, 08, 11).  A message is taken from the place it waits in by the
command of its opcode; a request of a reserved opcode by READ, such a response by ACK, such a collective message by COLL_ABORT
(log entry 14). -/

namespace Sys2Proof.Machine

/-- The commands that take a message at this endpoint. -/
inductive Taker where
  | read | write | cont | fill | atomic | ack | readData | atomicResult | release | management
  | collOpen | collCont | collCredit | collAbort
  deriving DecidableEq, Repr, Inhabited

/-- The command that takes a message of an opcode (08 R208, 11 R324). -/
def takerOf (op : Byte) : Taker :=
  if vcOf op = 3 then .management
  else if vcOf op = 2 then
    (if op = opCollOpen then .collOpen else if op = opCollCont then .collCont else if op = opCollCredit then .collCredit else .collAbort)
  else if vcOf op = 1 then
    (if op = opReadData then .readData else if op = opAtomicResult then .atomicResult else if op = opRelease then .release else .ack)
  else if op = opWrite then .write else if op = opCont then .cont else if op = opFill then .fill
  else if op = opAtomic then .atomic else .read

/-- A message is this command's to take. -/
def ownMessage (t : Taker) (op : Byte) : Bool := takerOf op == t

/-- TRANSIT_FORWARD (07 R203). -/
def execTransitForward (port : PortNo) (vcb : Fin 8) (m : Msg) (s : State) : Host.Outcome State Fault Refusal :=
  act (doTransit port vcb m) s

/-- READ (08 R212). -/
def execRead (arr : Arrival) (m : Msg) (s : State) : Host.Outcome State Fault Refusal :=
  act (onlyIf (ownMessage .read m.opcode) (doRead arr m)) s

/-- WRITE (08 R211). -/
def execWrite (arr : Arrival) (m : Msg) (s : State) : Host.Outcome State Fault Refusal :=
  act (onlyIf (ownMessage .write m.opcode) (doWrite arr m)) s

/-- CONT (08 R211). -/
def execCont (arr : Arrival) (m : Msg) (s : State) : Host.Outcome State Fault Refusal :=
  act (onlyIf (ownMessage .cont m.opcode) (doCont arr m)) s

/-- FILL_MESSAGE (08 R208). -/
def execFillMessage (arr : Arrival) (m : Msg) (s : State) : Host.Outcome State Fault Refusal :=
  act (onlyIf (ownMessage .fill m.opcode) (doFill arr m)) s

/-- ATOMIC (08 R233). -/
def execAtomic (arr : Arrival) (m : Msg) (s : State) : Host.Outcome State Fault Refusal :=
  act (onlyIf (ownMessage .atomic m.opcode) (doAtomic arr m)) s

/-- ACK (08 R223). -/
def execAck (arr : Arrival) (m : Msg) (s : State) : Host.Outcome State Fault Refusal :=
  act (onlyIf (ownMessage .ack m.opcode) (doAck arr m)) s

/-- READ_DATA (08 R229). -/
def execReadData (arr : Arrival) (m : Msg) (s : State) : Host.Outcome State Fault Refusal :=
  act (onlyIf (ownMessage .readData m.opcode) (doReadData arr m)) s

/-- ATOMIC_RESULT (08 R219). -/
def execAtomicResult (arr : Arrival) (m : Msg) (s : State) : Host.Outcome State Fault Refusal :=
  act (onlyIf (ownMessage .atomicResult m.opcode) (doAtomicResult arr m)) s

/-- RELEASE (08 R234). -/
def execRelease (arr : Arrival) (m : Msg) (s : State) : Host.Outcome State Fault Refusal :=
  act (onlyIf (ownMessage .release m.opcode) (doRelease arr m)) s

/-- MANAGEMENT_MESSAGE (08 R208). -/
def execManagementMessage (arr : Arrival) (m : Msg) (s : State) : Host.Outcome State Fault Refusal :=
  act (onlyIf (ownMessage .management m.opcode) (doManagement arr m)) s

/-- COLL_OPEN (11 R325). -/
def execCollOpen (arr : Arrival) (m : Msg) (s : State) : Host.Outcome State Fault Refusal :=
  act (onlyIf (ownMessage .collOpen m.opcode) (doCollOpen arr m)) s

/-- COLL_CONT (11 R325). -/
def execCollCont (arr : Arrival) (m : Msg) (s : State) : Host.Outcome State Fault Refusal :=
  act (onlyIf (ownMessage .collCont m.opcode) (doCollCont arr m)) s

/-- COLL_CREDIT (11 R321). -/
def execCollCredit (arr : Arrival) (m : Msg) (s : State) : Host.Outcome State Fault Refusal :=
  act (onlyIf (ownMessage .collCredit m.opcode) (doCollCredit arr m)) s

/-- COLL_ABORT (11 R328). -/
def execCollAbort (arr : Arrival) (m : Msg) (s : State) : Host.Outcome State Fault Refusal :=
  act (onlyIf (ownMessage .collAbort m.opcode) (doCollAbort arr m)) s

end Sys2Proof.Machine
end

