-- ==== Sys2Proof/Machine/CmdPins.lean ====
section
/-! DEFINITION. The commands of the pins, of start-up and of power (02, 03, 04). -/

namespace Sys2Proof.Machine


/-- COLD_RESET_ASSERT (02 R55): a block already in cold reset stays there. -/
def execColdResetAssert (s : State) : Host.Outcome State Fault Refusal :=
  .next (doColdReset s)

/-- COLD_START (04 R104, 02 R50). -/
def execColdStart (sbAddr : BitVec 2) (lowUs : Nat) (s : State) : Host.Outcome State Fault Refusal :=
  .next (doColdStart sbAddr lowUs s)

/-- ROOT_PLL_LOCK (02 R60). -/
def execRootPllLock (s : State) : Host.Outcome State Fault Refusal :=
  .next (doPllLock s)

/-- ROOT_PLL_UNLOCK (02 R54). -/
def execRootPllUnlock (s : State) : Host.Outcome State Fault Refusal :=
  .next (doPllUnlock s)

/-- RAIL_OUT_OF_TOLERANCE (02 R63). -/
def execRailOutOfTolerance (s : State) : Host.Outcome State Fault Refusal :=
  .next (doRailOut s)

/-- LANE_PLL_UNLOCK (03 R68). -/
def execLanePllUnlock (port : PortNo) (s : State) : Host.Outcome State Fault Refusal :=
  act (doLanePllUnlock port) s

/-- PHASE_END (04 R107). -/
def execPhaseEnd (obs : PhaseObs) (s : State) : Host.Outcome State Fault Refusal :=
  act (doPhaseEnd obs) s

/-- TELEMETRY_SAMPLE (03 R91). -/
def execTelemetrySample (core lane09 lane12 : Option RailRead) (s : State) : Host.Outcome State Fault Refusal :=
  act (doTelemetry core lane09 lane12) s

/-- POLICY: a write of PWR_STATE (03 R71). -/
def execPolicy (a : RegAcc) (s : State) : Host.Outcome State Fault Refusal :=
  act (cmdWrite 0x10008 a) s

/-- ELECTRICAL_IDLE_ENTRY (03 R72). -/
def execElectricalIdleEntry (port : PortNo) (s : State) : Host.Outcome State Fault Refusal :=
  act (doIdleEnter port) s

/-- ELECTRICAL_IDLE_EXIT (05 R136). -/
def execElectricalIdleExit (port : PortNo) (s : State) : Host.Outcome State Fault Refusal :=
  act (doIdleExit port) s

/-- IDLE_EXIT_TIMEOUT (05 R137). -/
def execIdleExitTimeout (port : PortNo) (s : State) : Host.Outcome State Fault Refusal :=
  act (doIdleExitTimeout port) s

/-- P2_DRAIN_COMPLETE (03 R73). -/
def execP2DrainComplete (s : State) : Host.Outcome State Fault Refusal :=
  act doP2Drained s

/-- P2_DRAIN_TIMEOUT (03 R73). -/
def execP2DrainTimeout (s : State) : Host.Outcome State Fault Refusal :=
  act doP2Timeout s

/-- POWER_TRANSITION_COMPLETE (03 R75). -/
def execPowerTransitionComplete (s : State) : Host.Outcome State Fault Refusal :=
  act doTransition s

/-- HOST_CEIL: a write of PWR_CEIL_HOST (03 R85). -/
def execHostCeil (a : RegAcc) (s : State) : Host.Outcome State Fault Refusal :=
  act (cmdWrite 0x10018 a) s

/-- THROTTLE_TICK (03 R86). -/
def execThrottleTick (s : State) : Host.Outcome State Fault Refusal :=
  act doThrottleTick s

/-- THROTTLE_INTERVAL (03 R90). -/
def execThrottleInterval (port : PortNo) (begins : Bool) (s : State) : Host.Outcome State Fault Refusal :=
  act (doThrottleInterval port begins) s

end Sys2Proof.Machine
end

