-- ==== Sys2Proof/Machine/CmdQueues.lean ====
section
/-! DEFINITION. The commands of contexts, queues, descriptors and counters (09), of translation (10) and of import windows (10). -/

namespace Sys2Proof.Machine

/-- The write of CTX_CMD that gives a command (09, CTX_CMD). -/
def ctxCommand (code : Nat) (c : CtxCmd) : State → State :=
  cmdWrite (0x500000 + 0x10 * c.slot) { par := c.par, be := 0xFF
                                        value := c.arg ++ c.rsv ++ c.object ++ BitVec.ofNat 8 code }

/-- 1 s has passed since a tag was set aside: it is usable again (10 R284). -/
def doTagBack (tag : Byte) (s : State) : State :=
  if s.xlt.setAside.any (fun x => x.1 == tag) then tagBack tag s else s

/-- DOORBELL: a write of the queue's doorbell (09 R256). -/
def execDoorbell (q : QueueNo) (a : RegAcc) (s : State) : Host.Outcome State Fault Refusal :=
  act (cmdWrite (0x400000 + 0x40 * q) a) s

/-- CTX_OPEN (09 R246). -/
def execCtxOpen (c : CtxCmd) (s : State) : Host.Outcome State Fault Refusal :=
  act (ctxCommand cmdCtxOpen c) s

/-- CTX_CLOSE (09 R247). -/
def execCtxClose (c : CtxCmd) (s : State) : Host.Outcome State Fault Refusal :=
  act (ctxCommand cmdCtxClose c) s

/-- Q_BIND (09 R253). -/
def execQBind (c : CtxCmd) (s : State) : Host.Outcome State Fault Refusal :=
  act (ctxCommand cmdQBind c) s

/-- Q_UNBIND (09 R253). -/
def execQUnbind (c : CtxCmd) (s : State) : Host.Outcome State Fault Refusal :=
  act (ctxCommand cmdQUnbind c) s

/-- Q_ENABLE (09 R253). -/
def execQEnable (c : CtxCmd) (s : State) : Host.Outcome State Fault Refusal :=
  act (ctxCommand cmdQEnable c) s

/-- Q_HALT (09 R253). -/
def execQHalt (c : CtxCmd) (s : State) : Host.Outcome State Fault Refusal :=
  act (ctxCommand cmdQHalt c) s

/-- Q_RESUME (09 R253). -/
def execQResume (c : CtxCmd) (s : State) : Host.Outcome State Fault Refusal :=
  act (ctxCommand cmdQResume c) s

/-- DESCRIPTOR_START (09 R258). -/
def execDescriptorStart (q : QueueNo) (s : State) : Host.Outcome State Fault Refusal :=
  act (startNext q) s

/-- COPY (09 R263, R264). -/
def execCopy (run : Nat) (s : State) : Host.Outcome State Fault Refusal :=
  act (onRun dCopy run (fun r => moverTurn r.id)) s

/-- FILL (09 R263, R264). -/
def execFill (run : Nat) (s : State) : Host.Outcome State Fault Refusal :=
  act (onRun dFill run (fun r => moverTurn r.id)) s

/-- DIGEST (09 R263, R267). -/
def execDigest (run : Nat) (s : State) : Host.Outcome State Fault Refusal :=
  act (onRun dDigest run (fun r => moverTurn r.id)) s

/-- SEALED_COPY (09 R268, 16 R441). -/
def execSealedCopy (run : Nat) (s : State) : Host.Outcome State Fault Refusal :=
  act (onRun dSealed run sealedTurn) s

/-- PREFETCH (10 R301). -/
def execPrefetch (run : Nat) (s : State) : Host.Outcome State Fault Refusal :=
  act (onRun dPrefetch run (fun r => walkStep r.id)) s

/-- ADVISE (10 R302). -/
def execAdvise (run : Nat) (s : State) : Host.Outcome State Fault Refusal :=
  act (onRun dAdvise run (fun r => walkStep r.id)) s

/-- WAIT (09 R269). -/
def execWait (run : Nat) (s : State) : Host.Outcome State Fault Refusal :=
  act (onRun dWait run waitTurn) s

/-- SIGNAL (09 R263). -/
def execSignal (run : Nat) (s : State) : Host.Outcome State Fault Refusal :=
  act (onRun dSignal run signalTurn) s

/-- TRIGGER (09 R270). -/
def execTrigger (run : Nat) (s : State) : Host.Outcome State Fault Refusal :=
  act (onRun dTrigger run triggerTurn) s

/-- TRIGGERED_OPERATION_RUN (09 R270). -/
def execTriggeredOperationRun (id : Nat) (s : State) : Host.Outcome State Fault Refusal :=
  act (runTriggered id) s

/-- COLLECTIVE (11 R307). -/
def execCollective (run : Nat) (s : State) : Host.Outcome State Fault Refusal :=
  act (onRun dCollective run collTurn) s

/-- NOP (09 R263). -/
def execNop (run : Nat) (s : State) : Host.Outcome State Fault Refusal :=
  act (onRun dNop run (fun r => onlyIf (r.phase == .active) (endRun r.id stOk))) s

/-- FENCE_DESCRIPTOR (09 R258, 08 R217). -/
def execFenceDescriptor (run : Nat) (s : State) : Host.Outcome State Fault Refusal :=
  act (onRun dFence run fenceTurn) s

/-- DONE_WRITTEN (09 R265). -/
def execDoneWritten (run : Nat) (s : State) : Host.Outcome State Fault Refusal :=
  act (doDoneWritten run) s

/-- WAIT_LIMIT_EXPIRY (09 R269). -/
def execWaitLimitExpiry (run : Nat) (s : State) : Host.Outcome State Fault Refusal :=
  act (onRun dWait run (fun r => onlyIf (r.phase == .holding && r.num 20 4 != 0) (endRun r.id stTimeout))) s

/-- PERIOD_END (09 R273). -/
def execPeriodEnd (q : QueueNo) (s : State) : Host.Outcome State Fault Refusal :=
  act (doPeriodEnd q) s

/-- TEARDOWN_RESOLVED (09 R247). -/
def execTeardownResolved (ctx : CtxNo) (s : State) : Host.Outcome State Fault Refusal :=
  act (doTeardownResolved ctx) s

/-- QUARANTINE_EXPIRY (09 R246). -/
def execQuarantineExpiry (ctx : CtxNo) (s : State) : Host.Outcome State Fault Refusal :=
  act (doQuarantineExpiry ctx) s

/-- CNT_VALUE: a write of a counter (09 R271). -/
def execCntValue (k : Fin 65536) (a : RegAcc) (s : State) : Host.Outcome State Fault Refusal :=
  act (cmdWrite (0x600000 + 8 * k) a) s

/-- CNT_ADD: an addition to a counter (09 R271). -/
def execCntAdd (k : Fin 65536) (a : RegAcc) (s : State) : Host.Outcome State Fault Refusal :=
  act (cmdWrite (0x680000 + 8 * k) a) s

/-- TRANSLATION_REPLY (10 R282). -/
def execTranslationReply (data : BitVec 256) (s : State) : Host.Outcome State Fault Refusal :=
  act (doReply data) s

/-- TRANSLATION_TIMEOUT (10 R284). -/
def execTranslationTimeout (tag : Byte) (s : State) : Host.Outcome State Fault Refusal :=
  act (doXltTimeout tag) s

/-- TAG_SET_ASIDE_EXPIRY (10 R284). -/
def execTagSetAsideExpiry (tag : Byte) (s : State) : Host.Outcome State Fault Refusal :=
  act (doTagBack tag) s

/-- FAULT_RECORD_WRITTEN (10 R299, R300). -/
def execFaultRecordWritten (p : PartNo) (err : BitVec 2) (s : State) : Host.Outcome State Fault Refusal :=
  act (doFaultRecordWritten p err) s

/-- INVALIDATE: a write of XLT_INV_CMD (10 R290). -/
def execInvalidate (slot : Fin 17) (a : RegAcc) (s : State) : Host.Outcome State Fault Refusal :=
  act (cmdWrite (0x800110 + 0x20 * slot) a) s

/-- INVALIDATE_COMPLETE (10 R290). -/
def execInvalidateComplete (slot : Fin 17) (s : State) : Host.Outcome State Fault Refusal :=
  act (invComplete slot) s

/-- XLT_FQ_CFG: a write of that register (10 R296). -/
def execXltFqCfg (p : PartNo) (a : RegAcc) (s : State) : Host.Outcome State Fault Refusal :=
  act (cmdWrite (0x801008 + 0x20 * p) a) s

/-- XLT_FQ_PTRS: a write of that register (10 R296). -/
def execXltFqPtrs (p : PartNo) (a : RegAcc) (s : State) : Host.Outcome State Fault Refusal :=
  act (cmdWrite (0x801010 + 0x20 * p) a) s

/-- XLT_STICKY: a write of that register (10 R298). -/
def execXltSticky (w : Fin 16) (a : RegAcc) (s : State) : Host.Outcome State Fault Refusal :=
  act (cmdWrite (0x802000 + 8 * w) a) s

/-- ENABLE: a write of XLT_WIN_CTRL (10 R305). -/
def execEnable (w : Fin 4096) (a : RegAcc) (s : State) : Host.Outcome State Fault Refusal :=
  act (cmdWrite (0x880020 + 0x40 * w) a) s

/-- WITHDRAW: a write of XLT_WIN_CTRL (10 R306). -/
def execWithdraw (w : Fin 4096) (a : RegAcc) (s : State) : Host.Outcome State Fault Refusal :=
  act (cmdWrite (0x880020 + 0x40 * w) a) s

/-- WINDOW_WITHDRAWAL_COMPLETE (10 R306). -/
def execWindowWithdrawalComplete (w : Fin 4096) (s : State) : Host.Outcome State Fault Refusal :=
  act (doWindowDone w) s

end Sys2Proof.Machine
end

