-- ==== Sys2Proof/Machine/CmdSideband.lean ====
section
/-! DEFINITION. The commands of the sideband (16 R447 to R455). -/

namespace Sys2Proof.Machine

/-- IDENTIFY (16 R449). -/
def execIdentify (pec : Bool) (s : State) : Host.Outcome State Fault Refusal :=
  sideband pec 0x01 (fun s => (stOk, mgIdentify s, s)) s

/-- GET_EPOCH (16 R456). -/
def execGetEpoch (pec : Bool) (s : State) : Host.Outcome State Fault Refusal :=
  sideband pec 0x02 (fun s => (stOk, mgEpoch s, s)) s

/-- READ_REG (16 R449). -/
def execReadReg (pec : Bool) (offset : BitVec 32) (count : Byte) (s : State) : Host.Outcome State Fault Refusal :=
  sideband pec 0x03 (mgReadReg offset.toNat count.toNat) s

/-- WRITE_REG (16 R450). -/
def execWriteReg (pec : Bool) (offset : BitVec 32) (value : Word) (mask : BitVec 8) (s : State) : Host.Outcome State Fault Refusal :=
  sideband pec 0x04 (mgWriteReg offset.toNat value mask) s

/-- SET_CEILING (03 R83). -/
def execSetCeiling (pec : Bool) (ceil : BitVec 16) (shed : Byte) (s : State) : Host.Outcome State Fault Refusal :=
  sideband pec 0x05 (sbCeiling ceil shed) s

/-- SET_POWER (16 R449). -/
def execSetPower (pec : Bool) (target : Byte) (s : State) : Host.Outcome State Fault Refusal :=
  sideband pec 0x06 (sbPower target) s

/-- TELEMETRY (16 R449). -/
def execTelemetry (pec : Bool) (s : State) : Host.Outcome State Fault Refusal :=
  sideband pec 0x07 (fun s => (stOk, mgTelemetry s, s)) s

/-- PORT_STATUS (16 R449). -/
def execPortStatus (pec : Bool) (port : Byte) (s : State) : Host.Outcome State Fault Refusal :=
  sideband pec 0x08 (mgPortStatus port.toNat) s

/-- RETRAIN (16 R449). -/
def execRetrain (pec : Bool) (port fullCal : Byte) (s : State) : Host.Outcome State Fault Refusal :=
  sideband pec 0x09 (sbRetrain port fullCal) s

/-- RESET_PARTITION (14 R398). -/
def execResetPartition (pec : Bool) (p : Byte) (s : State) : Host.Outcome State Fault Refusal :=
  sideband pec 0x0A (sbReset 1 p (orderPartReset (partNo p.toNat))) s

/-- RESET_ENGINE_DOMAIN (14 R400). -/
def execResetEngineDomain (pec : Bool) (s : State) : Host.Outcome State Fault Refusal :=
  sideband pec 0x0A (sbReset 2 0 orderEngineReset) s

/-- RESET_STEWARD (15 R419). -/
def execResetSteward (pec : Bool) (s : State) : Host.Outcome State Fault Refusal :=
  sideband pec 0x0A (sbReset 3 0 (fun s => (stOk, startRestart s))) s

/-- RESET_CAPTURE (15 R424). -/
def execResetCapture (pec : Bool) (s : State) : Host.Outcome State Fault Refusal :=
  sideband pec 0x0A (sbReset 4 0 (fun s => (stOk, capture 6 .all 0 s))) s

/-- DRAIN (15 R425). -/
def execDrain (pec : Bool) (s : State) : Host.Outcome State Fault Refusal :=
  sideband pec 0x0B sbDrain s

/-- RANK_WRITE (07 R191). -/
def execRankWrite (pec : Bool) (first : BitVec 32) (entries : List (BitVec 32)) (s : State) : Host.Outcome State Fault Refusal :=
  sideband pec 0x0C (sbRankWrite first.toNat entries) s

/-- RANK_COMMIT (07 R191). -/
def execRankCommit (pec : Bool) (s : State) : Host.Outcome State Fault Refusal :=
  sideband pec 0x0D sbRankCommit s

/-- REPORTS (16 R452). -/
def execReports (pec : Bool) (ackSeq : BitVec 32) (s : State) : Host.Outcome State Fault Refusal :=
  sideband pec 0x0E (sbReports ackSeq) s

/-- DIRECTED, ACTION 1 (16 R453). -/
def execDirectedHold (pec : Bool) (s : State) : Host.Outcome State Fault Refusal :=
  sideband pec 0x10 sbHold s

/-- DIRECTED, ACTION 2 (04 R113). -/
def execDirectedStep (pec : Bool) (s : State) : Host.Outcome State Fault Refusal :=
  sideband pec 0x10 sbStep s

/-- DIRECTED, ACTION 3 (04 R113). -/
def execDirectedResume (pec : Bool) (s : State) : Host.Outcome State Fault Refusal :=
  sideband pec 0x10 sbResume s

/-- DIRECTED, ACTION 4 (16 R453). -/
def execDirectedLeave (pec : Bool) (s : State) : Host.Outcome State Fault Refusal :=
  sideband pec 0x10 sbLeave s

/-- TEST 1 (13 R372). -/
def execTestDestructiveMarch (pec : Bool) (s : State) : Host.Outcome State Fault Refusal :=
  sideband pec 0x11 (sbTest 1 (testMarch false)) s

/-- TEST 2 (13 R374). -/
def execTestPreservingMarch (pec : Bool) (s : State) : Host.Outcome State Fault Refusal :=
  sideband pec 0x11 (sbTest 2 (testMarch true)) s

/-- TEST 3 (12 R356). -/
def execTestBeaterSelfTest (pec : Bool) (s : State) : Host.Outcome State Fault Refusal :=
  sideband pec 0x11 (sbTest 3 testBeaters) s

/-- TEST 4 (06 R175). -/
def execTestPortEnter (pec : Bool) (port : Byte) (s : State) : Host.Outcome State Fault Refusal :=
  sideband pec 0x11 (sbPortTest 4 port testEnter) s

/-- TEST 5 (06 R175). -/
def execTestPortExit (pec : Bool) (port : Byte) (s : State) : Host.Outcome State Fault Refusal :=
  sideband pec 0x11 (sbPortTest 5 port testExit) s

/-- TEST 6 (05 R145). -/
def execTestLoop (pec : Bool) (port : Byte) (bits : BitVec 16) (s : State) : Host.Outcome State Fault Refusal :=
  sideband pec 0x11 (sbPortTest 6 port (fun n => testLoops n bits)) s

/-- NVM_READ (16 R449). -/
def execNvmRead (pec : Bool) (offset : BitVec 32) (len : Byte) (s : State) : Host.Outcome State Fault Refusal :=
  sideband pec 0x20 (mgNvmRead offset.toNat len.toNat) s

/-- NVM_ERASE (04 R105). -/
def execNvmErase (pec : Bool) (offset : BitVec 32) (size : Byte) (s : State) : Host.Outcome State Fault Refusal :=
  sideband pec 0x21 (mgNvmErase false offset.toNat size) s

/-- NVM_WRITE (04 R105). -/
def execNvmWrite (pec : Bool) (offset : BitVec 32) (data : List Byte) (s : State) : Host.Outcome State Fault Refusal :=
  sideband pec 0x22 (mgNvmWrite false offset.toNat data) s

/-- NVM_CHECK (04 R106). -/
def execNvmCheck (pec : Bool) (slot : Byte) (s : State) : Host.Outcome State Fault Refusal :=
  sideband pec 0x23 (mgNvmCheck false slot) s

/-- OP_STATE (16 R451). -/
def execOpState (pec : Bool) (s : State) : Host.Outcome State Fault Refusal :=
  sideband pec 0x24 (fun s => (stOk, mgOpState false s, s)) s

/-- ALERT_RESPONSE (16 R452). -/
def execAlertResponse (s : State) : Host.Outcome State Fault Refusal :=
  act doAlertResponse s

/-- BUS_RESET (16 R455). -/
def execBusReset (s : State) : Host.Outcome State Fault Refusal :=
  act doBusReset s

end Sys2Proof.Machine
end

