-- ==== Sys2Proof/Machine/Dispatch.lean ====
section
/-! DEFINITION. `exec`: one arm per command, each one direct call of its meaning. -/

namespace Sys2Proof.Machine

def exec (i : Instr) (s : State) : Host.Outcome State Fault Refusal :=
  match i with
  | .coldResetAssert => Sys2Proof.Machine.execColdResetAssert s
  | .coldStart sbAddr lowUs => Sys2Proof.Machine.execColdStart sbAddr lowUs s
  | .rootPllLock => Sys2Proof.Machine.execRootPllLock s
  | .rootPllUnlock => Sys2Proof.Machine.execRootPllUnlock s
  | .railOutOfTolerance => Sys2Proof.Machine.execRailOutOfTolerance s
  | .lanePllUnlock port => Sys2Proof.Machine.execLanePllUnlock port s
  | .phaseEnd obs => Sys2Proof.Machine.execPhaseEnd obs s
  | .registerWrite offset a => Sys2Proof.Machine.execRegisterWrite offset a s
  | .memReadData ch tag data err => Sys2Proof.Machine.execMemReadData ch tag data err s
  | .memWriteResponse ch tag err => Sys2Proof.Machine.execMemWriteResponse ch tag err s
  | .load r => Sys2Proof.Machine.execLoad r s
  | .loadRelaxed r => Sys2Proof.Machine.execLoadRelaxed r s
  | .store r => Sys2Proof.Machine.execStore r s
  | .storeRelaxed r => Sys2Proof.Machine.execStoreRelaxed r s
  | .apertureAtomic r => Sys2Proof.Machine.execApertureAtomic r s
  | .atomicRelaxed r => Sys2Proof.Machine.execAtomicRelaxed r s
  | .apertureFence r => Sys2Proof.Machine.execApertureFence r s
  | .interruptMessageTransfer => Sys2Proof.Machine.execInterruptMessageTransfer s
  | .interruptTimeLimit p v => Sys2Proof.Machine.execInterruptTimeLimit p v s
  | .translationReply data => Sys2Proof.Machine.execTranslationReply data s
  | .translationTimeout tag => Sys2Proof.Machine.execTranslationTimeout tag s
  | .tagSetAsideExpiry tag => Sys2Proof.Machine.execTagSetAsideExpiry tag s
  | .faultRecordWritten p err => Sys2Proof.Machine.execFaultRecordWritten p err s
  | .result m => Sys2Proof.Machine.execResult m s
  | .rotRequestTimeout tag => Sys2Proof.Machine.execRotRequestTimeout tag s
  | .setPolicy m => Sys2Proof.Machine.execSetPolicy m s
  | .telemetrySample core lane09 lane12 => Sys2Proof.Machine.execTelemetrySample core lane09 lane12 s
  | .policy a => Sys2Proof.Machine.execPolicy a s
  | .electricalIdleEntry port => Sys2Proof.Machine.execElectricalIdleEntry port s
  | .electricalIdleExit port => Sys2Proof.Machine.execElectricalIdleExit port s
  | .idleExitTimeout port => Sys2Proof.Machine.execIdleExitTimeout port s
  | .setPower pec target => Sys2Proof.Machine.execSetPower pec target s
  | .p2DrainComplete => Sys2Proof.Machine.execP2DrainComplete s
  | .p2DrainTimeout => Sys2Proof.Machine.execP2DrainTimeout s
  | .powerTransitionComplete => Sys2Proof.Machine.execPowerTransitionComplete s
  | .setCeiling pec ceil shed => Sys2Proof.Machine.execSetCeiling pec ceil shed s
  | .hostCeil a => Sys2Proof.Machine.execHostCeil a s
  | .throttleTick => Sys2Proof.Machine.execThrottleTick s
  | .throttleInterval port begins => Sys2Proof.Machine.execThrottleInterval port begins s
  | .detectPulse port => Sys2Proof.Machine.execDetectPulse port s
  | .partnerSignalDetect port lanes => Sys2Proof.Machine.execPartnerSignalDetect port lanes s
  | .trainingRetryTimer port => Sys2Proof.Machine.execTrainingRetryTimer port s
  | .trainingStepComplete port obs => Sys2Proof.Machine.execTrainingStepComplete port obs s
  | .laneBlock port lane header payload => Sys2Proof.Machine.execLaneBlock port lane header payload s
  | .marker port lane payload => Sys2Proof.Machine.execMarker port lane payload s
  | .train port lane payload => Sys2Proof.Machine.execTrain port lane payload s
  | .burst port lane => Sys2Proof.Machine.execBurst port lane s
  | .idleEntry port lane => Sys2Proof.Machine.execIdleEntry port lane s
  | .calender port logical spare epoch => Sys2Proof.Machine.execCalender port logical spare epoch s
  | .loopReq port close lanes => Sys2Proof.Machine.execLoopReq port close lanes s
  | .laneErrorWindow port corrected => Sys2Proof.Machine.execLaneErrorWindow port corrected s
  | .laneTemperatureRead port temp => Sys2Proof.Machine.execLaneTemperatureRead port temp s
  | .calenderStep port differing => Sys2Proof.Machine.execCalenderStep port differing s
  | .calenderRetryTimer port => Sys2Proof.Machine.execCalenderRetryTimer port s
  | .calenderAnswerTimeout port => Sys2Proof.Machine.execCalenderAnswerTimeout port s
  | .calenderDeferExpiry port => Sys2Proof.Machine.execCalenderDeferExpiry port s
  | .portRetrain port a => Sys2Proof.Machine.execPortRetrain port a s
  | .passNow port a => Sys2Proof.Machine.execPassNow port a s
  | .portLoopCtrl port a => Sys2Proof.Machine.execPortLoopCtrl port a s
  | .flitReceived port bytes badCodeword => Sys2Proof.Machine.execFlitReceived port bytes badCodeword s
  | .flitTransmit port => Sys2Proof.Machine.execFlitTransmit port s
  | .ackOwedTimeout port => Sys2Proof.Machine.execAckOwedTimeout port s
  | .linkInit port protocol version endpoint peerPort width broke rxbuf => Sys2Proof.Machine.execLinkInit port protocol version endpoint peerPort width broke rxbuf s
  | .rttProbe port tag => Sys2Proof.Machine.execRttProbe port tag s
  | .rttEcho port tag turn measured => Sys2Proof.Machine.execRttEcho port tag turn measured s
  | .nak port expected reason => Sys2Proof.Machine.execNak port expected reason s
  | .replayStart port first cause => Sys2Proof.Machine.execReplayStart port first cause s
  | .cnak port cexpected => Sys2Proof.Machine.execCnak port cexpected s
  | .replayTimeout port => Sys2Proof.Machine.execReplayTimeout port s
  | .replayStartWaitTimeout port => Sys2Proof.Machine.execReplayStartWaitTimeout port s
  | .controlReplayTimeout port => Sys2Proof.Machine.execControlReplayTimeout port s
  | .pauseLimitExpiry port vcb => Sys2Proof.Machine.execPauseLimitExpiry port vcb s
  | .handover port deadPort expected nextTx => Sys2Proof.Machine.execHandover port deadPort expected nextTx s
  | .handoverDone port deadPort flits => Sys2Proof.Machine.execHandoverDone port deadPort flits s
  | .handoverTimeout port => Sys2Proof.Machine.execHandoverTimeout port s
  | .twinHoldRelease port => Sys2Proof.Machine.execTwinHoldRelease port s
  | .handbackMark port restored => Sys2Proof.Machine.execHandbackMark port restored s
  | .park port parking => Sys2Proof.Machine.execPark port parking s
  | .retrainReq port fullCal => Sys2Proof.Machine.execRetrainReq port fullCal s
  | .fenceNotice port cause => Sys2Proof.Machine.execFenceNotice port cause s
  | .stuckNotice port vcb => Sys2Proof.Machine.execStuckNotice port vcb s
  | .misbehaviourWindow port => Sys2Proof.Machine.execMisbehaviourWindow port s
  | .admitId port machineId endpoint peerPort => Sys2Proof.Machine.execAdmitId port machineId endpoint peerPort s
  | .admitNonce port nonce => Sys2Proof.Machine.execAdmitNonce port nonce s
  | .admitMac port part half => Sys2Proof.Machine.execAdmitMac port part half s
  | .admitResult port res cause => Sys2Proof.Machine.execAdmitResult port res cause s
  | .admissionTimeout port => Sys2Proof.Machine.execAdmissionTimeout port s
  | .admissionRestartTimer port => Sys2Proof.Machine.execAdmissionRestartTimer port s
  | .rankDigest port part half => Sys2Proof.Machine.execRankDigest port part half s
  | .routeBreak port dim link state origin seq => Sys2Proof.Machine.execRouteBreak port dim link state origin seq s
  | .routeRestoreHoldExpiry dir => Sys2Proof.Machine.execRouteRestoreHoldExpiry dir s
  | .transitForward port vcb m => Sys2Proof.Machine.execTransitForward port vcb m s
  | .rteRank w a => Sys2Proof.Machine.execRteRank w a s
  | .rteRankCommit a => Sys2Proof.Machine.execRteRankCommit a s
  | .digestComputed => Sys2Proof.Machine.execDigestComputed s
  | .read arr m => Sys2Proof.Machine.execRead arr m s
  | .write arr m => Sys2Proof.Machine.execWrite arr m s
  | .cont arr m => Sys2Proof.Machine.execCont arr m s
  | .fillMessage arr m => Sys2Proof.Machine.execFillMessage arr m s
  | .atomic arr m => Sys2Proof.Machine.execAtomic arr m s
  | .ack arr m => Sys2Proof.Machine.execAck arr m s
  | .readData arr m => Sys2Proof.Machine.execReadData arr m s
  | .atomicResult arr m => Sys2Proof.Machine.execAtomicResult arr m s
  | .release arr m => Sys2Proof.Machine.execRelease arr m s
  | .managementMessage arr m => Sys2Proof.Machine.execManagementMessage arr m s
  | .openRunGapExpiry source tag => Sys2Proof.Machine.execOpenRunGapExpiry source tag s
  | .responseTimeout tracker => Sys2Proof.Machine.execResponseTimeout tracker s
  | .replayEntryExpiry source tag => Sys2Proof.Machine.execReplayEntryExpiry source tag s
  | .doorbell q a => Sys2Proof.Machine.execDoorbell q a s
  | .ctxOpen c => Sys2Proof.Machine.execCtxOpen c s
  | .ctxClose c => Sys2Proof.Machine.execCtxClose c s
  | .qBind c => Sys2Proof.Machine.execQBind c s
  | .qUnbind c => Sys2Proof.Machine.execQUnbind c s
  | .qEnable c => Sys2Proof.Machine.execQEnable c s
  | .qHalt c => Sys2Proof.Machine.execQHalt c s
  | .qResume c => Sys2Proof.Machine.execQResume c s
  | .descriptorStart q => Sys2Proof.Machine.execDescriptorStart q s
  | .copy run => Sys2Proof.Machine.execCopy run s
  | .fill run => Sys2Proof.Machine.execFill run s
  | .digest run => Sys2Proof.Machine.execDigest run s
  | .sealedCopy run => Sys2Proof.Machine.execSealedCopy run s
  | .prefetch run => Sys2Proof.Machine.execPrefetch run s
  | .advise run => Sys2Proof.Machine.execAdvise run s
  | .wait run => Sys2Proof.Machine.execWait run s
  | .signal run => Sys2Proof.Machine.execSignal run s
  | .trigger run => Sys2Proof.Machine.execTrigger run s
  | .triggeredOperationRun id => Sys2Proof.Machine.execTriggeredOperationRun id s
  | .collective run => Sys2Proof.Machine.execCollective run s
  | .nop run => Sys2Proof.Machine.execNop run s
  | .doneWritten run => Sys2Proof.Machine.execDoneWritten run s
  | .waitLimitExpiry run => Sys2Proof.Machine.execWaitLimitExpiry run s
  | .periodEnd q => Sys2Proof.Machine.execPeriodEnd q s
  | .teardownResolved ctx => Sys2Proof.Machine.execTeardownResolved ctx s
  | .quarantineExpiry ctx => Sys2Proof.Machine.execQuarantineExpiry ctx s
  | .cntValue k a => Sys2Proof.Machine.execCntValue k a s
  | .cntAdd k a => Sys2Proof.Machine.execCntAdd k a s
  | .invalidate slot a => Sys2Proof.Machine.execInvalidate slot a s
  | .invalidateComplete slot => Sys2Proof.Machine.execInvalidateComplete slot s
  | .xltFqCfg p a => Sys2Proof.Machine.execXltFqCfg p a s
  | .xltFqPtrs p a => Sys2Proof.Machine.execXltFqPtrs p a s
  | .xltSticky w a => Sys2Proof.Machine.execXltSticky w a s
  | .enable w a => Sys2Proof.Machine.execEnable w a s
  | .withdraw w a => Sys2Proof.Machine.execWithdraw w a s
  | .windowWithdrawalComplete w => Sys2Proof.Machine.execWindowWithdrawalComplete w s
  | .ringStepStart plan level ring => Sys2Proof.Machine.execRingStepStart plan level ring s
  | .pieceSend plan level x => Sys2Proof.Machine.execPieceSend plan level x s
  | .collOpen arr m => Sys2Proof.Machine.execCollOpen arr m s
  | .collCont arr m => Sys2Proof.Machine.execCollCont arr m s
  | .collCredit arr m => Sys2Proof.Machine.execCollCredit arr m s
  | .collAbort arr m => Sys2Proof.Machine.execCollAbort arr m s
  | .creditRepeatTimer plan level ring => Sys2Proof.Machine.execCreditRepeatTimer plan level ring s
  | .beaterPieceDone beater obs => Sys2Proof.Machine.execBeaterPieceDone beater obs s
  | .recomputeDone beater obs => Sys2Proof.Machine.execRecomputeDone beater obs s
  | .stepLimitExpiry plan => Sys2Proof.Machine.execStepLimitExpiry plan s
  | .faultStallExpiry plan => Sys2Proof.Machine.execFaultStallExpiry plan s
  | .scrubRow errs => Sys2Proof.Machine.execScrubRow errs s
  | .vatMarch a => Sys2Proof.Machine.execVatMarch a s
  | .marchComplete failed us => Sys2Proof.Machine.execMarchComplete failed us s
  | .vatWinAddr a => Sys2Proof.Machine.execVatWinAddr a s
  | .vatWinData isWrite a => Sys2Proof.Machine.execVatWinData isWrite a s
  | .btrSelftest a => Sys2Proof.Machine.execBtrSelftest a s
  | .selfTestComplete passed us => Sys2Proof.Machine.execSelfTestComplete passed us s
  | .reset p a => Sys2Proof.Machine.execReset p a s
  | .partitionResetDrained p => Sys2Proof.Machine.execPartitionResetDrained p s
  | .engineReset a => Sys2Proof.Machine.execEngineReset a s
  | .engineResetMemoryDrained => Sys2Proof.Machine.execEngineResetMemoryDrained s
  | .irqVecCtrl p v a => Sys2Proof.Machine.execIrqVecCtrl p v a s
  | .hangScan => Sys2Proof.Machine.execHangScan s
  | .heartbeat => Sys2Proof.Machine.execHeartbeat s
  | .watchdogFire => Sys2Proof.Machine.execWatchdogFire s
  | .stewardRestartComplete => Sys2Proof.Machine.execStewardRestartComplete s
  | .errCtrlDrain a => Sys2Proof.Machine.execErrCtrlDrain a s
  | .captureNow a => Sys2Proof.Machine.execCaptureNow a s
  | .arm a => Sys2Proof.Machine.execArm a s
  | .drainComplete => Sys2Proof.Machine.execDrainComplete s
  | .identify pec => Sys2Proof.Machine.execIdentify pec s
  | .getEpoch pec => Sys2Proof.Machine.execGetEpoch pec s
  | .readReg pec offset count => Sys2Proof.Machine.execReadReg pec offset count s
  | .writeReg pec offset value mask => Sys2Proof.Machine.execWriteReg pec offset value mask s
  | .telemetry pec => Sys2Proof.Machine.execTelemetry pec s
  | .portStatus pec port => Sys2Proof.Machine.execPortStatus pec port s
  | .retrain pec port fullCal => Sys2Proof.Machine.execRetrain pec port fullCal s
  | .resetPartition pec p => Sys2Proof.Machine.execResetPartition pec p s
  | .resetEngineDomain pec => Sys2Proof.Machine.execResetEngineDomain pec s
  | .resetSteward pec => Sys2Proof.Machine.execResetSteward pec s
  | .resetCapture pec => Sys2Proof.Machine.execResetCapture pec s
  | .drain pec => Sys2Proof.Machine.execDrain pec s
  | .rankWrite pec first entries => Sys2Proof.Machine.execRankWrite pec first entries s
  | .rankCommit pec => Sys2Proof.Machine.execRankCommit pec s
  | .reports pec ackSeq => Sys2Proof.Machine.execReports pec ackSeq s
  | .directedHold pec => Sys2Proof.Machine.execDirectedHold pec s
  | .directedStep pec => Sys2Proof.Machine.execDirectedStep pec s
  | .directedResume pec => Sys2Proof.Machine.execDirectedResume pec s
  | .directedLeave pec => Sys2Proof.Machine.execDirectedLeave pec s
  | .testDestructiveMarch pec => Sys2Proof.Machine.execTestDestructiveMarch pec s
  | .testPreservingMarch pec => Sys2Proof.Machine.execTestPreservingMarch pec s
  | .testBeaterSelfTest pec => Sys2Proof.Machine.execTestBeaterSelfTest pec s
  | .testPortEnter pec port => Sys2Proof.Machine.execTestPortEnter pec port s
  | .testPortExit pec port => Sys2Proof.Machine.execTestPortExit pec port s
  | .testLoop pec port bits => Sys2Proof.Machine.execTestLoop pec port bits s
  | .nvmRead pec offset len => Sys2Proof.Machine.execNvmRead pec offset len s
  | .nvmErase pec offset size => Sys2Proof.Machine.execNvmErase pec offset size s
  | .nvmWrite pec offset data => Sys2Proof.Machine.execNvmWrite pec offset data s
  | .nvmCheck pec slot => Sys2Proof.Machine.execNvmCheck pec slot s
  | .opState pec => Sys2Proof.Machine.execOpState pec s
  | .longCommandComplete => Sys2Proof.Machine.execLongCommandComplete s
  | .alertResponse => Sys2Proof.Machine.execAlertResponse s
  | .busReset => Sys2Proof.Machine.execBusReset s
  | .stwMboxCmd a => Sys2Proof.Machine.execStwMboxCmd a s
  | .fenceDescriptor run => Sys2Proof.Machine.execFenceDescriptor run s

end Sys2Proof.Machine
end

