-- ==== Sys2Proof/Safety.lean ====
section
/-! DEFINITION. What claims say of the machine: its invariant, the events of its pins, and a command that completes. -/

namespace Sys2Proof.Machine

/-- The commands that are events of the reset, clock and supply pins (02 R54, R55, R60, R63; 04 R104). -/
def pinEvent (i : Instr) : Bool :=
  match i with
  | .coldResetAssert => true
  | .coldStart _ _ => true
  | .rootPllLock => true
  | .rootPllUnlock => true
  | .railOutOfTolerance => true
  | _ => false

/-- The state of cold reset, but for what is not the block's or survives it: the queue, the free values taken, the contents of
the NVM device, and pins that the caller names. -/
def coldState (s : State) (p : Pins) : State :=
  { State.reset with pending := s.pending, freeCtr := s.freeCtr, fur := { nvm := s.fur.nvm }, pins := p }

/-- What every step keeps: a block in cold reset is in its reset state (02 R55); one out of cold reset whose root clock has
not run is in it too, but for its pins (02 R28, R60); and unless a rail has failed, the clock outputs run exactly while the
root PLL is locked, and a lost lock stays lost (02 R54). -/
structure Inv (s : State) : Prop where
  cold     : s.pins.rstColdN = false → s = coldState s {}
  unlocked : s.pins.railsOk = true → s.pins.clkLock = false → s.pins.lockLost = false → s = coldState s s.pins
  clocks   : s.pins.railsOk = true → s.pins.clkOut = s.pins.clkLock
  lost     : s.pins.railsOk = true → s.pins.lockLost = true → s.pins.clkLock = false
  noClock  : s.pins.rstColdN = false → s.pins.clkLock = false

/-- Command c runs at s, and t is its own effect: the answer is t with what it set going carried out, the queue and the inputs
as s has them. -/
def Runs (c : Instr) (s t : State) : Prop := exec c s = .next (keepInputs s (settle t))

/-- The inputs of t are those of s. -/
def SameInputs (s t : State) : Prop := keepInputs s t = t

/-- A block out of cold reset with its root clock, and past start-up (02 R28, R60). -/
def Ready (s : State) : Prop := live s = true ∧ s.pins.ready = true

/-- A write at the command port has been answered with e on CMD_RSP_ERR. -/
def answered (e : BitVec 2) (t : State) : State := { t with out := { t.out with cmdRsp := { rdata := 0, err := e } } }

/-- The conditions of the command port on a write that changes something: the block is past start-up, some byte is enabled,
and the requester is privileged software or a READY partition (02 R43, R45; 14 R381; 17 R458). -/
structure MayWrite (a : RegAcc) (s : State) : Prop where
  ready   : Ready s
  enabled : a.be ≠ 0
  who     : a.par = 0x1F ∨ (a.par.toNat < 16 ∧ (partOf s a.par.toNat).state = partReady)

/-- A write of privileged software past start-up, with some byte enabled. -/
structure HostWrite (a : RegAcc) (s : State) : Prop where
  ready   : Ready s
  enabled : a.be ≠ 0
  who     : a.par = 0x1F

/-- A slot of CTX_CMD has taken a command, answered with a code (09 R252). -/
def slotTakes (slot cmd : Nat) (code : Byte) (t : State) : State :=
  let entry (x : CmdSlot) : CmdSlot := { code := code, lastCmd := BitVec.ofNat 8 cmd, seq := x.seq + 1 }
  { t with cq := { t.cq with slots := tabMod {} slot entry t.cq.slots } }

/-- The control packet that a command carries: its port, TYPE, PART and body (06 R158, 16 R435, 07 R192). -/
def ctrlOf (c : Instr) : Option (PortNo × Byte × Bool × List Byte) :=
  match c with
  | .linkInit n protocol version endpoint peerPort width broke rxbuf =>
    some (n, tyLinkInit, false, leBytes 2 protocol.toNat ++ leBytes 2 version.toNat ++ leBytes 4 endpoint.toNat ++
      [peerPort, width] ++ leBytes 2 broke.toNat ++ leBytes 2 rxbuf.toNat)
  | .rttProbe n tag => some (n, tyRttProbe, false, leBytes 8 tag.toNat)
  | .rttEcho n tag turn _ => some (n, tyRttEcho, false, leBytes 8 tag.toNat ++ leBytes 4 turn.toNat)
  | .nak n expected reason => some (n, tyNak, false, leBytes 5 expected.toNat ++ [reason])
  | .replayStart n first cause => some (n, tyReplayStart, false, leBytes 5 first.toNat ++ [cause])
  | .cnak n cexpected => some (n, tyCnak, false, leBytes 2 cexpected.toNat)
  | .handover n deadPort expected nextTx =>
    some (n, tyHandover, false, [deadPort] ++ leBytes 5 expected.toNat ++ leBytes 5 nextTx.toNat)
  | .handoverDone n deadPort flits => some (n, tyHandoverDone, false, [deadPort] ++ leBytes 2 flits.toNat)
  | .handbackMark n restored => some (n, tyHandbackMark, false, [restored])
  | .park n parking => some (n, tyPark, false, [parking])
  | .retrainReq n fullCal => some (n, tyRetrainReq, false, [fullCal])
  | .fenceNotice n cause => some (n, tyFenceNotice, false, [cause])
  | .stuckNotice n vcb => some (n, tyStuckNotice, false, [vcb])
  | .admitId n machineId endpoint peerPort =>
    some (n, tyAdmitId, false, leBytes 16 machineId.toNat ++ leBytes 4 endpoint.toNat ++ [peerPort])
  | .admitNonce n nonce => some (n, tyAdmitNonce, false, leBytes 24 nonce.toNat)
  | .admitMac n part half => some (n, tyAdmitMac, part, leBytes 24 half.toNat)
  | .admitResult n res cause => some (n, tyAdmitResult, false, [res, cause])
  | .rankDigest n part half => some (n, tyRankDigest, part, leBytes 24 half.toNat)
  | .routeBreak n dim link state origin seq =>
    some (n, tyRouteBreak, false, [dim, link, state, 0] ++ leBytes 4 origin.toNat ++ leBytes 2 seq.toNat)
  | _ => none

/-- A running block takes the control packet of command c, out of the inbox where it waits there; u is the state it acts on. -/
def Takes (c : Instr) (s u : State) : Prop :=
  live s = true ∧ ∃ n typ part body, ctrlOf c = some (n, typ, part, body) ∧ ctrlAllowed (portOf s n) typ = true ∧
    u = fromInbox n typ part body s

/-- Events of a vector that no transferred message stands for: pending, or in a message that has been made (14 R383, R385). -/
def eventsHeld (s : State) (p v : PartNo) : Nat :=
  (vecOf s p v).pending.toNat + ((s.par.messages.filter (fun m => m.par.toNat == p.val && m.vec == v)).map (·.events)).sum

/-- Messages of a vector that have been made and not transferred (14 R385). -/
def messagesOf (s : State) (p v : PartNo) : Nat :=
  (s.par.messages.filter (fun m => m.par.toNat == p.val && m.vec == v)).length

/-- An aperture command's request, kind and ordering class (08 R240). -/
def apertureOf (c : Instr) : Option (ApertureKind × Bool × LsaReq) :=
  match c with
  | .load r => some (.load, false, r)
  | .loadRelaxed r => some (.load, true, r)
  | .store r => some (.store, false, r)
  | .storeRelaxed r => some (.store, true, r)
  | .apertureAtomic r => some (.atomic, false, r)
  | .atomicRelaxed r => some (.atomic, true, r)
  | _ => none

/-- The message that a command takes at this endpoint, where it comes from, and the command's own opcodes. -/
def messageOf (c : Instr) : Option (Arrival × Msg × Taker) :=
  match c with
  | .read a m => some (a, m, .read)
  | .write a m => some (a, m, .write)
  | .cont a m => some (a, m, .cont)
  | .fillMessage a m => some (a, m, .fill)
  | .atomic a m => some (a, m, .atomic)
  | .ack a m => some (a, m, .ack)
  | .readData a m => some (a, m, .readData)
  | .atomicResult a m => some (a, m, .atomicResult)
  | .release a m => some (a, m, .release)
  | .managementMessage a m => some (a, m, .management)
  | .collOpen a m => some (a, m, .collOpen)
  | .collCont a m => some (a, m, .collCont)
  | .collCredit a m => some (a, m, .collCredit)
  | .collAbort a m => some (a, m, .collAbort)
  | _ => none

/-- A message that has been taken passes the checks of R205, which one from the block's own loop needs not. -/
def passes (a : Arrival) (m : Msg) (u : State) : Bool :=
  match a with
  | .self => true
  | .port n v => arrivalOk u n v m

/-- A running block takes the message m, which is command c's to take and addressed to this endpoint, from where it waits;
u is the state it acts on. -/
def Arrives (c : Instr) (a : Arrival) (m : Msg) (s u : State) : Prop :=
  live s = true ∧ ∃ t, messageOf c = some (a, m, t) ∧ ownMessage t m.opcode = true ∧ dstEp m = selfEp s ∧
    takeArrival a m s = some u ∧ passes a m u = true

/-- The tracker whose TAG a response carries (08 R224). -/
def answeredTracker (s : State) (m : Msg) : Option Tracker := s.trk.trackers.find? (fun t => trkTag t.index t.gen == m.tag)

/-- Whether a sideband command's PEC is correct, and its command code (16 R448, R449). -/
def sidebandCode (c : Instr) : Option (Bool × Byte) :=
  match c with
  | .identify k => some (k, 0x01)
  | .getEpoch k => some (k, 0x02)
  | .readReg k _ _ => some (k, 0x03)
  | .writeReg k _ _ _ => some (k, 0x04)
  | .setCeiling k _ _ => some (k, 0x05)
  | .setPower k _ => some (k, 0x06)
  | .telemetry k => some (k, 0x07)
  | .portStatus k _ => some (k, 0x08)
  | .retrain k _ _ => some (k, 0x09)
  | .resetPartition k _ => some (k, 0x0A)
  | .resetEngineDomain k => some (k, 0x0A)
  | .resetSteward k => some (k, 0x0A)
  | .resetCapture k => some (k, 0x0A)
  | .drain k => some (k, 0x0B)
  | .rankWrite k _ _ => some (k, 0x0C)
  | .rankCommit k => some (k, 0x0D)
  | .reports k _ => some (k, 0x0E)
  | .directedHold k => some (k, 0x10)
  | .directedStep k => some (k, 0x10)
  | .directedResume k => some (k, 0x10)
  | .directedLeave k => some (k, 0x10)
  | .testDestructiveMarch k => some (k, 0x11)
  | .testPreservingMarch k => some (k, 0x11)
  | .testBeaterSelfTest k => some (k, 0x11)
  | .testPortEnter k _ => some (k, 0x11)
  | .testPortExit k _ => some (k, 0x11)
  | .testLoop k _ _ => some (k, 0x11)
  | .nvmRead k _ _ => some (k, 0x20)
  | .nvmErase k _ _ => some (k, 0x21)
  | .nvmWrite k _ _ => some (k, 0x22)
  | .nvmCheck k _ => some (k, 0x23)
  | .opState k => some (k, 0x24)
  | _ => none

/-- A sideband command has been answered with st and pl and leaves t: MGMT_EPOCH counts one that took effect and changed
anything, STW_SB_EVENTS counts it, and the response stands on the sideband (16 R447, R456). -/
def sbReply (s : State) (st : Byte) (pl : List Byte) (t : State) : State :=
  let t := countCommand st (if st = stOk ∧ t ≠ s then bumpEpoch t else t)
  setRsp { acked := true, status := st, epoch := t.sec.mgmtEpoch, payload := pl } t

/-- Sideband command c, which has arrived correct and may run at s, is answered with st and pl and leaves t (16 R448 to R450). -/
def SbAnswers (c : Instr) (s : State) (st : Byte) (pl : List Byte) (t : State) : Prop :=
  ∀ code, live s = true → s.err.restarting = false → sidebandCode c = some (true, code) → gate code s = stOk →
    Runs c s (sbReply s st pl t)

end Sys2Proof.Machine
end

