-- ==== Sys2Proof/Certificates/Slice0/Obligations.lean ====
section
/-! DEFINITION. The statements for the provers. -/

open Sys2Proof Sys2Proof.Machine

/-- O1: A step runs the command at the front of the queue.  For every state and command: a step with the command at the front
of the queue is exec of that command on the state with the queue's rest. The queue is the model's own (it stands for the
order in which commands reach the block).  (00_scope.md; 02_integration_ports.md) -/
def Obligations.StepTakesTheFrontCommand : Prop :=
  ∀ (s : State) (c : Instr) (rest : List Instr), s.pending = c :: rest → step s = exec c { s with pending := rest }

/-- O2: An empty queue is a tick of 1 us for a running block.  For every state with an empty queue: a step answers a next
state in which only the model's clock has advanced by 1 us if the block runs, and the same state otherwise. The tick is the
model's choice (log entry 30), no rule of the spec.  (00 R7) -/
def Obligations.EmptyQueueTicks : Prop :=
  ∀ s : State, s.pending = [] → step s = .next (if live s then { s with nowUs := s.nowUs + 1 } else s)

/-- O3: The invariant holds at reset.  The state after reset meets the invariant that every step keeps.  (02 R54; 02 R55; 02
R60; 17 R465) -/
def Obligations.ResetMeetsTheInvariant : Prop := Inv State.reset

/-- O4: Every step keeps the reset, clock and lock invariant.  For all states s and t: if s meets the invariant and a step at
s answers next t, t meets it. The invariant says: in cold reset the whole state, but for the queue, the free-value counter,
the NVM device and the pins, is the reset state, and its root PLL is unlocked; a block whose root clock has never run since
is in that state too but for its pins; while no rail has failed, the clock outputs run exactly while the root PLL is locked,
and a lost lock stays lost. What of the state survives a failed rail is left open by the spec, so the clauses ask for good
rails (the model's reading, log entry 7).  (02 R28; 02 R54; 02 R55; 02 R60; 02 R63) -/
def Obligations.EveryStepKeepsTheInvariant : Prop := ∀ s t : State, Inv s → step s = .next t → Inv t

/-- O5: A block in cold reset or without its root clock does nothing.  For every command that is no event of the reset, clock
and supply pins, and every state in which the block does not run (cold reset, or no root clock): exec answers next with the
state unchanged.  (02 R28; 02 R54) -/
def Obligations.StoppedBlockIgnoresCommands : Prop :=
  ∀ (c : Instr) (s : State), pinEvent c = false → live s = false → exec c s = .next s

/-- O6: No command changes the queue, and none but a pin event the time or the inputs.  For every command and all states:
when exec answers next t, t has the queue of s; and unless the command is an event of the reset, clock and supply pins, t has
the time and the inputs RST_COLD_N, CLK_LOCK, SB_ADDR and the rails of s. This is the frame of every command for the queue
and the inputs.  (02_integration_ports.md) -/
def Obligations.CommandsLeaveQueueAndInputs : Prop :=
  ∀ (c : Instr) (s t : State), exec c s = .next t →
    t.pending = s.pending ∧ (pinEvent c = false → SameInputs s t)

/-- O7: Every command completes in every state.  For every command and every state, exec answers a next state: no command of
the table ends in a fault or a refusal, whatever the state and the operands.  (00 R3; 02 R34; 02 R35) -/
def Obligations.EveryCommandCompletes : Prop := ∀ (c : Instr) (s : State), ∃ t, exec c s = .next t

/-- O8: What Runs means: a quiet command answers exactly its effect.  If command c runs at s with effect t (Runs c s t), t
keeps the inputs of s, and nothing that t found is left to take effect (no lost link, fence, departure, handover, handback or
waiting pass at any port, no plan, no Beater work, no run or action that can end, no aperture request, no suspect endpoint),
then exec c s answers next t. The later statements give t in full, so they also say what a command leaves unchanged. That
what a step found takes effect in the same step is the model's choice (log entry 5).  (06 R183; 06_link_layer.md) -/
def Obligations.QuietCommandsAnswerTheirEffect : Prop :=
  ∀ (c : Instr) (s t : State), Runs c s t → SameInputs s t → quiet t = true → exec c s = .next t

/-- O9: Cold reset gives the reset state; a failed rail leaves only what is outside the block.  COLD_RESET_ASSERT answers the
reset state with the queue, the free-value counter and the NVM device kept. RAIL_OUT_OF_TOLERANCE in cold reset changes
nothing; outside it RST_COLD_N stays high, the rails are marked not good, the NVM device and the queue stay, and one free
value is taken (the rest of the state is undefined; log entry 7).  (02 R55; 02 R63; 04 R104) -/
def Obligations.ResetAndRailPins : Prop :=
  (∀ s : State, exec .coldResetAssert s = .next (coldState s {})) ∧
  (∀ s : State, s.pins.rstColdN = false → exec .railOutOfTolerance s = .next s) ∧
  (∀ s : State, s.pins.rstColdN = true → ∃ t, exec .railOutOfTolerance s = .next t ∧
    t.pins.rstColdN = true ∧ t.pins.railsOk = false ∧ t.fur.nvm = s.fur.nvm ∧ t.pending = s.pending ∧ t.freeCtr = s.freeCtr + 1)

/-- O10: Cold start, and the lock and unlock of the root PLL.  COLD_START with RST_COLD_N low for at least 10 us releases
cold reset and samples SB_ADDR, and changes nothing otherwise. ROOT_PLL_LOCK out of cold reset, with no lock lost, starts the
clock outputs, releases NVM_RST_N and lets the ports be ready; ROOT_PLL_UNLOCK of a locked PLL stops the clock outputs and
the block and records the lost lock. Otherwise both change nothing. That a low time under 10 us is no cold start is the
model's reading (log entry 10).  (02 R28; 02 R50; 02 R54; 02 R60; 04 R104) -/
def Obligations.StartAndClockPins : Prop :=
  (∀ (s : State) (a : BitVec 2) (low : Nat), exec (.coldStart a low) s = .next
    (if s.pins.rstColdN = false ∧ 10 ≤ low then { s with pins := { s.pins with rstColdN := true, sbAddr := a } } else s)) ∧
  (∀ s : State, s.pins.rstColdN = true → s.pins.clkLock = false → s.pins.lockLost = false → exec .rootPllLock s = .next
    { s with pins := { s.pins with clkLock := true, clkOut := true, nvmRstN := true, portReady := true } }) ∧
  (∀ s : State, s.pins.rstColdN = false ∨ s.pins.clkLock = true ∨ s.pins.lockLost = true → exec .rootPllLock s = .next s) ∧
  (∀ s : State, s.pins.clkLock = true → ∃ t, exec .rootPllUnlock s = .next t ∧ live t = false ∧
    t = { s with pins := { s.pins with clkLock := false, clkOut := false, lockLost := true } }) ∧
  (∀ s : State, s.pins.clkLock = false → exec .rootPllUnlock s = .next s)

/-- O11: The end of a phase stops start-up, holds it, or starts the next phase.  For every state in which a phase of start-up
runs, PHASE_END with its observations: when the phase's checks fail with cause c, start-up stops with FAIL_CAUSE c in
directed mode and a START record of severity 3; when they pass, start-up holds if a hold is ordered or the image asks for one
after phase 2, and starts the next phase otherwise.  (04 R107; 04 R112; 04 R113) -/
def Obligations.PhasesStopHoldOrGoOn : Prop :=
  ∀ (s u : State) (o : PhaseObs), live s = true → s.fur.phase.toNat < 6 → s.fur.outcome = 0 →
    (∀ c, endPhase o (addRun o.runUs s) = (u, some c) → Runs (.phaseEnd o) s
      (logErr { cls := clsStart, sev := 3, unitKind := 13, cause := c.toNat }
        { u with fur := { u.fur with outcome := 1, failCause := c, directed := true, heldAt := u.nowUs } })) ∧
    (endPhase o (addRun o.runUs s) = (u, none) →
      (u.fur.holdOrder = true ∨ (s.fur.phase = 2 ∧ u.fur.image.startHold = true) →
        Runs (.phaseEnd o) s { u with fur := { u.fur with outcome := 2, directed := true, heldAt := u.nowUs } }) ∧
      (u.fur.holdOrder = false → s.fur.phase ≠ 2 ∨ u.fur.image.startHold = false →
        Runs (.phaseEnd o) s (startPhase (s.fur.phase.toNat + 1) o.nvmUsable u)))

/-- O12: What each phase finds at its end.  PHASE_END after start-up changes nothing. Phase 1 without started firmware fails
with 0x02 when both slots are EMPTY and 0x03 otherwise; phase 2 fails with 0x10 when three or more banks fail, and only with
that or with 0x11 when no Beater serves; other phases do not fail. Starting a phase from 2 on other than 3, 5 and 6 sets
PHASE and clears the outcome, and no more.  (04 R95; 04 R97; 04 R102; 04 R107; 04 R115; 12 R356; 13 R373) -/
def Obligations.PhaseEndsFollowTheRules : Prop :=
  (∀ (s : State) (o : PhaseObs), live s = true → 6 ≤ s.fur.phase.toNat ∨ s.fur.outcome ≠ 0 → Runs (.phaseEnd o) s s) ∧
  (∀ (s : State) (o : PhaseObs), s.fur.phase = 1 → s.fur.fwStarted = false →
    (endPhase o s).2 = some (if s.fur.verdict0 = vdEmpty ∧ s.fur.verdict1 = vdEmpty then 0x02 else 0x03)) ∧
  (∀ (s : State) (o : PhaseObs), s.fur.phase = 2 →
    (3 ≤ (banksIn o.banksFailed).length → (endPhase o s).2 = some 0x10) ∧
    (∀ u c, endPhase o s = (u, some c) → c = 0x10 ∨ c = 0x11 ∧ beatersServing u = 0)) ∧
  (∀ (s : State) (o : PhaseObs), s.fur.phase ≠ 1 → s.fur.phase ≠ 2 → (endPhase o s).2 = none) ∧
  (∀ (n : Nat) (nvm : Bool) (s u : State), 1 < n → n < 16 →
    u = { s with fur := { s.fur with phase := BitVec.ofNat 4 n, outcome := 0, phaseAt := s.nowUs } } →
    (n = 2 → startPhase n nvm s = { u with btr := { u.btr with busy := true } }) ∧
    (n ≠ 2 → n ≠ 3 → n ≠ 5 → n ≠ 6 → startPhase n nvm s = u))

/-- O13: The drain before P2, and the ends of power transitions.  P2_DRAIN_COMPLETE starts the transition when every run has
drained and no tracker is left, and changes nothing otherwise; P2_DRAIN_TIMEOUT abandons the order with a POWER record of
severity 1 (log entry 120). POWER_TRANSITION_COMPLETE, when what the transition waits for is done, puts the block into P0, P1
(on to P0 where POLICY is 0; the model's choice, log entry 111), P2 (on to P3, or back up to P1, where a later order says so)
or P3, the Vat waking or falling asleep with it; POLICY 1 written on the way to P0 leaves the block in P1 (log entry 111).
Until then, and with none under way, it changes nothing.  (03 R70; 03 R73; 03 R75; 13 R375) -/
def Obligations.PowerDrainAndTransitionEvents : Prop :=
  (∀ (s : State) (o : PowerOrder), live s = true → s.power.draining = some o → s.cq.runs.all (runDrains s) = true →
    s.trk.trackers = [] → Runs .p2DrainComplete s (startPark o.target s)) ∧
  (∀ s : State, live s = true → s.power.draining = none ∨ s.cq.runs.all (runDrains s) = false ∨ s.trk.trackers ≠ [] →
    Runs .p2DrainComplete s s) ∧
  (∀ s : State, live s = true → s.power.draining.isSome = true → Runs .p2DrainTimeout s
    (refusePower { s with power := { s.power with draining := none } })) ∧
  (∀ s : State, live s = true → s.power.draining = none → Runs .p2DrainTimeout s s) ∧
  (∀ s : State, live s = true → s.power.transition = none → Runs .powerTransitionComplete s s) ∧
  (∀ (s : State) (t : BitVec 3), live s = true → s.power.transition = some t → transitionReady t s = false →
    Runs .powerTransitionComplete s s) ∧
  (∀ (s u : State) (t : BitVec 3), live s = true → s.power.transition = some t → transitionReady t s = true →
    u = { s with power := { s.power with transition := none, cur := t } } →
    (t = 0 → s.power.policy = false → Runs .powerTransitionComplete s (wakeAll u)) ∧
    (t = 0 → s.power.policy = true → Runs .powerTransitionComplete s { s with power := { s.power with transition := none } }) ∧
    (t = 1 → s.power.policy = true → Runs .powerTransitionComplete s u) ∧
    (t = 1 → s.power.policy = false → Runs .powerTransitionComplete s
      (wakeAll { u with power := { u.power with transition := some 0 } })) ∧
    (∀ v, t = 2 → v = (if s.vat.state = 3 then vatWake u else u) →
      (s.power.onward = some 3 → Runs .powerTransitionComplete s { v with power := { v.power with transition := some 3, onward := none } }) ∧
      (s.power.onward = some 1 → Runs .powerTransitionComplete s (startWake v)) ∧
      (s.power.onward ≠ some 3 → s.power.onward ≠ some 1 → Runs .powerTransitionComplete s v)) ∧
    (t = 3 → Runs .powerTransitionComplete s (vatSleep u)) ∧
    (3 < t.toNat → Runs .powerTransitionComplete s u)) ∧
  (∀ s : State, transitionReady 0 s = true ∧ transitionReady 1 s = wakeDone s ∧
    transitionReady 2 s = (s.power.cur == 3 || allParked s) ∧ transitionReady 3 s = (s.vat.state != 2 && !s.vat.busy))

/-- O14: The throttle level follows the 1 ms average, one level at a time.  THROTTLE_TICK raises the level by one, up to 7,
while the average is above the effective ceiling, and lowers it by one at most every 1 ms when the power predicted at the
lower level is under 95 per cent of it; the prediction is the typical power of that level, as the section's worked example
has it (deduced, log entry 2). THROTTLE_INTERVAL at a level above 0 puts the transmit lanes of a port whose link is up in
electrical idle outside its interval; at level 0, and while a forced pass needs the lanes, the port sends in every interval,
and leaves electrical idle in P0 or with something to send. aboveCeiling compares the sum of the samples with ten times the
ceiling per sample.  (03 R86; 03 R89; 03 R90) -/
def Obligations.ThrottleFollowsTheAverage : Prop :=
  (∀ (s u : State), live s = true →
    u = { s with power := { s.power with
      raiseTicks := s.power.raiseTicks + 1, t7Ticks := if s.power.level = 7 then s.power.t7Ticks + 1 else 0 } } →
    (aboveCeiling u s.power.effective.toNat = true → s.power.level.toNat < 7 →
      Runs .throttleTick s { u with power := { u.power with level := s.power.level + 1 } }) ∧
    (aboveCeiling u s.power.effective.toNat = true → s.power.level = 7 → Runs .throttleTick s u) ∧
    (aboveCeiling u s.power.effective.toNat = false → s.power.level = 0 ∨ s.power.raiseTicks + 1 < 10 → Runs .throttleTick s u) ∧
    (aboveCeiling u s.power.effective.toNat = false → s.power.level ≠ 0 → 10 ≤ s.power.raiseTicks + 1 → Runs .throttleTick s
      (if levelPower (s.power.level.toNat - 1) * 100 < s.power.effective.toNat * 10 * 95 then
        setLevel (s.power.level.toNat - 1) { u with power := { u.power with raiseTicks := 0 } }
      else u))) ∧
  (∀ (s : State) (n : PortNo) (b : Bool), live s = true →
    (b = true ∨ s.power.level = 0 ∨ (portOf s n).cal.forceActive = true →
      (s.power.cur = 0 ∨ hasWork s (portOf s n) = true ∨ (portOf s n).rx.nullReady = true → Runs (.throttleInterval n b) s
        (modPort n (fun p => idleExit n { p with inInterval := true }) s)) ∧
      (s.power.cur ≠ 0 → hasWork s (portOf s n) = false → (portOf s n).rx.nullReady = false → Runs (.throttleInterval n b) s
        (modPort n (fun p => { p with inInterval := true }) s))) ∧
    (b = false → s.power.level ≠ 0 → (portOf s n).cal.forceActive = false → Runs (.throttleInterval n b) s
      (modPort n (fun p => if linkUp p = true then idleEnter n { p with inInterval := false } else { p with inInterval := false }) s))) ∧
  (∀ s : State, aboveCeiling s s.power.effective.toNat =
    decide (s.power.effective.toNat * 10 * s.power.samples.length < s.power.samples.sum))

/-- O15: A telemetry sample joins the three windows of each rail.  TELEMETRY_SAMPLE with three good readings forms each
rail's power from its voltage and current, keeps the readings, adds the total and each rail to the 1 ms, 100 ms and 10 s
windows and to the ten samples of the throttle average, and judges CEIL_UNMET when a 1 ms window ends; a window that is not
full only accumulates, and a full one sets AVG, PEAK, WIN_COUNT and ESTIMATED and starts anew; a 1 ms window that meets the
ceiling clears CEIL_UNMET. The model's choices in it: CEIL_UNMET is judged at the 1 ms windows (log entry 34), AVG is rounded
down and AVG and PEAK saturate (log entry 109), and a power is formed from mV and 10 mA (log entry 110).  (02 R56; 03 R87; 03
R91) -/
def Obligations.TelemetrySamplesJoinTheWindows : Prop :=
  (∀ (s u w : State) (v0 v1 v2 : RailRead), live s = true →
    u = { s with power := { s.power with
      avsFails := tabSet 0 2 0 (tabSet 0 1 0 (tabSet 0 0 0 s.power.avsFails))
      rails := tabSet {} 2 v2 (tabSet {} 1 v1 (tabSet {} 0 v0 s.power.rails))
      samples := ((railPower v0 + railPower v1 + railPower v2) :: s.power.samples).take 10 } } →
    w = [0, 1, 2].foldl (fun t i => addSample 3 i (railPower v2) false (addSample 2 i (railPower v1) false
      (addSample 1 i (railPower v0) false (addSample 0 i (railPower v0 + railPower v1 + railPower v2) false t)))) u →
    Runs (.telemetrySample (some v0) (some v1) (some v2)) s
      (if (tabGet {} w.power.tel 0).winCount = (tabGet {} s.power.tel 0).winCount then w else judgeCeiling w)) ∧
  (∀ (s : State) (k w v : Nat) (est : Bool) (b : TelAcc), w < 3 →
    b = { sum := (tabGet {} s.power.telAcc (3 * k + w)).sum + v, count := (tabGet {} s.power.telAcc (3 * k + w)).count + 1
          peak := max (tabGet {} s.power.telAcc (3 * k + w)).peak v, estimated := (tabGet {} s.power.telAcc (3 * k + w)).estimated || est } →
    (b.count < windowLen w → tabGet {} (addSample k w v est s).power.telAcc (3 * k + w) = b ∧
      (addSample k w v est s).power.tel = s.power.tel) ∧
    (windowLen w ≤ b.count → tabGet {} (addSample k w v est s).power.telAcc (3 * k + w) = {} ∧
      tabGet {} (addSample k w v est s).power.tel (3 * k + w) =
        { avg := sat16 (b.sum / b.count), peak := sat16 b.peak
          winCount := (tabGet {} s.power.tel (3 * k + w)).winCount + 1, estimated := b.estimated })) ∧
  (∀ s : State, s.power.effective.toNat * 10 ≥ (tabGet {} s.power.tel 0).avg.toNat →
    judgeCeiling s = { s with power := { s.power with ceilUnmet := false } })

/-- O16: Lane blocks: polarity, header checks, descrambling, deskew, hunt and lock.  LANE_BLOCK on a lane in training step 2
takes polarity and TRAIN bytes only; on a lane in LOOP it goes round the loop or to the checker; on one that does not run it
changes nothing. On one that runs, its bits are first corrected for a swapped pair (log entry 92); an ordered set of a known
type is taken as it is, one of an unknown type counts a header error, a data block is descrambled and given to the deskew,
and one with an invalid header moves the descrambler too (log entry 103) and gives zeros; the header then drives the
alignment: hunt, 64 valid headers in a row to lock, and 16 invalid ones in 64 to lose lock.  (05 R117; 05 R118; 05 R119; 05
R120; 05 R121) -/
def Obligations.LaneBlocksAlignAndDescramble : Prop :=
  (∀ (s : State) (n : PortNo) (k : LaneNo) (h hh : BitVec 2) (d e : BitVec 128) (x : Lane), live s = true →
    x = laneOf (portOf s n) k → hh = BitVec.ofNat 2 (lineBits x h d) → e = BitVec.ofNat 128 (lineBits x h d / 4) →
    (x.swapped = false → hh = h ∧ e = d) ∧
    (inStep2 (portOf s n) x = true → Runs (.laneBlock n k h d) s (modPort n (step2Block k h d) s)) ∧
    (inStep2 (portOf s n) x = false → x.state = lsLoop →
      Runs (.laneBlock n k h d) s (modPort n (modLane k (loopBlock (portOf s n) k (lineBits x h d))) s)) ∧
    (inStep2 (portOf s n) x = false → x.state ≠ lsLoop → laneRuns x = false → Runs (.laneBlock n k h d) s s) ∧
    (inStep2 (portOf s n) x = false → x.state ≠ lsLoop → laneRuns x = true →
      (hh = 1 → orderedTypes.contains (e.toNat % 256) = true → Runs (.laneBlock n k h d) s (laneHeader n k true s)) ∧
      (hh = 1 → orderedTypes.contains (e.toNat % 256) = false →
        Runs (.laneBlock n k h d) s (laneHeader n k true (modPort n (modLane k headerError) s))) ∧
      (hh = 2 → Runs (.laneBlock n k h d) s (laneHeader n k true (modPort n (dataBlock k true e) s))) ∧
      (hh = 0 ∨ hh = 3 → Runs (.laneBlock n k h d) s (laneHeader n k false (modPort n (dataBlock k false e) s))))) ∧
  (∀ (p : Port) (k : LaneNo) (valid : Bool) (d y : BitVec 128) (v : BitVec 23), scramble 128 (laneOf p k).scrambler d = (v, y) →
    dataBlock k valid d p = deskewBlock k (.data (if valid = true then y else 0))
      (modLane k (fun x => { x with scrambler := v, lastPayload := if valid = true then y else 0 }) p)) ∧
  (∀ x : Lane, x.align = .hunt →
    alignStep true x = { x with align := .tentative 1 } ∧
    alignStep false x = { x with align := .hunt, position := (x.position + 1) % 130 }) ∧
  (∀ (x : Lane) (c : Nat), x.align = .tentative c →
    (c < 63 → alignStep true x = { x with align := .tentative (c + 1) }) ∧
    (63 ≤ c → alignStep true x = { x with align := .locked, window := [] }) ∧
    alignStep false x = { x with align := .hunt, position := (x.position + 1) % 130 }) ∧
  (∀ (x : Lane) (v : Bool), x.align = .locked →
    (((v :: x.window).take 64).count false < 16 → alignStep v x = { x with window := (v :: x.window).take 64 }) ∧
    (16 ≤ ((v :: x.window).take 64).count false →
      alignStep v x = { x with align := .hunt, window := [], lockLosses := satInc x.lockLosses }))

/-- O17: MARKER, TRAIN, BURST and IDLE_ENTRY act on their lane.  On a lane of the Deckle, a MARKER with wrong form is a
header error; one whose logical lane, width and count fit the Deckle is taken, and otherwise its lane fails (how COUNT is
compared with the other lanes is the model's choice, log entry 104). TRAIN is recorded with its mask and width, in step 2
with the polarity of its TYPE; in service it makes the port leave electrical idle. BURST on an idle lane is counted.
IDLE_ENTRY stops an active lane, and the port's receiver discards its incomplete flit once every lane of the Deckle is idle.
On a lane that does not run nothing happens.  (05 R120; 05 R122; 05 R123; 05 R124; 05 R135; 05 R136) -/
def Obligations.OrderedSetsActOnTheirLane : Prop :=
  (∀ (s : State) (n : PortNo) (k : LaneNo) (d : BitVec 128), live s = true → laneRuns (laneOf (portOf s n) k) = false →
    Runs (.marker n k d) s s ∧
    (inStep2 (portOf s n) (laneOf (portOf s n) k) = false → Runs (.train n k d) s s) ∧
    ((laneOf (portOf s n) k).state ≠ lsIdle → Runs (.burst n k) s s)) ∧
  (∀ (s u : State) (n : PortNo) (k : LaneNo) (d : BitVec 128) (c : BitVec 24) (e : Byte), live s = true →
    laneRuns (laneOf (portOf s n) k) = true → u = laneHeader n k true s → c = BitVec.ofNat 24 (bitsOf d.toNat 40 24) →
    e = BitVec.ofNat 8 (bitsOf d.toNat 16 8) →
    (markerOk d.toNat = false → Runs (.marker n k d) s (modPort n (modLane k headerError) u)) ∧
    (markerOk d.toNat = true → logicalOf (portOf u n).deckle k = none →
      Runs (.marker n k d) s (modPort n (takeMarker k (bitsOf d.toNat 8 8) e c) u)) ∧
    (∀ l, markerOk d.toNat = true → logicalOf (portOf u n).deckle k = some l →
      (l = bitsOf d.toNat 8 8 → bitsOf d.toNat 24 8 = (portOf u n).deckle.width.toNat → markerCountOk (portOf u n) k c = true →
        Runs (.marker n k d) s (modPort n (takeMarker k l e c) u)) ∧
      (l ≠ bitsOf d.toNat 8 8 ∨ bitsOf d.toNat 24 8 ≠ (portOf u n).deckle.width.toNat ∨ markerCountOk (portOf u n) k c = false →
        Runs (.marker n k d) s (laneFailed n k u))) ∧
    ((laneOf (portOf s n) k).state ≠ lsIdle → Runs (.burst n k) s u)) ∧
  (∀ (s u : State) (n : PortNo) (k : LaneNo) (d : BitVec 128), live s = true → inStep2 (portOf s n) (laneOf (portOf s n) k) = false →
    laneRuns (laneOf (portOf s n) k) = true → u = modPort n (takeTrain d) (laneHeader n k true s) →
    (d.toNat % 256 = 0x54 → inService (portOf u n) = true → Runs (.train n k d) s (modPort n (sendExit n) u)) ∧
    (d.toNat % 256 = 0x54 → inService (portOf u n) = false → Runs (.train n k d) s u) ∧
    (d.toNat % 256 ≠ 0x54 → Runs (.train n k d) s s)) ∧
  (∀ (s : State) (n : PortNo) (k : LaneNo) (d : BitVec 128), live s = true → inStep2 (portOf s n) (laneOf (portOf s n) k) = true →
    Runs (.train n k d) s (modPort n (fun p => takeTrain d (takePolarity k (d.toNat % 256) p)) s)) ∧
  (∀ (s : State) (n : PortNo) (k : LaneNo), live s = true → (laneOf (portOf s n) k).state = lsIdle →
    Runs (.burst n k) s (laneHeader n k true (modPort n (fun p =>
      { modLane k (fun x => { x with deaf := false }) p with rxIdle := true, bursts := p.bursts + 1 }) s))) ∧
  (∀ (s : State) (n : PortNo) (k : LaneNo), live s = true →
    ((laneOf (portOf s n) k).state ≠ lsActive → Runs (.idleEntry n k) s s) ∧
    (∀ q : Port, (laneOf (portOf s n) k).state = lsActive →
      q = { modLane k idleLane (portOf s n) with rxIdle := false, bursts := 0 } →
      Runs (.idleEntry n k) s
        (setPort n (if (deckleLanes q).all (fun j => (laneOf q j).state == lsIdle) = true then idlePort q else q) s)))

/-- O18: Electrical idle, far-end detect, retries and lost lane clocks of a port.  In P1 a port whose link is up enters
electrical idle when it has nothing to send and no pass, and leaves it when it has, within its throttle interval; a failed
exit is counted and asked again, and the third retrains the port with cause 0x05. DETECT_PULSE shows the used lanes' pulse;
the retry timer, or a signal on at least two lanes, begins an attempt of a DOWN port that waits for one. A lost lane clock
takes a port down with cause 0x07, leaves one DOWN or in TEST where it is, and silences a FENCED one. LOOP_REQ closes and
opens loops of a port in TEST only. Otherwise nothing changes.  (03 R68; 03 R72; 03 R80; 05 R130; 05 R135; 05 R136; 05 R137;
05 R145) -/
def Obligations.IdleAndDetectEventsOfAPort : Prop :=
  (∀ (s : State) (n : PortNo), live s = true →
    (idleState s = true → linkUp (portOf s n) = true → hasWork s (portOf s n) = false → (portOf s n).rx.nullReady = false →
      (portOf s n).cal.pass = none → Runs (.electricalIdleEntry n) s (modPort n (idleEnter n) s)) ∧
    (idleState s = false ∨ linkUp (portOf s n) = false ∨ hasWork s (portOf s n) = true ∨ (portOf s n).rx.nullReady = true ∨
      (portOf s n).cal.pass ≠ none → Runs (.electricalIdleEntry n) s s) ∧
    ((portOf s n).txIdle = true → (portOf s n).inInterval = true →
      hasWork s (portOf s n) = true ∨ (portOf s n).rx.nullReady = true ∨ (portOf s n).cal.pass ≠ none →
      Runs (.electricalIdleExit n) s (modPort n (idleExit n) s)) ∧
    ((portOf s n).txIdle = false ∨ (portOf s n).inInterval = false → Runs (.electricalIdleExit n) s s)) ∧
  (∀ s : State, idleState s = (s.power.cur == 1 && s.power.transition.isNone)) ∧
  (∀ (s : State) (n : PortNo), live s = true → inService (portOf s n) = true →
    allLanes.any (fun k => (laneOf (portOf s n) k).state == lsIdle) = true → (portOf s n).bursts ≠ 0 →
    ((portOf s n).exitFails < 2 → Runs (.idleExitTimeout n) s
      (modPort n (fun p => askExit n { p with exitFails := p.exitFails + 1, bursts := 0 }) s)) ∧
    (2 ≤ (portOf s n).exitFails → Runs (.idleExitTimeout n) s
      (downAndRetrain n 0x05 true (modPort n (fun p => { p with exitFails := 0 }) s)))) ∧
  (∀ (s : State) (n : PortNo), live s = true →
    ((portOf s n).state = psDetect → Runs (.detectPulse n) s
      { s with out := { s.out with pulse := some (n, usedMask s n) } }) ∧
    ((portOf s n).state ≠ psDetect → Runs (.detectPulse n) s s)) ∧
  (∀ (s : State) (n : PortNo) (m : BitVec 9), live s = true → (portOf s n).state = psDown → (portOf s n).retryArmed = true →
    Runs (.trainingRetryTimer n) s (beginAttempt n (!(portOf s n).nextFull) s) ∧
    (2 ≤ maskCount m → Runs (.partnerSignalDetect n m) s (beginAttempt n (!(portOf s n).nextFull) s)) ∧
    (maskCount m < 2 → Runs (.partnerSignalDetect n m) s s)) ∧
  (∀ (s : State) (n : PortNo) (m : BitVec 9), live s = true → (portOf s n).state ≠ psDown ∨ (portOf s n).retryArmed = false →
    Runs (.trainingRetryTimer n) s s ∧ Runs (.partnerSignalDetect n m) s s) ∧
  (∀ (s u : State) (n : PortNo), live s = true → u = modPort n (fun p => { p with pllLock := false }) s →
    ((portOf s n).state = psFenced → Runs (.lanePllUnlock n) s (modPort n fenceDark u)) ∧
    ((portOf s n).state = psDown ∨ (portOf s n).state = psTest → Runs (.lanePllUnlock n) s u) ∧
    ((portOf s n).state ≠ psFenced → (portOf s n).state ≠ psDown → (portOf s n).state ≠ psTest →
      Runs (.lanePllUnlock n) s (downAndRetrain n 0x07 false u))) ∧
  (∀ (s : State) (n : PortNo) (c : Bool) (m : BitVec 9), live s = true →
    ((portOf s n).state = psTest → Runs (.loopReq n c m) s (modPort n (fun p =>
      setLoops p { p with farLoop := if c then p.farLoop ||| m else p.farLoop &&& ~~~m }) s)) ∧
    ((portOf s n).state ≠ psTest → Runs (.loopReq n c m) s s))

/-- O19: Training steps 1 to 5 follow one another or fail the attempt.  TRAINING_STEP_COMPLETE with no attempt changes
nothing. Step 1 fails with cause 0x03 when fewer than two lanes answer, other steps with 0x0C when they time out; step 2 ends
by the polarity found, step 3 keeps the lanes whose receiver has locked, step 4 those with at most 22,500 bit errors (2,250
in a held attempt), step 5 those that the partner's TRAIN blocks name good; it fails with 0x04 when fewer than two are left,
and with 0x0C where no TRAIN with a mask has come. A held attempt that loses a lane starts a full attempt at step 2 (the
model's reading, log entry 43). The byte layout of TRAIN is the model's choice (log entry 93).  (05 R127; 05 R128; 05 R130;
05 R131) -/
def Obligations.TrainingStepsFollowTheirOrder : Prop :=
  (∀ (s : State) (n : PortNo) (o : TrainObs), live s = true → (portOf s n).attempt = none → Runs (.trainingStepComplete n o) s s) ∧
  (∀ (s : State) (n : PortNo) (o : TrainObs) (a : Attempt), live s = true → (portOf s n).attempt = some a →
    (a.step = 1 → o.timedOut = true ∨ maskCount o.lanes < 2 → Runs (.trainingStepComplete n o) s (attemptFailed n 0x03 s)) ∧
    (a.step = 1 → o.timedOut = false → 2 ≤ maskCount o.lanes →
      Runs (.trainingStepComplete n o) s (startStep2 n a.held s)) ∧
    (2 ≤ a.step → o.timedOut = true → Runs (.trainingStepComplete n o) s (attemptFailed n 0x0C s)) ∧
    (a.step = 2 → o.timedOut = false → Runs (.trainingStepComplete n o) s (endStep2 n a o.swapped s)) ∧
    (∀ m, a.step = 3 → o.timedOut = false → m = a.lanes &&& lockedLanes (portOf s n) → Runs (.trainingStepComplete n o) s
      (modPort n (fun p => sendPrbs m { p with attempt := some { a with step := 4, lanes := m } }) s)) ∧
    (∀ m, a.step = 4 → o.timedOut = false → m = a.lanes &&& cleanLanes a.held o →
      (a.held = true → m ≠ usedMask s n → Runs (.trainingStepComplete n o) s (startStep2 n false s)) ∧
      (a.held = false ∨ m = usedMask s n → maskCount m < 2 → Runs (.trainingStepComplete n o) s (attemptFailed n 0x04 s)) ∧
      (a.held = false ∨ m = usedMask s n → 2 ≤ maskCount m → Runs (.trainingStepComplete n o) s
        (modPort n (fun p => sendTrain 5 m { p with attempt := some { a with step := 5, lanes := m } }) s))) ∧
    (a.step = 5 → o.timedOut = false → partnerLanes (portOf s n) = none →
      Runs (.trainingStepComplete n o) s (attemptFailed n 0x0C s)) ∧
    (∀ m, a.step = 5 → o.timedOut = false → partnerLanes (portOf s n) = some m →
      (maskCount (a.lanes &&& m) < 2 → Runs (.trainingStepComplete n o) s (attemptFailed n 0x04 s)) ∧
      (2 ≤ maskCount (a.lanes &&& m) → Runs (.trainingStepComplete n o) s (endStep5 n a (a.lanes &&& m) s))) ∧
    (a.step = 0 ∨ 6 ≤ a.step → o.timedOut = false → Runs (.trainingStepComplete n o) s s)) ∧
  (∀ (p : Port) (held : Bool) (o : TrainObs),
    lockedLanes p = lanesWhere (fun k => (laneOf p k).align == .locked) ∧
    cleanLanes held o = lanesWhere (fun k => decide (o.bitErrors.getD k 0 ≤ if held = true then 2250 else 22500)))

/-- O20: The width, the logical lanes and the spare follow from the good lanes.  For every list of good physical lanes in
ascending order: width x8 from 8 good lanes, x4 from 4, x2 from 2, DOWN below; logical lane l is the l-th good lane for every
l in the width and none beyond it; the spare is the next good lane when there is one and none otherwise.  (05 R129) -/
def Obligations.DeckleIsChosenByRank : Prop :=
  ∀ (good : List Nat) (e : Byte), good.Pairwise (· < ·) → (∀ k ∈ good, k < 9) →
    (chooseDeckle good e).width = (if 8 ≤ good.length then 3 else if 4 ≤ good.length then 2 else if 2 ≤ good.length then 1 else 0) ∧
    (∀ l < widthLanes (chooseDeckle good e).width, ∃ k, good[l]? = some k ∧ (physOf (chooseDeckle good e) l).toNat = k) ∧
    (∀ l, widthLanes (chooseDeckle good e).width ≤ l → physOf (chooseDeckle good e) l = 0xF) ∧
    ((chooseDeckle good e).width ≠ 0 → widthLanes (chooseDeckle good e).width < good.length →
      good[widthLanes (chooseDeckle good e).width]? = some (chooseDeckle good e).spare.toNat) ∧
    ((chooseDeckle good e).width = 0 ∨ good.length = widthLanes (chooseDeckle good e).width → (chooseDeckle good e).spare = 0xF)

/-- O21: A calender pass is wanted by temperature, by time, by retry or after deferral.  LANE_TEMPERATURE_READ records the
temperature and wants a pass when it has moved by 32 or more or 6,000 readings have gone by, unless a pass waits, is deferred
or waits for the twin's. The retry timer wants the pass, or the repair swap, that waits; the deferral's end forces it; a
silent partner makes it wait. A pass kept waiting goes on at the lane where it stopped. A port that may not pass begins none;
at a throttle level above 0 a pass not forced is deferred; one wanted while the twin passes waits for the twin's end; at x2
without a spare the pass is skipped and CAL_STALE set.  (05 R140; 05 R141; 05 R144) -/
def Obligations.PassesBeginWhenTheyAreDue : Prop :=
  (∀ (s u : State) (n : PortNo) (t : BitVec 10), live s = true →
    u = modPort n (fun p => { p with cal := { p.cal with
      temp := t, sinceCal := if inService p then p.cal.sinceCal + 1 else p.cal.sinceCal } }) s →
    ((portOf u n).cal.waiting = true ∨ (portOf u n).cal.deferred = true ∨ (portOf u n).cal.waitsTwin = true ∨
      (max t.toNat (portOf u n).cal.calTemp.toNat - min t.toNat (portOf u n).cal.calTemp.toNat < 32 ∧ (portOf u n).cal.sinceCal < 6000) →
      Runs (.laneTemperatureRead n t) s u) ∧
    ((portOf u n).cal.waiting = false → (portOf u n).cal.deferred = false → (portOf u n).cal.waitsTwin = false →
      32 ≤ max t.toNat (portOf u n).cal.calTemp.toNat - min t.toNat (portOf u n).cal.calTemp.toNat ∨ 6000 ≤ (portOf u n).cal.sinceCal →
      Runs (.laneTemperatureRead n t) s (wantPass n ((portOf u n).cal.retry.getD 0) u))) ∧
  (∀ (s u v : State) (n : PortNo), live s = true →
    u = modPort n (fun p => { p with cal := { p.cal with waiting := false } }) s →
    v = modPort n (fun p => { p with cal := { p.cal with deferred := false, forceActive := true } }) s →
    ((portOf s n).cal.waiting = true →
      ((portOf u n).cal.repair = false → Runs (.calenderRetryTimer n) s (wantPass n ((portOf u n).cal.retry.getD 0) u)) ∧
      ((portOf u n).cal.repair = true → inService (portOf u n) = true →
        Runs (.calenderRetryTimer n) s (beginRepair n ((portOf u n).cal.retry.getD 0) u)) ∧
      ((portOf u n).cal.repair = true → inService (portOf u n) = false → Runs (.calenderRetryTimer n) s u)) ∧
    ((portOf s n).cal.waiting = false → Runs (.calenderRetryTimer n) s s) ∧
    ((portOf s n).cal.deferred = true → Runs (.calenderDeferExpiry n) s (wantPass n ((portOf v n).cal.retry.getD 0) v)) ∧
    ((portOf s n).cal.deferred = false → Runs (.calenderDeferExpiry n) s s)) ∧
  (∀ (s : State) (n : PortNo), live s = true → (portOf s n).cal.pass.isSome = true → (portOf s n).cal.step = 1 →
    (portOf s n).deckle.spare ≠ 0xF → Runs (.calenderAnswerTimeout n) s (modPort n (fun p =>
      { stopPass p with cal := { (stopPass p).cal with
        waiting := true, repair := p.cal.repair, retry := if p.cal.repair = true then p.cal.pass else p.cal.retry } }) s)) ∧
  (∀ (s : State) (n : PortNo), live s = true → (portOf s n).cal.pass = none ∨ (portOf s n).cal.step ≠ 1 ∨
    (portOf s n).deckle.spare = 0xF → Runs (.calenderAnswerTimeout n) s s) ∧
  (∀ (s : State) (n l : Nat), mayPass s n = true → passSkipped (portOf s n) = false →
    (s.power.level = 0 ∨ (portOf s n).cal.forceActive = true →
      ((portOf s (twinOf n)).cal.pass = none → wantPass n l s = beginPass n l (portOf s n).cal.forceActive s) ∧
      ((portOf s (twinOf n)).cal.pass.isSome = true →
        wantPass n l s = modPort n (fun p => { p with cal := { p.cal with waitsTwin := true } }) s)) ∧
    (s.power.level ≠ 0 → (portOf s n).cal.forceActive = false →
      wantPass n l s = modPort n (fun p => { p with cal := { p.cal with deferred := true } }) s)) ∧
  (∀ (s : State) (n l : Nat), mayPass s n = true → passSkipped (portOf s n) = true →
    wantPass n l s = modPort n (fun p => { p with cal := { p.cal with stale := true } }) s) ∧
  (∀ (s : State) (n l : Nat), mayPass s n = false → wantPass n l s = s)

/-- O22: A calender pass trims, mirrors, compares and swaps each lane in turn.  CALENDER_STEP without a pass, or with one
that pauses, changes nothing. With a spare: step 2 trims the spare and mirrors the lane on it, step 3 goes on with at most 16
differences and fails the swap otherwise, step 4 swaps the lane with the spare and goes to the next lane or ends a repair,
step 5 trims the last spare and ends the pass; without one the port narrows for each lane in turn. CALENDER with the expected
spare, epoch and lane makes the port answer and take part, and one with another spare or epoch, beyond the width or out of
service changes nothing. A swap exchanges the lane and the spare and advances EPOCH.  (05 R126; 05 R141; 05 R142; 05 R143; 05
R144) -/
def Obligations.PassesRunTheirSteps : Prop :=
  (∀ (s : State) (n : PortNo) (d : Nat), live s = true → (portOf s n).cal.pass = none ∨ passPaused s n = true →
    Runs (.calenderStep n d) s s) ∧
  (∀ (s : State) (n : PortNo) (d l : Nat), live s = true → (portOf s n).cal.pass = some l → passPaused s n = false →
    ((portOf s n).deckle.spare = 0xF → Runs (.calenderStep n d) s (narrowStep n l s)) ∧
    ((portOf s n).deckle.spare ≠ 0xF →
      ((portOf s n).cal.step = 2 → Runs (.calenderStep n d) s
        (modPort n (fun p => setSpare lsMirror .data { p with cal := { p.cal with step := 3 } }) (trimSpare n s))) ∧
      ((portOf s n).cal.step = 3 → d ≤ 16 → Runs (.calenderStep n d) s
        (modPort n (fun p => { p with cal := { p.cal with step := 4 } }) s)) ∧
      ((portOf s n).cal.step = 3 → 16 < d → Runs (.calenderStep n d) s (swapFailed n l s)) ∧
      (∀ u, (portOf s n).cal.step = 4 → u = modPort n (swapLane l) s →
        ((portOf u n).cal.repair = false → Runs (.calenderStep n d) s (modPort n (nextLogical l) u)) ∧
        ((portOf u n).cal.repair = true → Runs (.calenderStep n d) s (endRepair n u))) ∧
      (∀ u, (portOf s n).cal.step = 5 → u = trimSpare n s →
        ((portOf u n).cal.repair = false → Runs (.calenderStep n d) s (endPass n u)) ∧
        ((portOf u n).cal.repair = true → Runs (.calenderStep n d) s (modPort n stopPass u))))) ∧
  (∀ (s : State) (n : PortNo) (l : Fin 8) (sp : LaneNo) (e : Byte), live s = true → inService (portOf s n) = true →
    (portOf s n).deckle.spare.toNat = sp.val → (portOf s n).deckle.epoch + 1 = e → l.val < widthLanes (portOf s n).deckle.width →
    ((portOf s n).cal.pass = none → Runs (.calender n l sp e) s (modPort n (fun p =>
      trimState { sendCalender l (idleExit n p) with
        loopMode := 0, loopLanes := 0
        cal := { (sendCalender l (idleExit n p)).cal with pass := some l.val, step := 2, peerPass := true } }) s)) ∧
    ((portOf s n).cal.pass = some l.val → (portOf s n).cal.step = 1 → Runs (.calender n l sp e) s (modPort n (fun p =>
      trimState { p with cal := { p.cal with
        step := 2, peerPass := p.cal.peerPass || (decide (l.val = 0) && decide ((portOf s n).peerEndpoint.toNat < selfEp s)) } }) s))) ∧
  (∀ (s : State) (n : PortNo) (l : Fin 8) (sp : LaneNo) (e : Byte), live s = true → inService (portOf s n) = false ∨
    (portOf s n).deckle.spare.toNat ≠ sp.val ∨ (portOf s n).deckle.epoch + 1 ≠ e ∨ widthLanes (portOf s n).deckle.width ≤ l.val →
    Runs (.calender n l sp e) s s) ∧
  (∀ (p : Port) (l : Nat), (swapLane l p).deckle = { p.deckle with
    map := tabSet 0xF l p.deckle.spare p.deckle.map, spare := physOf p.deckle l, epoch := p.deckle.epoch + 1 })

/-- O23: A lane with more than 268 corrected symbols in a window fails.  LANE_ERROR_WINDOW with nothing armed for injection
adds the counts to each lane's counter and acts on every lane of the Deckle with more than 268 corrected symbols in the
window, its own decoder's included: with a spare the lane is swapped out by a repair pass, without one it fails. A logical
lane that fails outside a pass moves to the spare, which is trimmed first and so is the new spare after it (in the same step:
the model's choice, log entry 102), with a TAKEOVER record that names width and spare; a lane that has failed before, or
whose port has no link, changes nothing.  (05 R122; 05 R138; 05 R139) -/
def Obligations.ErrorWindowsFailBadLanes : Prop :=
  (∀ (s : State) (n : PortNo) (c : List Nat), live s = true → s.err.inject = none → Runs (.laneErrorWindow n c) s
    ((allLanes.filter (fun k => decide (268 < c.getD k 0 + (laneOf (portOf s n) k).winSymbols))).foldl (fun t k => laneWorn n k t)
      (modPort n (setLanes (fun k x => { x with corrSymbols := satAdd x.corrSymbols (c.getD k 0), winSymbols := 0 })) s))) ∧
  (∀ (s : State) (n k : Nat), logicalOf (portOf s n).deckle k = none ∨ inService (portOf s n) = false ∨ (portOf s n).cal.repair = true →
    laneWorn n k s = s) ∧
  (∀ (s : State) (n k l : Nat), logicalOf (portOf s n).deckle k = some l → inService (portOf s n) = true →
    (portOf s n).cal.repair = false →
    ((portOf s n).deckle.spare = 0xF → laneWorn n k s = laneFailed n k s) ∧
    ((portOf s n).deckle.spare ≠ 0xF → laneWorn n k s = beginRepair n l s)) ∧
  (∀ (s u v : State) (n k l : Nat), linkUp (portOf s n) = true → (portOf s n).deckle.width ≠ 0 → (laneOf (portOf s n) k).good = true →
    (portOf s n).cal.pass = none → (portOf s n).cal.repair = false → (portOf s n).deckle.spare ≠ 0xF →
    logicalOf (portOf s n).deckle k = some l →
    u = setPort n (modLane k (fun x => { stopLane lsFailed x with good := false, tx := .quiet }) (portOf s n)) s →
    v = lanesTaken (trimSpare n (modPort n (takeSpare l) (trimSpare n u))) →
    laneFailed n k s = logTakeover
      { cls := clsLane, sev := 1, port := n, unitKind := 1, unitIndex := 9 * n + k
        detail := leBytes 1 (widthLanes (portOf v n).deckle.width) ++ leBytes 1 (portOf v n).deckle.spare.toNat }
      (goodLanes (portOf v n)).length v) ∧
  (∀ (s : State) (n k : Nat), linkUp (portOf s n) = false ∨ (portOf s n).deckle.width = 0 ∨ (laneOf (portOf s n) k).good = false →
    laneFailed n k s = s)

/-- O24: A register write is performed, refused or unmapped, and answered so.  REGISTER_WRITE by privileged software or a
READY partition, with a byte enabled, past start-up: a write that the register takes is performed and answered OK; one that
it does not take is refused, counted and answered 01; one to an unassigned offset is answered 10 and recorded; one before
ready, or of an unknown requester, is refused and recorded. (VAT_WIN_DATA has its own statement.)  (14 R381; 17 R458; 17
R459; 17 R460; 17 R464) -/
def Obligations.RegisterAccessesAreAnswered : Prop :=
  (∀ (s t : State) (off : BitVec 24) (a : RegAcc), MayWrite a s → off ≠ 0xA00308 → (readReg off.toNat s).isSome = true →
    wrAt off.toNat a.par.toNat a.value a.be s = some t → Runs (.registerWrite off a) s (answered 0 t)) ∧
  (∀ (s : State) (off : BitVec 24) (a : RegAcc), MayWrite a s → off ≠ 0xA00308 → (readReg off.toNat s).isSome = true →
    wrAt off.toNat a.par.toNat a.value a.be s = none → Runs (.registerWrite off a) s (answered 1 { s with access :=
      { count := satInc s.access.count, offset := off, par := a.par, kind := 1, wasWrite := true } })) ∧
  (∀ (s : State) (off : BitVec 24) (a : RegAcc), MayWrite a s → readReg off.toNat s = none →
    Runs (.registerWrite off a) s (answered 2 { s with access :=
      { count := satInc s.access.count, offset := off, par := a.par, kind := 2, wasWrite := true } })) ∧
  (∀ (s : State) (off : BitVec 24) (a : RegAcc), live s = true → s.pins.ready = false ∨ (16 ≤ a.par.toNat ∧ a.par ≠ 0x1F) →
    Runs (.registerWrite off a) s (answered 1 { s with access :=
      { count := satInc s.access.count, offset := off, par := a.par, kind := 1, wasWrite := true } }))

/-- O25: Writes of PWR_STATE, PWR_CEIL, PORT_LINK and PORT_LOOP_CTRL.  A privileged write of PWR_STATE sets IDLE_DELAY and
POLICY, which acts at once in P0; one of PWR_CEIL_HOST sets the host's ceiling; the RETRAIN bit of a port orders a retrain
with the FULL_CAL written; PASS_NOW begins a pass where one may begin; and PORT_LOOP_CTRL sets a port's loops in TEST and is
refused in any other state. Each is answered on the command port.  (03 R71; 03 R82; 03 R85; 05 R145; 06 R469) -/
def Obligations.PowerAndPortRegisters : Prop :=
  (∀ (s : State) (a : RegAcc), HostWrite a s → a.be.getLsbD 0 = true → Runs (.policy a) s (answered 0
    (setPolicyBit (bitOf (mergeBytes (rdPwrState s.power) a.value a.be).toNat 3)
      { s with power := { s.power with idleDelay := BitVec.ofNat 16 (fld (mergeBytes (rdPwrState s.power) a.value a.be) 16 16) } }))) ∧
  (∀ s : State, s.power.transition = none → s.power.cur = 0 →
    setPolicyBit true s = { s with power := { s.power with policy := true, cur := 1 } } ∧
    setPolicyBit false s = { s with power := { s.power with policy := false } }) ∧
  (∀ (s : State) (a : RegAcc), HostWrite a s → Runs (.hostCeil a) s (answered 0
    (orderHost (BitVec.ofNat 12 (fld (mergeBytes (s.power.hostCeil.setWidth 64) a.value a.be) 0 12)) s))) ∧
  (∀ (s : State) (n : PortNo) (a : RegAcc), HostWrite a s → a.be.getLsbD 0 = true → bitOf a.value.toNat 2 = false →
    (bitOf a.value.toNat 0 = true → Runs (.portRetrain n a) s (answered 0 (orderRetrain n (bitOf a.value.toNat 1) s))) ∧
    (bitOf a.value.toNat 0 = false → Runs (.portRetrain n a) s (answered 0 s))) ∧
  (∀ (s : State) (n : PortNo) (a : RegAcc), HostWrite a s → a.be.getLsbD 0 = true → bitOf a.value.toNat 2 = true →
    bitOf a.value.toNat 0 = false → mayPass s n = true → passSkipped (portOf s n) = false → s.power.level = 0 →
    (portOf s (twinOf n)).cal.pass = none → passPaused s n = false →
    Runs (.passNow n a) s (answered 0 (beginPass n 0 false s))) ∧
  (∀ (s : State) (n : PortNo) (a : RegAcc), HostWrite a s → (portOf s n).state = psTest →
    Runs (.portLoopCtrl n a) s (answered 0 (modPort n (chooseLoops
      (BitVec.ofNat 2 (fld (mergeBytes (rdLoopCtrl (portOf s n)) a.value a.be) 0 2))
      (bitOf (mergeBytes (rdLoopCtrl (portOf s n)) a.value a.be).toNat 2)
      (BitVec.ofNat 9 (fld (mergeBytes (rdLoopCtrl (portOf s n)) a.value a.be) 3 9))) s))) ∧
  (∀ (s : State) (n : PortNo) (a : RegAcc), HostWrite a s → (portOf s n).state ≠ psTest →
    Runs (.portLoopCtrl n a) s (answered 1 { s with access :=
      { count := satInc s.access.count, offset := BitVec.ofNat 24 (0x100270 + 0x10000 * n), par := a.par, kind := 1, wasWrite := true } }))

/-- O26: Rank entries are written by halves, and a commit starts the digest.  RTE_RANK writes its two entries when no digest
is being computed and neither written entry is refused; RTE_RANK_COMMIT advances RANK_GEN and starts the digest, and is
refused while one is being computed.  (07 R188; 07 R191) -/
def Obligations.RankTableWritesAndCommit : Prop :=
  (∀ (s t : State) (w : Fin 65536) (a : RegAcc), HostWrite a s → s.route.digestBusy = false →
    t = writeRank (2 * w + 1) (BitVec.ofNat 32 (fld (mergeBytes (rdRank s w) a.value a.be) 32 32))
      (writeRank (2 * w) (BitVec.ofNat 32 (fld (mergeBytes (rdRank s w) a.value a.be) 0 32)) s) →
    (fieldTouched a.be 0 32 = true → rankRefused t (2 * w) (BitVec.ofNat 32 (fld (mergeBytes (rdRank s w) a.value a.be) 0 32)) = false) →
    (fieldTouched a.be 32 32 = true →
      rankRefused t (2 * w + 1) (BitVec.ofNat 32 (fld (mergeBytes (rdRank s w) a.value a.be) 32 32)) = false) →
    Runs (.rteRank w a) s (answered 0 t)) ∧
  (∀ (s : State) (a : RegAcc), HostWrite a s → s.route.digestBusy = false → a.be.getLsbD 0 = true → bitOf a.value.toNat 0 = true →
    Runs (.rteRankCommit a) s (answered 0 { s with route := { s.route with rankGen := s.route.rankGen + 1, digestBusy := true } })) ∧
  (∀ (s : State) (a : RegAcc), HostWrite a s → s.route.digestBusy = true →
    Runs (.rteRankCommit a) s (answered 1 { s with access :=
      { count := satInc s.access.count, offset := 0x200040, par := a.par, kind := 1, wasWrite := true } })) ∧
  (∀ (s : State) (r : Nat) (e : BitVec 32), tabGet 0 (writeRank r e s).route.ranks r = e)

/-- O27: An accepted doorbell moves TAIL; a bad one is counted and halts.  DOORBELL by the queue's owner with its four bytes
enabled: ignored and counted when the bound context is not OPEN (the model's reading, log entry 35), accepted when the new
TAIL is at most the ring ahead of HEAD and not below what has been fetched, and bad otherwise; in HALTED an accepted one only
records TAIL and a bad one is only counted.  (09 R251; 09 R255; 09 R256) -/
def Obligations.DoorbellsMoveTheTail : Prop :=
  (∀ (s : State) (q : QueueNo) (a : RegAcc), MayWrite a s → ownerOk (queuePart s q) a.par.toNat = true → a.be.toNat % 16 = 15 →
    ((queueOf s q).bound = true → (ctxOf s (queueOf s q).ctx).state ≠ ctxOpen →
      Runs (.doorbell q a) s (answered 0 { s with cq := { s.cq with ignored := satInc s.cq.ignored } })) ∧
    ((queueOf s q).bound = false ∨ (ctxOf s (queueOf s q).ctx).state = ctxOpen →
      doorbellOk (queueOf s q) (a.value.setWidth 32) = true →
      Runs (.doorbell q a) s (answered 0 (goodDoorbell q (a.value.setWidth 32) s))) ∧
    ((queueOf s q).bound = false ∨ (ctxOf s (queueOf s q).ctx).state = ctxOpen →
      doorbellOk (queueOf s q) (a.value.setWidth 32) = false →
      Runs (.doorbell q a) s (answered 0 (badDoorbell q s)))) ∧
  (∀ (s : State) (q : QueueNo) (t : BitVec 32), (queueOf s q).state = qHalted →
    goodDoorbell q t s = modQueue q (fun x => { x with tail := t }) s ∧
    badDoorbell q s = { s with cq := { s.cq with bad := satInc s.cq.bad } }) ∧
  (∀ (q : Queue) (t : BitVec 32), doorbellOk q t = true ↔ aheadOf q t ≤ 2 ^ ringLog2Of q ∧ aheadOf q q.nextFetch ≤ aheadOf q t)

/-- O28: CNT_VALUE sets a counter and CNT_ADD adds to it, for its owner.  A write of CNT_VALUE by the counter's owner sets
the enabled bytes; a write of all of CNT_ADD adds modulo 2^64; a write of CNT_VALUE by another requester is refused and
recorded.  (09 R271; 17 R460) -/
def Obligations.CounterRegisters : Prop :=
  (∀ (s : State) (k : Fin 65536) (a : RegAcc), MayWrite a s → ownerOk (cntPart s k) a.par.toNat = true →
    Runs (.cntValue k a) s (answered 0 (setCounter k (mergeBytes (cntOf s k) a.value a.be) s))) ∧
  (∀ (s : State) (k : Fin 65536) (a : RegAcc), MayWrite a s → ownerOk (cntPart s k) a.par.toNat = true → a.be = 0xFF →
    Runs (.cntAdd k a) s (answered 0 (setCounter k (cntOf s k + a.value) s))) ∧
  (∀ (s : State) (k : Fin 65536) (a : RegAcc), MayWrite a s → ownerOk (cntPart s k) a.par.toNat = false →
    Runs (.cntValue k a) s (answered 1 { s with access :=
      { count := satInc s.access.count, offset := 0x600000 + 8 * BitVec.ofNat 24 k, par := a.par, kind := 1, wasWrite := true } }))

/-- O29: Invalidations, fault queue registers and sticky flags.  INVALIDATE by its slot's owner on an allocated context
removes the span and completes when the uses of the old epoch have ended; reserved bits give MALFORMED. INVALIDATE_COMPLETE
ends a busy one whose uses have ended, and nothing otherwise. XLT_FQ_CFG (privileged) sets FQ_LOG2 and empties the fault
queue, records that wait to be written counting as overflow, XLT_FQ_PTRS moves HEAD up to TAIL, and XLT_STICKY clears the
flags of the requester's contexts.  (10 R290; 10 R291; 10 R296; 10 R297; 10 R298) -/
def Obligations.TranslationRegisters : Prop :=
  (∀ (s t u : State) (r : Fin 17) (c : CtxNo) (a : RegAcc), MayWrite a s → slotOwner r a.par.toNat = true → a.be = 0xFF →
    fld a.value 10 6 = 0 → fld a.value 17 47 = 0 → fld a.value 0 10 = c.val → ownerOk (ctxPart s c) a.par.toNat = true →
    (∀ p, ctxPart s c = some p → (partOf s p).state = partReady) → (invOf s r).busy = false → (ctxOf s c).state ≠ ctxFree →
    t = modInv r (fun i => { i with code := stOk, busy := true, ctx := c, irq := bitOf a.value.toNat 16 }) s →
    u = invalidateSpan c (invOf s r).addr (invOf s r).len.toNat t →
    Runs (.invalidate r a) s (answered 0 (invComplete r u))) ∧
  (∀ (s : State) (r : Fin 17) (a : RegAcc), MayWrite a s → slotOwner r a.par.toNat = true → a.be = 0xFF →
    fld a.value 10 6 ≠ 0 ∨ fld a.value 17 47 ≠ 0 →
    Runs (.invalidate r a) s (answered 0 (modInv r (fun i => { i with code := stMalformed }) s))) ∧
  (∀ (s : State) (r : Fin 17), live s = true → (invOf s r).busy = true → (ctxOf s (invOf s r).ctx).usesOld = 0 → (invOf s r).irq = false →
    Runs (.invalidateComplete r) s (modInv r (fun i => { i with busy := false, doneSeq := i.doneSeq + 1 }) s)) ∧
  (∀ (s : State) (r : Fin 17), live s = true → (invOf s r).busy = false ∨ (ctxOf s (invOf s r).ctx).usesOld ≠ 0 →
    Runs (.invalidateComplete r) s s) ∧
  (∀ (s : State) (p : PartNo) (a : RegAcc), HostWrite a s → a.be.getLsbD 0 = true → Runs (.xltFqCfg p a) s (answered 0
    (modFq p (fun f => { f with log2 := BitVec.ofNat 5 (fld a.value 0 5), head := 0, tail := 0, overflowed := false })
      ((fqOf s p).writing.foldl (fun t x => overflowFault p x.1 t) (dropFaults p s))))) ∧
  (∀ (s : State) (p : PartNo) (h : BitVec 32) (a : RegAcc), MayWrite a s → fqOwner p a.par.toNat = true → a.be = 0xFF →
    h = a.value.setWidth 32 → (h - (fqOf s p).head).toNat ≤ ((fqOf s p).tail - (fqOf s p).head).toNat →
    Runs (.xltFqPtrs p a) s (answered 0 (modFq p (fun f => { f with head := h, overflowed := f.overflowed && h != f.tail }) s))) ∧
  (∀ (s : State) (w : Fin 16) (a : RegAcc), MayWrite a s → Runs (.xltSticky w a) s (answered 0
    ((List.range 64).foldl (fun t b =>
      if ((a.value &&& beMask a.be).getLsbD b && ownerOk (ctxPart t (64 * w.val + b)) a.par.toNat) = true then
        modCtx (64 * w.val + b) (fun x => { x with sticky := false }) t else t) s)))

/-- O30: ENABLE opens an import window and WITHDRAW begins to close it.  ENABLE of a DISABLED window by its owner, when the
window's checks hold, enables it with the rights and the kind written; WITHDRAW of an ENABLED one makes it WITHDRAWING;
WINDOW_WITHDRAWAL_COMPLETE of a window that is not WITHDRAWING changes nothing.  (10 R303; 10 R305; 10 R306) -/
def Obligations.ImportWindowsOpenAndClose : Prop :=
  (∀ (s : State) (w : Fin 4096) (y : Window) (p : PartNo) (a : RegAcc), MayWrite a s → ownerOk (winPart s w) a.par.toNat = true →
    a.be.getLsbD 0 = true → (winOf s w).state = winDisabled → winPart s w = some p → (partOf s p).state = partReady →
    bitOf a.value.toNat 2 = true → bitOf a.value.toNat 3 = false →
    y = { winOf s w with rights := BitVec.ofNat 3 (fld a.value 4 3), counter := bitOf a.value.toNat 7 } → winEnableOk s w y = true →
    Runs (.enable w a) s (answered 0 (modWin w (fun _ => { y with state := winEnabled }) s))) ∧
  (∀ (s : State) (w : Fin 4096) (a : RegAcc), MayWrite a s → ownerOk (winPart s w) a.par.toNat = true →
    a.be.getLsbD 0 = true → (winOf s w).state = winEnabled → bitOf a.value.toNat 3 = true → bitOf a.value.toNat 2 = false →
    Runs (.withdraw w a) s (answered 0 (modWin w (fun x => { x with state := winWithdrawing }) s))) ∧
  (∀ (s : State) (w : Fin 4096), live s = true → (winOf s w).state ≠ winWithdrawing → Runs (.windowWithdrawalComplete w) s s)

/-- O31: The Vat's window, its march test and the Beaters' self-test.  VAT_WIN_ADDR sets the window address; a permitted
write or read of VAT_WIN_DATA moves 8 bytes there and advances it, the read giving free bytes where the window's contents are
not known (log entry 81); VAT_MARCH and BTR_SELFTEST start their tests where they are allowed.  (12 R356; 12 R357; 13 R374;
13 R377) -/
def Obligations.VatAndBeaterRegisters : Prop :=
  (∀ (s : State) (a : RegAcc), MayWrite a s → Runs (.vatWinAddr a) s (answered 0 { s with vat := { s.vat with
    winAddr := BitVec.ofNat 22 (fld (mergeBytes (packFields [(3, 22, s.vat.winAddr.toNat)]) a.value a.be) 3 22) } })) ∧
  (∀ (s : State) (a : RegAcc), MayWrite a s → s.err.inject = none → winAllowed a.par.toNat true s = true →
    Runs (.vatWinData true a) s (answered 0 { s with vat := { s.vat with
      mem := Memory.writeBytes s.vat.mem (8 * s.vat.winAddr.toNat)
        (leBytes 8 (mergeBytes (BitVec.ofNat 64 (leNat (Memory.readBytes s.vat.mem (8 * s.vat.winAddr.toNat) 8))) a.value a.be).toNat)
      winAddr := s.vat.winAddr + 1 } })) ∧
  (∀ (s : State) (a : RegAcc), Ready s → a.par = 0x1F ∨ a.par.toNat < 16 → winAllowed a.par.toNat false s = true →
    (winUnknown s = false → Runs (.vatWinData false a) s { s with
      vat := { s.vat with winAddr := s.vat.winAddr + 1 }
      out := { s.out with cmdRsp :=
        { rdata := BitVec.ofNat 64 (leNat (Memory.readBytes s.vat.mem (8 * s.vat.winAddr.toNat) 8)), err := 0 } } }) ∧
    (winUnknown s = true → Runs (.vatWinData false a) s { s with
      freeCtr := s.freeCtr + 1
      vat := { s.vat with winAddr := s.vat.winAddr + 1 }
      out := { s.out with cmdRsp :=
        { rdata := BitVec.ofNat 64 (leNat (upTo 8 (fun k => Config.undefinedByte s.freeCtr k))), err := 0 } } })) ∧
  (∀ (s : State) (a : RegAcc), HostWrite a s → s.fur.directed = true → a.be.getLsbD 0 = true → bitOf a.value.toNat 0 = true →
    marchAllowed (bitOf a.value.toNat 1) s = true → Runs (.vatMarch a) s (answered 0 { s with vat := { s.vat with
      mode := bitOf a.value.toNat 1, busy := true, preserving := bitOf a.value.toNat 1
      state := if bitOf a.value.toNat 1 then s.vat.state else vatTesting } })) ∧
  (∀ (s : State) (a : RegAcc), HostWrite a s → selfTestAllowed s = true → a.be.getLsbD 0 = true → bitOf a.value.toNat 0 = true →
    Runs (.btrSelftest a) s (answered 0 { s with btr := { s.btr with busy := true } }))

/-- O32: Partition reset, engine-domain reset and an interrupt vector's control.  RESET of a partition that may be reset
starts it, and is refused with STATE_REFUSED in LAST_CODE otherwise; ENGINE_RESET likewise; IRQ_VEC_CTRL by the owner (TAG by
privileged software only) sets TAG, threshold, time and mask of a vector and makes its message when R383 lets it.  (14 R383;
14 R398; 14 R400) -/
def Obligations.PartitionAndInterruptRegisters : Prop :=
  (∀ (s : State) (p : PartNo) (a : RegAcc), HostWrite a s → a.be.getLsbD 0 = true → bitOf a.value.toNat 2 = true →
    (partResetOk p s = true → Runs (.reset p a) s (answered 0 (startPartReset p (modPart p (fun q => { q with lastCode := stOk }) s)))) ∧
    (partResetOk p s = false → Runs (.reset p a) s (answered 0 (modPart p (fun q => { q with lastCode := stStateRefused }) s)))) ∧
  (∀ (s : State) (a : RegAcc), HostWrite a s → a.be.getLsbD 0 = true → bitOf a.value.toNat 0 = true →
    (s.par.engineBusy = false → inP3 s = false →
      Runs (.engineReset a) s (answered 0 (startEngineReset { s with par := { s.par with lastCode := stOk.setWidth 4 } }))) ∧
    (s.par.engineBusy = true ∨ inP3 s = true →
      Runs (.engineReset a) s (answered 0 { s with par := { s.par with lastCode := stStateRefused.setWidth 4 } }))) ∧
  (∀ (s : State) (p v : PartNo) (a : RegAcc), MayWrite a s → ownerOk (some p) a.par.toNat = true →
    a.par = 0x1F ∨ fieldTouched a.be 0 16 = false →
    Runs (.irqVecCtrl p v a) s (answered 0 (tryMessage p v (modVec p v (fun t => { t with
      tag := BitVec.ofNat 16 (fld (mergeBytes (rdVecCtrl t) a.value a.be) 0 16)
      thresh := BitVec.ofNat 8 (fld (mergeBytes (rdVecCtrl t) a.value a.be) 16 8)
      timeUs := BitVec.ofNat 12 (fld (mergeBytes (rdVecCtrl t) a.value a.be) 24 12)
      mask := bitOf (mergeBytes (rdVecCtrl t) a.value a.be).toNat 36 }) s))))

/-- O33: DRAIN, CAPTURE_NOW, ARM and the steward mailbox.  A privileged write of ERR_CTRL sets its fields and declares the
endpoint suspect, or takes a capture; one that would change a locked field is refused. ERR_INJECT arms an injection where
injection is enabled, COUNT 0 arming none (the model's reading, log entry 72). STW_MBOX_CMD runs the mailbox command on the
payload while the mailbox is not busy and leaves its response.  (15 R424; 15 R425; 15 R430; 16 R454; 00 R467) -/
def Obligations.ErrorAndMailboxRegisters : Prop :=
  (∀ (s t : State) (a : RegAcc) (r : Word), HostWrite a s → rwlChange 0xC00000 a.value a.be s = false → a.be.getLsbD 0 = true →
    r = mergeBytes (rdErrCtrl s.err) a.value a.be →
    t = { s with err := { s.err with
      hangScan := bitOf r.toNat 0, injectEnable := bitOf r.toNat 3, faultStallMs := BitVec.ofNat 16 (fld r 16 16) } } →
    (bitOf a.value.toNat 1 = true → bitOf a.value.toNat 2 = false →
      Runs (.errCtrlDrain a) s (answered 0 (declareSuspect 4 t))) ∧
    (bitOf a.value.toNat 1 = false → bitOf a.value.toNat 2 = true →
      Runs (.captureNow a) s (answered 0 (capture 6 .all 0 t)))) ∧
  (∀ (s : State) (a : RegAcc), HostWrite a s → rwlChange 0xC00000 a.value a.be s = true →
    Runs (.errCtrlDrain a) s (answered 1 { s with access :=
      { count := satInc s.access.count, offset := 0xC00000, par := a.par, kind := 1, wasWrite := true } })) ∧
  (∀ (s : State) (a : RegAcc) (i : Inject), HostWrite a s → a.be = 0xFF → bitOf a.value.toNat 32 = true → s.err.injectEnable = true →
    i = { kind := BitVec.ofNat 4 (fld a.value 0 4), unit := BitVec.ofNat 8 (fld a.value 8 8), left := fld a.value 16 16 } →
    Runs (.arm a) s (answered 0 { s with err := { s.err with injectSet := i, inject := if i.left = 0 then none else some i } })) ∧
  (∀ (s : State) (a : RegAcc), HostWrite a s → s.sec.mboxBusy = false → a.be.getLsbD 0 = true → a.be.getLsbD 1 = true →
    Runs (.stwMboxCmd a) s (answered 0 (mboxRespond
      (runMailbox (BitVec.ofNat 8 (fld a.value 0 8)) ((mboxBytes s).take (fld a.value 8 8)) s))))

/-- O34: The seven context and queue commands of CTX_CMD.  Through its own slot, with rights and the objects' states as R253
asks: CTX_OPEN opens a FREE context and advances GEN (STATE_REFUSED otherwise), CTX_CLOSE closes an OPEN one, Q_BIND binds a
halted unbound queue to an OPEN context of its partition and clears its pointers, Q_UNBIND frees it, Q_ENABLE starts it at
HEAD, Q_HALT halts an idle queue, Q_RESUME resumes a switched-out one; each leaves its code in the slot.  (09 R246; 09 R247;
09 R252; 09 R253) -/
def Obligations.ContextCommandsTakeEffect : Prop :=
  ∀ (s : State) (c : CtxCmd) (x : CtxNo) (q : QueueNo), slotOwner c.slot c.par.toNat = true →
    MayWrite { par := c.par, be := 0xFF, value := 0 } s →
    (c.object.toNat = x.val → c.arg = 0 → cmdRightsOk s c.par.toNat cmdCtxOpen x 0 = true → cmdReady s cmdCtxOpen x = true →
      ((ctxOf s x).state = ctxFree → Runs (.ctxOpen c) s (answered 0 (slotTakes c.slot cmdCtxOpen stOk
        (removeRanges (fun r => r.ctx == x) (modCtx x (fun y => { y with state := ctxOpen, gen := y.gen + 1 }) s))))) ∧
      ((ctxOf s x).state ≠ ctxFree → Runs (.ctxOpen c) s (answered 0 (slotTakes c.slot cmdCtxOpen stStateRefused
        { s with cq := { s.cq with stateRefusals := satInc s.cq.stateRefusals } })))) ∧
    (c.object.toNat = x.val → c.arg = 0 → cmdRightsOk s c.par.toNat cmdCtxClose x 0 = true → cmdReady s cmdCtxClose x = true →
      (ctxOf s x).state = ctxOpen → Runs (.ctxClose c) s (answered 0 (slotTakes c.slot cmdCtxClose stOk
        (closeContext x (capture 1 (.context x) 0 s))))) ∧
    (c.object.toNat = q.val → c.arg.toNat = x.val → cmdRightsOk s c.par.toNat cmdQBind q x = true → cmdReady s cmdQBind q = true →
      (queueOf s q).state = qHalted → (queueOf s q).bound = false → (ctxOf s x).state = ctxOpen → ctxPart s x = queuePart s q →
      Runs (.qBind c) s (answered 0 (slotTakes c.slot cmdQBind stOk (modQueue q (fun y => { y with
        bound := true, ctx := x, head := 0, tail := 0, nextStart := 0, nextFetch := 0, fetched := [], lateOwed := [] }) s)))) ∧
    (c.object.toNat = q.val → c.arg = 0 → cmdRightsOk s c.par.toNat cmdQUnbind q 0 = true → cmdReady s cmdQUnbind q = true →
      (queueOf s q).state = qHalted → (queueOf s q).bound = true →
      Runs (.qUnbind c) s (answered 0 (slotTakes c.slot cmdQUnbind stOk (modQueue q (fun y => { y with bound := false }) s)))) ∧
    (c.object.toNat = q.val → c.arg = 0 → cmdRightsOk s c.par.toNat cmdQEnable q 0 = true → cmdReady s cmdQEnable q = true →
      (queueOf s q).state = qHalted → (queueOf s q).bound = true → (ctxOf s (queueOf s q).ctx).state = ctxOpen →
      Runs (.qEnable c) s (answered 0 (slotTakes c.slot cmdQEnable stOk (fetchNow q (modQueue q (fun y => { y with
        state := if y.tail = y.head then qIdle else qRunning, errCause := 0, nextStart := y.head, nextFetch := y.head, fetched := []
        periods := if y.periodic then 0 else y.periods, releasePt := y.tail, periodStart := s.nowUs }) s))))) ∧
    (c.object.toNat = q.val → c.arg.toNat < 2 → cmdRightsOk s c.par.toNat cmdQHalt q c.arg.toNat = true → cmdReady s cmdQHalt q = true →
      (queueOf s q).state = qIdle → Runs (.qHalt c) s (answered 0 (slotTakes c.slot cmdQHalt stOk
        (modQueue q (fun y => { y with state := qHalted, errCause := 5 }) s)))) ∧
    (c.object.toNat = q.val → c.arg = 0 → cmdRightsOk s c.par.toNat cmdQResume q 0 = true → cmdReady s cmdQResume q = true →
      (queueOf s q).state = qSwitchedOut → (ctxOf s (queueOf s q).ctx).state = ctxOpen →
      ∃ t, resumeQueue q s = some t ∧ Runs (.qResume c) s (answered 0 (slotTakes c.slot cmdQResume stOk t)))

/-- O35: A control packet that may not come now is malformed.  For each of the 19 commands that carry a control packet: when
its type may not come in the port's state, the packet is taken from the port's inbox where it waits there, a port whose link
is up has a malformed event, one without a link ignores the packet, and nothing else happens.  (06 R158; 06 R182) -/
def Obligations.ControlPacketsAreJudged : Prop :=
  ∀ (c : Instr) (s : State) (n : PortNo) (typ : Byte) (part : Bool) (body : List Byte), live s = true →
    ctrlOf c = some (n, typ, part, body) → ctrlAllowed (portOf s n) typ = false →
    Runs c s (if linkUp (portOf s n) then malformedAt n (fromInbox n typ part body s) else fromInbox n typ part body s)

/-- O36: NAK, REPLAY_START, CNAK and the replay timers.  NAK with an EXPECTED among the unacknowledged flits frees those
before it and starts a replay from it; any other is impossible and loses the link. REPLAY_START with a count the receiver may
take makes it expect that count, any other loses the link. CNAK resends control packets. The replay timeout replays from the
oldest flit and loses the link at the fourth time; the wait for REPLAY_START sends NAK again and loses the link after four.
The end of the acknowledgement time lets a null flit go, waking the port.  (06 R162; 06 R163; 06 R164; 06 R167; 06 R182) -/
def Obligations.ReplayFollowsTheCounts : Prop :=
  (∀ (s u w : State) (n : PortNo) (e : Count) (r : Byte), Takes (.nak n e r) s u → inService (portOf u n) = true →
    w = logErr { cls := clsLink, sev := 0, transient := true, port := n, unitKind := 2, detail := leBytes 5 e.toNat } (countNak n u) →
    (∀ d, fromOldest (portOf w n).tx e = some d →
      Runs (.nak n e r) s (startReplay n e 1 (modPort n (fun p => { p with tx := freeAcked d p.tx }) w))) ∧
    (fromOldest (portOf w n).tx e = none → Runs (.nak n e r) s (impossibleCount n w))) ∧
  (∀ (s u : State) (n : PortNo) (e : Count) (r : Byte), Takes (.nak n e r) s u → inService (portOf u n) = false → Runs (.nak n e r) s u) ∧
  (∀ (s u : State) (n : PortNo) (f : Count) (r : Byte), Takes (.replayStart n f r) s u → inService (portOf u n) = true →
    (f = (portOf u n).rx.expected ∨ belowInWindow f (portOf u n).rx.expected = true → Runs (.replayStart n f r) s
      (modPort n (fun p => { p with rx := { p.rx with cur := f, waiting := false } }) u)) ∧
    (f ≠ (portOf u n).rx.expected → belowInWindow f (portOf u n).rx.expected = false →
      Runs (.replayStart n f r) s (impossibleCount n u))) ∧
  (∀ (s u : State) (n : PortNo) (e : BitVec 16), Takes (.cnak n e) s u →
    Runs (.cnak n e) s (modPort n (fun p => { p with ctl := { takeCack e p.ctl with sent := 0 } }) u)) ∧
  (∀ (s u : State) (n : PortNo), live s = true → inService (portOf s n) = true → (portOf s n).tx.broke ≠ [] →
    u = logErr { cls := clsLink, sev := 0, port := n, unitKind := 2, detail := leBytes 5 (oldestOf (portOf s n).tx).toNat }
      (modPort n (fun p => { p with
        replayTimeouts := satInc p.replayTimeouts, tx := { p.tx with replayFails := p.tx.replayFails + 1 } }) s) →
    ((portOf s n).tx.replayFails < 3 → Runs (.replayTimeout n) s (startReplay n (oldestOf (portOf s n).tx) 2 u)) ∧
    (3 ≤ (portOf s n).tx.replayFails → Runs (.replayTimeout n) s (loseLink n 0x05 u))) ∧
  (∀ (s : State) (n : PortNo), live s = true → inService (portOf s n) = false ∨ (portOf s n).tx.broke = [] → Runs (.replayTimeout n) s s) ∧
  (∀ (s : State) (n : PortNo), live s = true → inService (portOf s n) = true → (portOf s n).rx.waiting = true →
    ((portOf s n).rx.naksForCount < 4 → Runs (.replayStartWaitTimeout n) s (modPort n (fun p => sendNak p.rx.nakReason p) s)) ∧
    (4 ≤ (portOf s n).rx.naksForCount → Runs (.replayStartWaitTimeout n) s (loseLink n 0x05 s))) ∧
  (∀ (s : State) (n : PortNo), live s = true → linkUp (portOf s n) = true → (portOf s n).ctl.sent ≠ 0 →
    Runs (.controlReplayTimeout n) s (modPort n (fun p => { p with ctl := { p.ctl with sent := 0 } }) s)) ∧
  (∀ (s : State) (n : PortNo), live s = true → inService (portOf s n) = true → (portOf s n).rx.ackOwed = true →
    Runs (.ackOwedTimeout n) s (wakePort n (modPort n (fun p => { p with rx := { p.rx with nullReady := true } }) s)))

/-- O37: Stuck pauses, the misbehaviour window and the pause thresholds.  STUCK_NOTICE is noted. The end of the pause limit
of a paused VC buffer announces it with STUCK_NOTICE and loses the link once that is sent (log entry 100), or fences at the
third time in the span; the misbehaviour window fences at 16 pause violations or 64 malformed events and starts anew; a
receiver pauses at 640 shared flits and resumes below 512.  (06 R170; 06 R172; 06 R173; 06 R182) -/
def Obligations.PauseAndMisbehaviourAreLimited : Prop :=
  (∀ (s u : State) (n : PortNo) (v : Byte), Takes (.stuckNotice n v) s u →
    Runs (.stuckNotice n v) s (modPort n (fun p => { p with stuckNoticed := true }) u)) ∧
  (∀ (s : State) (n : PortNo) (v : Fin 8), live s = true → inService (portOf s n) = false ∨ (portOf s n).rx.xoffRcvd.getLsbD v = false →
    Runs (.pauseLimitExpiry n v) s s) ∧
  (∀ (s u : State) (n : PortNo) (v : Fin 8), live s = true → inService (portOf s n) = true → (portOf s n).rx.xoffRcvd.getLsbD v = true →
    u = modPort n (fun p => { p with
      stuckCount := satInc p.stuckCount, stuckAt := s.nowUs :: p.stuckAt
      longestXoff := satAdd 0 (max p.longestXoff.toNat (s.nowUs - tabGet s.nowUs p.rx.xoffSince v)) }) s →
    (((portOf u n).stuckAt.filter (fun a => decide (spanFrom u ≤ a))).length < 3 →
      Runs (.pauseLimitExpiry n v) s (announce n tyStuckNotice [BitVec.ofNat 8 v.val] .stuck u)) ∧
    (3 ≤ ((portOf u n).stuckAt.filter (fun a => decide (spanFrom u ≤ a))).length →
      Runs (.pauseLimitExpiry n v) s (modPort n (fun p => { p with fenceDue := some 0x05 })
        (flushCtrl n (sendCtrlAt n tyStuckNotice [BitVec.ofNat 8 v.val] false u))))) ∧
  (∀ (s : State) (n : PortNo), live s = true → Runs (.misbehaviourWindow n) s (modPort n (fun p => { p with
    fenceDue := if inService p = true ∧ 16 ≤ p.winViol then some 0x06
      else if inService p = true ∧ 64 ≤ p.winMalformed then some 0x08 else p.fenceDue
    winViol := 0, winNaks := 0, winMalformed := 0 }) s)) ∧
  (∀ r : Rx, (updatePause r).paused = (if r.paused then decide (512 ≤ sharedUsed r) else decide (640 ≤ sharedUsed r)))

/-- O38: HANDOVER, HANDBACK, PARK, RETRAIN_REQ and FENCE_NOTICE.  HANDOVER acts as doHandover says, and a second one of an
exchange changes nothing; the timeout fails an exchange that the partner has not answered; HANDBACK_MARK ends the wait for it
on both twins (log entry 29); TWIN_HOLD_RELEASE releases the held flits once nothing older is left; PARK takes a port in
service down with cause 0x0A, RETRAIN_REQ retrains it with cause 0x08, and FENCE_NOTICE fences it. That HANDOVER_DONE has no
further effect is the model's reading (log entry 77).  (06 R175; 06 R178; 06 R179; 06 R180; 06 R181; 06 R469) -/
def Obligations.PortsLeaveAndHandOver : Prop :=
  (∀ (s u : State) (n : PortNo) (d : Byte) (e x : Count) (h : Handover), Takes (.handover n d e x) s u → sixPort u = false →
    inService (portOf u (twinOf n)) = false → (portOf u (twinOf n)).hand = some h → h.peerExp.isSome = true →
    Runs (.handover n d e x) s u) ∧
  (∀ (s u : State) (n : PortNo) (d : Byte) (e x : Count), Takes (.handover n d e x) s u →
    Runs (.handover n d e x) s (doHandover n e u)) ∧
  (∀ (s u : State) (n : PortNo) (d : Byte) (k : BitVec 16), Takes (.handoverDone n d k) s u → Runs (.handoverDone n d k) s u) ∧
  (∀ (s u : State) (n : PortNo) (r : Byte), Takes (.handbackMark n r) s u → (portOf u (twinOf n)).rx.awaitMark = false →
    Runs (.handbackMark n r) s (modPort n (fun p => { p with rx := { p.rx with awaitMark := false } })
      (modPort (twinOf n) (fun p => { p with rx := { p.rx with awaitMark := false } }) u))) ∧
  (∀ (s : State) (n : PortNo) (h : Handover), live s = true → (portOf s n).hand = some h →
    (h.peerExp = none → Runs (.handoverTimeout n) s (handoverFail n s)) ∧ (h.peerExp.isSome = true → Runs (.handoverTimeout n) s s)) ∧
  (∀ (s : State) (n : PortNo), live s = true → (portOf s n).rx.hold = true → (portOf s n).rx.awaitMark = false →
    (portOf s (twinOf n)).rx.buf.any (·.older) = false → Runs (.twinHoldRelease n) s (modPort n (fun p => { p with rx := { p.rx with
      hold := false, buf := p.rx.buf.map (fun f => { f with onHold := false }) } }) s)) ∧
  (∀ (s u : State) (n : PortNo), Takes (.park n 1) s u → inService (portOf u n) = true →
    Runs (.park n 1) s (modPort n (fun p => { p with retryArmed := true }) (goDown n 0x0A false u))) ∧
  (∀ (s u : State) (n : PortNo) (f : Byte), Takes (.retrainReq n f) s u → inService (portOf u n) = true →
    Runs (.retrainReq n f) s (downAndRetrain n 0x08 (f != 1) u)) ∧
  (∀ (s u : State) (n : PortNo) (k : Byte), Takes (.fenceNotice n k) s u → Runs (.fenceNotice n k) s (fencePort n k false u))

/-- O39: LINK_INIT, round-trip probes and the admission exchange.  LINK_INIT with another PROTOCOL or too large a Broke store
fences the port, and starts admission otherwise; a probe is echoed, and an echo measures; ADMIT_ID that is not the cabled
partner's fences with cause 0x01; a NONCE is answered once ADMIT_ID has been checked; the second MAC half asks the root of
trust for the expected MAC; ADMIT_RESULT 1 lets the exchange end and any other fences with the partner's cause; the admission
timeout fences with 0x02 when anything is missing; a suspended exchange waits for its restart timer.  (06 R176; 06 R182; 16
R434; 16 R435; 16 R436) -/
def Obligations.LinkInitialisationAndAdmission : Prop :=
  (∀ (s u : State) (n : PortNo) (pr ve : BitVec 16) (ep : BitVec 32) (pp wi : Byte) (br rx : BitVec 16),
    Takes (.linkInit n pr ve ep pp wi br rx) s u → inLinkInit (portOf u n) = true →
    (pr ≠ 2 → Runs (.linkInit n pr ve ep pp wi br rx) s (fencePort n 0x03 true u)) ∧
    (pr = 2 → 1024 < br.toNat → Runs (.linkInit n pr ve ep pp wi br rx) s (fencePort n 0x04 true u)) ∧
    (pr = 2 → br.toNat ≤ 1024 → Runs (.linkInit n pr ve ep pp wi br rx) s (startAdmission n
      (modPort n (fun p => { p with initOk := true, peerEndpoint := ep, peerPort := pp }) u)))) ∧
  (∀ (s u : State) (n : PortNo) (t : Word), Takes (.rttProbe n t) s u → Runs (.rttProbe n t) s
    (sendCtrlAt n tyRttEcho (leBytes 8 t.toNat ++ leBytes 4 (Config.turnFclk u.freeCtr).toNat) false { u with freeCtr := u.freeCtr + 1 })) ∧
  (∀ (s u : State) (n : PortNo) (t : Word) (tf : BitVec 32) (m : BitVec 16), Takes (.rttEcho n t tf m) s u →
    linkUp (portOf u n) = true → t.toNat < 3 → (portOf u n).echoes < 3 → (portOf u n).rttBest = none →
    Runs (.rttEcho n t tf m) s (modPort n (fun p => { p with
      echoes := p.echoes + 1, rttBest := some (m.toNat, tf.toNat)
      rttFclk := BitVec.ofNat 16 (min 65535 (m.toNat - tf.toNat + 64)) }) u)) ∧
  (∀ (s u : State) (n : PortNo) (a : Admission) (mi : BitVec 128) (ep : BitVec 32) (pp : Byte), Takes (.admitId n mi ep pp) s u →
    admOf u n = some a →
    (mi ≠ (tabGet {} u.fur.image.cabling n).peerMachineId → Runs (.admitId n mi ep pp) s
      (fencePort n 0x01 true (sendCtrlAt n tyAdmitResult [2, 0x01] false u))) ∧
    (mi = (tabGet {} u.fur.image.cabling n).peerMachineId → ep = (tabGet {} u.fur.image.cabling n).peerEndpoint →
      pp = (tabGet {} u.fur.image.cabling n).peerPort → a.idOk = false → a.suspended = false →
      Runs (.admitId n mi ep pp) s (askNonce n
        (modAdm n (fun b => { (if b.idOk then { b with peerNonce := none, mac0 := none, mac1 := none, rcvdOk := false } else b) with idOk := true }) u)))) ∧
  (∀ (s u : State) (n : PortNo) (a : Admission) (v : BitVec 192), Takes (.admitNonce n v) s u → admOf u n = some a →
    (a.idOk = true → a.suspended = false →
      Runs (.admitNonce n v) s (answerNonce n v (modAdm n (fun b => { b with peerNonce := some v }) u))) ∧
    (a.idOk = false → Runs (.admitNonce n v) s (modAdm n (fun b => { b with peerNonce := some v }) u))) ∧
  (∀ (s u : State) (n : PortNo) (a : Admission) (pt : Bool) (v : BitVec 192), Takes (.admitMac n pt v) s u → admOf u n = some a →
    a.nonce = none → Runs (.admitMac n pt v) s u) ∧
  (∀ (s u w : State) (n : PortNo) (a b : Admission) (v k : BitVec 192), Takes (.admitMac n true v) s u → admOf u n = some a →
    a.nonce = some k → w = modAdm n (fun x => { x with mac1 := some v }) u → admOf w n = some b → b.mac0.isSome = true → b.mac1.isSome = true →
    Runs (.admitMac n true v) s (rotSend rotAdmitMac (admitInput w (tabGet {} w.fur.image.cabling n).peerEndpoint.toNat
      (tabGet {} w.fur.image.cabling n).peerPort.toNat (selfEp w) n k) (.macExpect (portNo n)) w)) ∧
  (∀ (s u : State) (n : PortNo) (a : Admission) (r k : Byte), Takes (.admitResult n r k) s u → admOf u n = some a →
    (r = 1 → Runs (.admitResult n r k) s (tryAdmit n (modAdm n (fun b => { b with rcvdOk := true }) u))) ∧
    (r ≠ 1 → Runs (.admitResult n r k) s (fencePort n k true u))) ∧
  (∀ (s : State) (n : PortNo) (a : Admission), live s = true → admOf s n = some a → a.suspended = false →
    (a.idOk = false ∨ a.peerNonce = none ∨ a.mac0 = none ∨ a.mac1 = none ∨ a.rcvdOk = false →
      Runs (.admissionTimeout n) s (fencePort n 0x02 true s)) ∧
    Runs (.admissionRestartTimer n) s s) ∧
  (∀ (s : State) (n : PortNo) (a : Admission), live s = true → admOf s n = some a → a.suspended = true →
    Runs (.admissionTimeout n) s s ∧
    (a.idOk = false → Runs (.admissionRestartTimer n) s (sendAdmitId n (modAdm n (fun b => { b with suspended := false }) s))))

/-- O40: Received flits: CRC, order, duplicates and the receive buffer.  A flit with a bad CRC or an uncorrectable frame is
refused in service with NAK reason 1 and ignored otherwise; a control flit's packets are taken; a data flit below the
expected count is a duplicate and discarded, one whose VC buffer holds 32 while the shared area is full is a pause violation
refused with reason 2, and any other is accepted. While a NAK waits for its answer nothing more is refused. The flit leaves
the list of those that the receive lanes have given.  (06 R152; 06 R153; 06 R154; 06 R159; 06 R162; 06 R165; 06 R169; 06
R172) -/
def Obligations.FlitsAreTakenInOrder : Prop :=
  (∀ (s w : State) (n : PortNo) (bs : List Byte) (b : Bool), live s = true → w = takeArrived n bs b s →
    (linkUp (portOf s n) = false → Runs (.flitReceived n bs b) s w) ∧
    (linkUp (portOf s n) = true → (b = true ∨ flitCrcOk bs = false) →
      (inService (portOf s n) = true → Runs (.flitReceived n bs b) s (refuseFlit n 1 w)) ∧
      (inService (portOf s n) = false → Runs (.flitReceived n bs b) s w)) ∧
    (linkUp (portOf s n) = true → b = false → flitCrcOk bs = true → (parseHdr bs).rsv = 0 →
      ((parseHdr bs).kind = 1 → inService (portOf s n) = true → Runs (.flitReceived n bs b) s (takeData n (parseHdr bs) (bytesAt bs 8 240) w)) ∧
      ((parseHdr bs).kind = 1 → inService (portOf s n) = false → Runs (.flitReceived n bs b) s w) ∧
      ((parseHdr bs).kind = 2 → (portOf (takeHeader n (parseHdr bs) w) n).lossDue = none →
        Runs (.flitReceived n bs b) s (takePackets n (parseHdr bs).vcb (bytesAt bs 8 240) (takeHeader n (parseHdr bs) w))))) ∧
  (∀ (s : State) (n : Nat) (r : Byte), (portOf s n).rx.waiting = true → refuseFlit n r s = s) ∧
  (∀ (s u : State) (n : Nat) (h : FlitHdr) (d : List Byte), (portOf s n).rx.waiting = false → u = takeHeader n h s →
    (portOf u n).lossDue = none →
    (belowInWindow (portOf u n).rx.cur (portOf u n).rx.expected = true → takeData n h d s = modPort n (fun p => { p with
      dupDiscarded := satInc p.dupDiscarded, rx := { p.rx with cur := p.rx.cur + 1, ackOwed := true } }) u) ∧
    (belowInWindow (portOf u n).rx.cur (portOf u n).rx.expected = false →
      32 ≤ vcbUsed (portOf u n).rx (h.vcb % 8) → 1792 ≤ sharedUsed (portOf u n).rx →
      takeData n h d s = pauseViolAt n (refuseFlit n 2 u)) ∧
    (belowInWindow (portOf u n).rx.cur (portOf u n).rx.expected = false →
      vcbUsed (portOf u n).rx (h.vcb % 8) < 32 ∨ sharedUsed (portOf u n).rx < 1792 →
      takeData n h d s = acceptFlit n ⟨h.vcb % 8, Nat.mod_lt _ (by decide)⟩ d u))

/-- O41: Flits sent: control packets first, then replays, then new flits.  FLIT_TRANSMIT sends nothing when the port may not
send; control flits when one is ready, when the port is not in service, or when a REPLAY_START is still held; then the next
flit of a replay; then, with room in the Broke store, the flits of a takeover once the HANDOVER before them has gone; then a
new flit of the buffer that the arbiter picks, unless the twin's hand-back mark is outstanding. A new flit is kept in the
Broke store under the next count. A buffer that the partner paused sends none. That ready control packets go before replays
is the model's order (log entry 59).  (06 R156; 06 R161; 06 R163; 06 R171; 14 R388) -/
def Obligations.FlitsAreSentByPriority : Prop :=
  (∀ (s : State) (n : PortNo), live s = true →
    (maySend (portOf s n) = false → Runs (.flitTransmit n) s s) ∧
    (maySend (portOf s n) = true → ctrlReady (portOf s n).ctl = true ∨ inService (portOf s n) = false →
      Runs (.flitTransmit n) s (sendControl n s)) ∧
    (maySend (portOf s n) = true → ctrlReady (portOf s n).ctl = false → inService (portOf s n) = true →
      (ctrlStalled tyReplayStart (portOf s n).ctl = true → Runs (.flitTransmit n) s (sendControl n s)) ∧
      (ctrlStalled tyReplayStart (portOf s n).ctl = false → (portOf s n).tx.resend ≠ (portOf s n).tx.nextTx →
        Runs (.flitTransmit n) s (sendReplay n s)) ∧
      (ctrlStalled tyReplayStart (portOf s n).ctl = false → (portOf s n).tx.resend = (portOf s n).tx.nextTx → 1024 ≤ (portOf s n).tx.broke.length →
        Runs (.flitTransmit n) s (sendControl n s)) ∧
      (∀ f fs, ctrlStalled tyReplayStart (portOf s n).ctl = false → (portOf s n).tx.resend = (portOf s n).tx.nextTx →
        (portOf s n).tx.broke.length < 1024 → (portOf s n).tx.takeover = f :: fs → vcbOpen (portOf s n) f.vcb = true →
        ctrlStalled tyHandover (portOf s n).ctl = false → Runs (.flitTransmit n) s (sendTakeover n s)) ∧
      (ctrlStalled tyReplayStart (portOf s n).ctl = false → (portOf s n).tx.resend = (portOf s n).tx.nextTx →
        (portOf s n).tx.broke.length < 1024 → (portOf s n).tx.takeover = [] → (portOf s n).handback = false →
        (∀ v, pickVcb s (portOf s n) = some v → Runs (.flitTransmit n) s (sendNew n v s)) ∧
        (pickVcb s (portOf s n) = none → Runs (.flitTransmit n) s (sendControl n s))))) ∧
  (∀ (s : State) (n : Nat) (f : Flit), let p := portOf (modPort n (keepFlit f) s) n
    p.tx.broke = (portOf s n).tx.broke ++ [f] ∧ p.tx.nextTx = (portOf s n).tx.nextTx + 1) ∧
  (∀ (p : Port) (v : Nat), vcbOpen p v = true →
    p.rx.xoffRcvd.getLsbD v = false ∧ (p.rx.xoffRcvd = 0 ∨ unacked p.tx v < 16))

/-- O42: Digest halves, route notices and restored links.  The first half of a partner's rank digest is kept, and a second
half that completes the block's own digest counts no mismatch; a ROUTE_BREAK outside the machine or for another dimension is
ignored, an older one is ignored, and a newer one with no change of state is only recorded. The end of a restore hold
restores the link it held, and the end of the digest's computation records the SHA-384 of the rank table and sends it on
every port in service.  (07 R191; 07 R192; 07 R196; 07 R199) -/
def Obligations.RoutesAndDigests : Prop :=
  (∀ (s u : State) (n : PortNo) (h : BitVec 192), Takes (.rankDigest n false h) s u →
    Runs (.rankDigest n false h) s (modPort n (fun p => { p with digest0 := some h }) u)) ∧
  (∀ (s u : State) (n : PortNo) (g h : BitVec 192), Takes (.rankDigest n true h) s u → (portOf u n).digest0 = some g →
    leBytes 24 g.toNat ++ leBytes 24 h.toNat = padTo 48 u.route.digest →
    Runs (.rankDigest n true h) s (modPort n (fun p => { p with digest0 := none }) u)) ∧
  (∀ (s u : State) (n : PortNo) (d l x : Byte) (o : BitVec 32) (q : BitVec 16), Takes (.routeBreak n d l x o q) s u →
    3 ≤ d.toNat ∨ dimSize u d.toNat ≤ l.toNat ∨ n / 4 ≠ d.toNat → Runs (.routeBreak n d l x o q) s u) ∧
  (∀ (s u : State) (n : PortNo) (d l x : Byte) (o : BitVec 32) (q : BitVec 16) (e : Nat), Takes (.routeBreak n d l x o q) s u →
    d.toNat < 3 → l.toNat < dimSize u d.toNat → n / 4 = d.toNat →
    e = (if coordOf (o.toNat % 2 ^ 17) d.toNat = l.toNat then 0 else 1) →
    ((reportOf u d.toNat l.toNat e).known = true → seqNewer q (reportOf u d.toNat l.toNat e).seq = false →
      Runs (.routeBreak n d l x o q) s u) ∧
    ((reportOf u d.toNat l.toNat e).known = false ∨ seqNewer q (reportOf u d.toNat l.toNat e).seq = true →
      (reportOf u d.toNat l.toNat e).broken = (x.toNat % 2 == 1) →
      ∀ w : EndReport, w = { known := true, broken := x.toNat % 2 == 1, origin := o, seq := q } →
      Runs (.routeBreak n d l x o q) s
        (countRoute (fun r => { r with reports := tabSet {} (reportKey d.toNat l.toNat e) w r.reports }) u))) ∧
  (∀ (s : State) (d : Fin 6), live s = true →
    (s.route.restoreHold &&& holdBit d = 0 → Runs (.routeRestoreHoldExpiry d) s s) ∧
    (s.route.restoreHold &&& holdBit d ≠ 0 → Runs (.routeRestoreHoldExpiry d) s (setOwnLink d false
      { s with route := { s.route with restoreHold := s.route.restoreHold &&& ~~~(holdBit d) } }))) ∧
  (∀ s : State, live s = true → s.route.digestBusy = false → Runs .digestComputed s s) ∧
  (∀ s : State, live s = true → s.route.digestBusy = true → Runs .digestComputed s
    ((servicePorts s).foldl (fun t n => sendDigest n t)
      { s with route := { s.route with digestBusy := false, digest := sha384 (rankBytes s) } }))

/-- O43: Read beats and write responses of the memory port.  MEM_READ_DATA for an outstanding read joins its beat to those
before; the last beat frees the tag, notes an error code and hands the bytes to the operation that asked. MEM_WRITE_RESPONSE
frees the tag and completes the write for its owner. An answer to no outstanding request changes nothing (the model's
reading, log entry 114). Error code 00 notes nothing, and code 10 makes a MEMORY record of severity 2 with channel and
address.  (02 R34; 02 R35; 02 R38; 15 R430) -/
def Obligations.MemoryAnswersAreTaken : Prop :=
  (∀ (s u : State) (ch : Fin 16) (tag : Fin 512) (data : List Byte) (err e : BitVec 2) (inj : Bool) (r x : MemReq), live s = true →
    findReq s ch false tag = some r → readErr r err s = (e, inj, u) →
    x = { r with beats := r.beats + 1, got := r.got ++ padTo 128 data, bad := r.bad || decide (2 ≤ e.toNat) } →
    (x.beats < beatsOf r → Runs (.memReadData ch tag data err) s
      (noteMemErr r e inj { u with memReqs := u.memReqs.map (fun y => if y = r then x else y) })) ∧
    (beatsOf r ≤ x.beats → Runs (.memReadData ch tag data err) s
      (readAnswered x (wantedBytes x) x.bad (pumpMem (endReqUse r (noteMemErr r e inj (dropReq r u))))))) ∧
  (∀ (s : State) (ch : Fin 16) (tag : Fin 512) (err : BitVec 2) (r : MemReq), live s = true → findReq s ch true tag = some r →
    Runs (.memWriteResponse ch tag err) s (writeAnswered r err (pumpMem (endReqUse r (noteMemErr r err false (dropReq r s)))))) ∧
  (∀ (s : State) (ch : Fin 16) (tag : Fin 512) (data : List Byte) (err : BitVec 2), live s = true →
    (findReq s ch false tag = none → Runs (.memReadData ch tag data err) s s) ∧
    (findReq s ch true tag = none → Runs (.memWriteResponse ch tag err) s s)) ∧
  (∀ (s : State) (r : MemReq), noteMemErr r 0 false s = s ∧
    noteMemErr r 2 false s = logErr { cls := clsMemory, sev := 2, unitKind := 11, unitIndex := r.ch, addr := r.addr, cause := 2 } s)

/-- O44: Every memory request goes to its granule's channel and crosses no granule.  For every state and every access to a
span: each request that is issued or waits afterwards did so before, or its channel is (address / G) mod 16, it has at most
1,024 bytes, it lies within the span, and its first and last bytes lie in one granule of G bytes.  (02 R31; 02 R32) -/
def Obligations.MemoryRequestsStayInTheirGranule : Prop :=
  ∀ (s : State) (op : MemOp) (o : MemOwner) (a n off : Nat) (data : List Byte) (use : Option (CtxNo × BitVec 16)) (r : MemReq),
    r ∈ (memIssue op o a n off data use s).memReqs ++ (memIssue op o a n off data use s).memWaiting →
    r ∈ s.memReqs ∨ r ∈ s.memWaiting ∨
      (r.ch.val = r.addr / memGranule s % 16 ∧ r.len ≤ 1024 ∧ a ≤ r.addr ∧ r.addr + r.len ≤ a + n ∧
        (r.addr + r.len - 1) / memGranule s = r.addr / memGranule s)

/-- O45: LOAD, STORE and ATOMIC of the aperture, plain and relaxed, and FENCE.  For LOAD, LOAD_RELAXED, STORE, STORE_RELAXED,
APERTURE_ATOMIC and ATOMIC_RELAXED: a request that the gate turns away is answered at once (UNREACHABLE before ready, RIGHTS
for a context not OPEN), one whose OP is none of the seven is MALFORMED, a store with no byte enabled is answered OK, one of
wrong form MALFORMED, and any other joins the outstanding requests and is translated and issued. APERTURE_FENCE is answered
when the earlier requests of its channel and context are, at once when there are none.  (02 R41; 03 R74; 08 R240; 08 R242; 08
R471) -/
def Obligations.ApertureRequestsAreAnsweredOrIssued : Prop :=
  (∀ (c : Instr) (k : ApertureKind) (rel : Bool) (r : LsaReq) (s : State), live s = true → apertureOf c = some (k, rel, r) →
    (∀ st, aperGate s r = some st → Runs c s (lsaAnswer r st [] s)) ∧
    (aperGate s r = none → 7 ≤ r.op.toNat → Runs c s (lsaAnswer r stMalformed [] s)) ∧
    (aperGate s r = none → r.op.toNat < 7 → k = .store → r.be = 0 → Runs c s (lsaAnswer r stOk [] s)) ∧
    (aperGate s r = none → ¬(k = .store ∧ r.be = 0) → lsaFormOk k r = false → Runs c s (lsaAnswer r stMalformed [] s)) ∧
    (aperGate s r = none → r.op.toNat < 7 → lsaFormOk k r = true → (k = .store → (lsaEnabled r).isEmpty = false ∧ r.be ≠ 0) →
      Runs c s (aperGo s.trk.nextId { s with
        trk := { s.trk with nextId := s.trk.nextId + 1 }
        aper := s.aper ++ [{ id := s.trk.nextId, req := r, kind := k, relaxed := rel, parts := lsaParts k r }] }))) ∧
  (∀ (r : LsaReq) (s : State), live s = true →
    (∀ st, aperGate s r = some st → Runs (.apertureFence r) s (lsaAnswer r st [] s)) ∧
    (aperGate s r = none → 7 ≤ r.op.toNat → Runs (.apertureFence r) s (lsaAnswer r stMalformed [] s)) ∧
    (aperGate s r = none → r.op.toNat < 7 → Runs (.apertureFence r) s (answerFences (s.aper.length + 1) { s with
      trk := { s.trk with nextId := s.trk.nextId + 1 }
      aper := s.aper ++ [{ id := s.trk.nextId, req := r, kind := .fence, relaxed := false }] })) ∧
    (aperGate s r = none → r.op.toNat < 7 → s.aper = [] → Runs (.apertureFence r) s (lsaAnswer r stOk []
      { s with trk := { s.trk with nextId := s.trk.nextId + 1 } }))) ∧
  (∀ (s : State) (r : LsaReq),
    (s.pins.ready = false → aperGate s r = some stUnreachable) ∧
    (s.pins.ready = true → s.err.drainState = 0 → s.power.cur.toNat < 2 → (ctxOf s r.ctx).state ≠ ctxOpen →
      aperGate s r = some stRights)) ∧
  (∀ (s : State) (r : LsaReq) (st : Byte) (bs : List Byte), (lsaAnswer r st bs s).out.lsaRsps = s.out.lsaRsps ++
    [{ ch := r.ch, tag := r.tag, status := st, data := BitVec.ofNat 512 (leNat bs) }])

/-- O46: Interrupt messages are made when R383 lets them and transfer in order.  INTERRUPT_MESSAGE_TRANSFER after ready
transfers the oldest message of a partition that is not RESETTING, counts it, and lets its vector make the next; with none,
or before ready, nothing changes. INTERRUPT_TIME_LIMIT marks a vector with pending events and a time limit as due. A vector
that is masked, disabled, or has a message waiting makes none; one that may makes it with the fields of R384 and clears
PENDING.  (14 R383; 14 R384; 14 R385; 14 R386; 14 R399) -/
def Obligations.InterruptMessagesTransferInOrder : Prop :=
  (∀ (s : State) (l r : List IrqMsg) (m : IrqMsg), live s = true → s.pins.ready = true → s.par.messages = l ++ m :: r →
    l.all (fun x => (partOf s x.par.toNat).state == partResetting) = true → (partOf s m.par.toNat).state ≠ partResetting →
    Runs .interruptMessageTransfer s (tryMessage ⟨m.par.toNat, m.par.isLt⟩ m.vec (modPart m.par.toNat (fun q => { q with sent := satInc q.sent })
      { s with par := { s.par with messages := l ++ r }, out := { s.out with irq := some m } }))) ∧
  (∀ s : State, live s = true → s.pins.ready = false ∨ s.par.messages.all (fun x => (partOf s x.par.toNat).state == partResetting) = true →
    Runs .interruptMessageTransfer s s) ∧
  (∀ (s : State) (p v : PartNo), live s = true →
    ((vecOf s p v).pending = 0 ∨ (vecOf s p v).timeUs = 0 → Runs (.interruptTimeLimit p v) s s) ∧
    ((vecOf s p v).pending ≠ 0 → (vecOf s p v).timeUs ≠ 0 →
      Runs (.interruptTimeLimit p v) s (tryMessage p v (modVec p v (fun w => { w with due := true }) s)))) ∧
  (∀ (s : State) (p v : PartNo), (vecOf s p v).mask = true ∨ (vecOf s p v).addr = 0 ∨ msgHeld s p v = true → tryMessage p v s = s) ∧
  (∀ (s : State) (p v : PartNo) (x : Vector), x = vecOf s p v → vecReady x = true → msgHeld s p v = false →
    tryMessage p v s = modVec p v (fun w => { w with pending := 0, cause := none, due := false }) { s with
      par := { s.par with messages := s.par.messages ++ [{
        addr := x.addr, par := BitVec.ofNat 4 p, vec := v, events := x.pending.toNat
        data := BitVec.ofNat 32 (x.tag.toNat + (x.cause.getD 0).toNat * 2 ^ 16 + v.val % 16 * 2 ^ 20 + min x.pending.toNat 255 * 2 ^ 24) }] } })

/-- O47: An event of an enabled vector is always held, and a vector has one message.  For every state, vector and cause:
raising an event on a vector whose ADDR is not 0 and whose PENDING is not full adds exactly one to the events it holds
(pending, or in a message made); one on a vector with ADDR 0 adds none; no other vector's events change; and a vector with at
most one message still has at most one.  (14 R383; 14 R385; 14 R386) -/
def Obligations.NoInterruptEventIsLost : Prop :=
  ∀ (s : State) (p v : PartNo) (cause : BitVec 4),
    ((vecOf s p v).addr ≠ 0 → (vecOf s p v).pending.toNat + 1 < 2 ^ 32 →
      eventsHeld (irqEvent p v cause s) p v = eventsHeld s p v + 1) ∧
    ((vecOf s p v).addr = 0 → eventsHeld (irqEvent p v cause s) p v = eventsHeld s p v) ∧
    (∀ q w : PartNo, q ≠ p ∨ w ≠ v → eventsHeld (irqEvent p v cause s) q w = eventsHeld s q w) ∧
    (∀ q w : PartNo, messagesOf s q w ≤ 1 → messagesOf (irqEvent p v cause s) q w ≤ 1)

/-- O48: Messages that arrive: taken here, discarded, or forwarded.  For the fourteen commands that take a message here: one
of another opcode, addressed elsewhere or not waiting there is left alone; one from a port that fails the checks of R205 is
discarded and counts as malformed (ATOMIC has its own statement). A management message is consumed. TRANSIT_FORWARD takes a
message for another endpoint and queues it on its next hop, loses it when its buffer word cannot be corrected, discards it
when it fails the checks, and when no route is left completes it where this endpoint is its source, answers a request and
drops a response.  (07 R184; 07 R190; 07 R197; 07 R198; 07 R200; 07 R203; 07 R205) -/
def Obligations.ArrivingMessagesAreChecked : Prop :=
  (∀ (c : Instr) (s : State) (a : Arrival) (m : Msg) (t : Taker), live s = true → messageOf c = some (a, m, t) → t ≠ .atomic →
    ownMessage t m.opcode = false ∨ dstEp m ≠ selfEp s ∨ takeArrival a m s = none → Runs c s s) ∧
  (∀ (c : Instr) (s u : State) (n : PortNo) (v : Fin 8) (m : Msg) (t : Taker), live s = true → messageOf c = some (.port n v, m, t) →
    t ≠ .atomic → ownMessage t m.opcode = true → dstEp m = selfEp s → takeArrival (.port n v) m s = some u → arrivalOk u n v m = false →
    Runs c s (discardArrival n u)) ∧
  (∀ (s u : State) (a : Arrival) (m : Msg), Arrives (.managementMessage a m) a m s u → Runs (.managementMessage a m) s u) ∧
  (∀ (s : State) (n : PortNo) (v : Fin 8) (m : Msg), live s = true → dstEp m = selfEp s ∨ takeMsg n v m s = none →
    Runs (.transitForward n v m) s s) ∧
  (∀ (s u : State) (n : PortNo) (v : Fin 8) (m : Msg), live s = true → dstEp m ≠ selfEp s → takeMsg n v m s = some u →
    (arrivalOk u n v m = false → Runs (.transitForward n v m) s (discardArrival n u)) ∧
    (∀ x, arrivalOk u n v m = true → readRam (.transit n) { cls := 0, sev := 2, port := n, unitKind := 3 } u = (true, x) →
      Runs (.transitForward n v m) s x) ∧
    (∀ x, arrivalOk u n v m = true → readRam (.transit n) { cls := 0, sev := 2, port := n, unitKind := 3 } u = (false, x) →
      transitHop x n v m = .stuck → Runs (.transitForward n v m) s (cannotForward m x)) ∧
    (∀ x p w f b, arrivalOk u n v m = true → readRam (.transit n) { cls := 0, sev := 2, port := n, unitKind := 3 } u = (false, x) →
      transitHop x n v m = .out p w f b → Runs (.transitForward n v m) s (enqueue p w (.port ⟨n % 12, Nat.mod_lt _ (by decide)⟩) [{ m with flags := f }]
        (countRoute (fun r => { r with
          transitMsgs := satInc r.transitMsgs
          turned := if b = true then satInc r.turned else r.turned }) x)))) ∧
  (∀ (s : State) (m : Msg),
    (vcOf m.opcode ≠ 0 → m.opcode ≠ opCont →
      cannotForward m s = countRoute (fun r => { r with unreachDrops := satInc r.unreachDrops }) s) ∧
    (vcOf m.opcode = 0 → srcEp m = selfEp s → cannotForward m s = noRoute m s)) ∧
  (∀ (s : State) (w : RamWord) (e : Evt), s.err.flips = [] → readRam w e s = (false, s))

/-- O49: READ, WRITE, FILL and CONT at the target.  A request of wrong form is answered MALFORMED, one without a window, key
or right, or on a draining endpoint, RIGHTS; one that passes is admitted behind the earlier ones with its memory accesses. A
WRITE of more than 192 bytes opens a run; CONT carries on the run with the next number and the right length, completes it
with the last bytes, and is discarded otherwise, the run closing when its table word cannot be corrected. The gap's end
closes a run incomplete.  (08 R208; 08 R209; 08 R211; 08 R212; 08 R214) -/
def Obligations.RequestsAreCheckedAndAdmitted : Prop :=
  (∀ (c : Instr) (s u : State) (a : Arrival) (m : Msg), Arrives c a m s u → c = .read a m ∨ c = .write a m ∨ c = .fillMessage a m →
    (formOk m = false → Runs c s (refuse m stMalformed u)) ∧
    (formOk m = true → admits u = false ∨ checkWindow u m = none → Runs c s (refuse m stRights u))) ∧
  (∀ (s u : State) (a : Arrival) (m : Msg) (w : Nat), Arrives (.read a m) a m s u → formOk m = true → admits u = true → checkWindow u m = some w →
    Runs (.read a m) s (pumpTargets (admitOp m .read w
      (if (winOf u w).counter then [] else spanParts u (winPa (winOf u w) m.addr.toNat) m.length.toNat 0 []) true u))) ∧
  (∀ (s u : State) (a : Arrival) (m : Msg) (w : Nat), Arrives (.fillMessage a m) a m s u → formOk m = true → admits u = true →
    checkWindow u m = some w → Runs (.fillMessage a m) s (pumpTargets (admitOp m .write w
      (spanParts u (winPa (winOf u w) m.addr.toNat) m.length.toNat 0 (upTo m.length.toNat (fun i => m.data.getD (i % 16) 0))) true u))) ∧
  (∀ (s u x : State) (a : Arrival) (m : Msg) (w : Nat), Arrives (.write a m) a m s u → formOk m = true → admits u = true →
    checkWindow u m = some w → runOfKey u m.source m.tag = none →
    x = admitOp m .write w (spanParts u (winPa (winOf u w) m.addr.toNat) (min m.length.toNat 192) 0 (m.data.take (min m.length.toNat 192)))
      (decide (m.length.toNat ≤ 192)) u →
    (m.length.toNat ≤ 192 → Runs (.write a m) s (pumpTargets x)) ∧
    (192 < m.length.toNat → Runs (.write a m) s (pumpTargets (countTrk (fun t => { t with openRuns := t.openRuns ++
      [{ source := m.source, tag := m.tag, pa := winPa (winOf u w) m.addr.toNat, length := m.length.toNat
         got := 192, next := 1, window := w, op := u.trk.nextId }] }) x)))) ∧
  (∀ (s u : State) (a : Arrival) (m : Msg), Arrives (.cont a m) a m s u →
    (runOfKey u m.source m.tag = none → Runs (.cont a m) s (strayCont m u)) ∧
    (∀ r x, runOfKey u m.source m.tag = some r →
      readRam (.openRun m.source m.tag) { cls := 0, sev := 2, unitKind := 5, addr := srcEp m } u = (true, x) →
      Runs (.cont a m) s (strayCont m (closeRun r x))) ∧
    (∀ r x, runOfKey u m.source m.tag = some r →
      readRam (.openRun m.source m.tag) { cls := 0, sev := 2, unitKind := 5, addr := srcEp m } u = (false, x) →
      m.aux.toNat ≠ r.next → Runs (.cont a m) s (strayCont m x)) ∧
    (∀ r x, runOfKey u m.source m.tag = some r →
      readRam (.openRun m.source m.tag) { cls := 0, sev := 2, unitKind := 5, addr := srcEp m } u = (false, x) →
      m.aux.toNat = r.next → r.got < r.length → r.length ≤ r.got + 224 →
      m.dslots.toNat = slotsFor (r.length - r.got) →
      Runs (.cont a m) s (pumpTargets (countTrk (fun k => { k with openRuns := k.openRuns.filter (fun x => x != r) })
        (modTarget r.op (fun o => { o with
          waiting := o.waiting ++ spanParts x (r.pa + r.got) (r.length - r.got) r.got (m.data.take (r.length - r.got))
          complete := true }) x)))) ∧
    (∀ r x, runOfKey u m.source m.tag = some r →
      readRam (.openRun m.source m.tag) { cls := 0, sev := 2, unitKind := 5, addr := srcEp m } u = (false, x) → m.aux.toNat = r.next → r.got + 224 < r.length → m.dslots = 14 →
      Runs (.cont a m) s (pumpTargets (countTrk (fun k => { k with
          openRuns := k.openRuns.map (fun x => if x = r then { x with got := x.got + 224, next := x.next + 1 } else x) })
        (modTarget r.op (fun o => { o with
          waiting := o.waiting ++ spanParts x (r.pa + r.got) 224 r.got (m.data.take 224), complete := false }) x))))) ∧
  (∀ (s : State) (src tag : BitVec 32), live s = true →
    (runOfKey s src tag = none → Runs (.openRunGapExpiry src tag) s s) ∧
    (∀ r, runOfKey s src tag = some r → Runs (.openRunGapExpiry src tag) s (pumpTargets
      (modTarget r.op (fun o => { o with complete := true, silent := true }) (countTrk (fun k => { k with
        openRuns := k.openRuns.filter (fun x => x != r), gapCloses := satInc k.gapCloses }) s)))))

/-- O50: ATOMIC, RELEASE and the replay table.  An ATOMIC that passes the checks reserves an entry and is admitted; one found
in the table is answered from it; a reissue on a fresh or draining table is answered AMBIGUOUS; one waits while the table is
full. RELEASE and the entry's expiry free an entry whose result is stored, and only that. The new values of ADD, SWAP,
compare-swap and AND are as R218 gives them.  (08 R212; 08 R218; 08 R233; 08 R234; 08 R235) -/
def Obligations.AtomicsRunOnceAndAreReplayed : Prop :=
  (∀ (s u : State) (a : Arrival) (m : Msg), Arrives (.atomic a m) a m s u → mustStall s m = false → s.trk.stalled = [] →
    (formOk m = false → Runs (.atomic a m) s (refuse m stMalformed u)) ∧
    (∀ e, formOk m = true → replayOf u m = some e → Runs (.atomic a m) s (replayHit e m u)) ∧
    (formOk m = true → replayOf u m = none → answersAmbiguous u m = true → Runs (.atomic a m) s (sendAmbiguous m u)) ∧
    (formOk m = true → replayOf u m = none → answersAmbiguous u m = false → admits u = false ∨ checkWindow u m = none →
      Runs (.atomic a m) s (refuse m stRights u)) ∧
    (∀ w, formOk m = true → replayOf u m = none → answersAmbiguous u m = false → admits u = true → checkWindow u m = some w →
      Runs (.atomic a m) s (pumpTargets (admitOp m .atomic w [] true (reserveEntry m u))))) ∧
  (∀ (s u : State) (a : Arrival) (m : Msg), Arrives (.atomic a m) a m s u → mustStall s m = true →
    (s.trk.stalled.contains (a, m) = true → Runs (.atomic a m) s s) ∧
    (s.trk.stalled.contains (a, m) = false → Runs (.atomic a m) s (countTrk (fun k => { k with
      stalled := k.stalled ++ [(a, m)], fullStalls := satInc k.fullStalls }) s))) ∧
  (∀ (s : State) (e : ReplayEntry) (m : Msg), e.done = true → replayHit e m s =
    sendOrDrop .steward (atomicResultMsg (countTrk (fun k => { k with hits := satInc k.hits }) s) m e.status e.old.toNat)
      (countTrk (fun k => { k with hits := satInc k.hits }) s)) ∧
  (∀ (s u : State) (a : Arrival) (m : Msg), Arrives (.release a m) a m s u →
    Runs (.release a m) s (retryStalled (freeEntry m.source m.tag u))) ∧
  (∀ (s : State) (src tag : BitVec 32), live s = true →
    (s.trk.replay.any (fun e => e.source == src && e.tag == tag && e.done) = true →
      Runs (.replayEntryExpiry src tag) s (retryStalled (freeEntry src tag (countTrk (fun k => { k with expiries := satInc k.expiries }) s)))) ∧
    (s.trk.replay.any (fun e => e.source == src && e.tag == tag && e.done) = false →
      Runs (.replayEntryExpiry src tag) s (retryStalled s))) ∧
  (∀ (s : State) (src tag : BitVec 32) (e : ReplayEntry), e ∈ (freeEntry src tag s).trk.replay ↔
    e ∈ s.trk.replay ∧ ¬(e.source = src ∧ e.tag = tag ∧ e.done = true)) ∧
  (∀ (w m v c : Nat) (attr : Byte), w = 8 * atomicWidth attr →
    (bitsOf attr.toNat 0 4 = 0 → atomicNew attr m v c = (m + v) % 2 ^ w) ∧
    (bitsOf attr.toNat 0 4 = 5 → atomicNew attr m v c = v) ∧
    (bitsOf attr.toNat 0 4 = 6 → atomicNew attr m v c = if m = c then v else m) ∧
    (bitsOf attr.toNat 0 4 = 7 → atomicNew attr m v c = Nat.land m v))

/-- O51: ACK, READ_DATA, ATOMIC_RESULT and the response timeout.  A response whose tracker is not in use, or with another
GEN, is discarded and counted in LATE_DISCARDS; one whose tracker's word holds an uncorrectable error loses its tracker; one
with a reserved status or from another endpoint is a bad response. ACK completes a write with its status; READ_DATA pieces
join until the read is whole; ATOMIC_RESULT OK releases the target's entry and completes with the old value. RESPONSE_TIMEOUT
of a request that has been sent reissues it or completes it with TIMEOUT; one held back is left (log entry 22).  (08 R223; 08
R224; 08 R225; 08 R227; 08 R229; 08 R231; 08 R239) -/
def Obligations.ResponsesCompleteTheirTracker : Prop :=
  (∀ (c : Instr) (s u : State) (a : Arrival) (m : Msg), Arrives c a m s u → c = .ack a m ∨ c = .readData a m ∨ c = .atomicResult a m →
    (answeredTracker u m = none → Runs c s (countTrk (fun k => { k with lateDiscards := satInc k.lateDiscards }) u)) ∧
    (∀ t v, answeredTracker u m = some t → responseTracker t u = (true, v) → Runs c s (loseTracker t v)) ∧
    (∀ t v, answeredTracker u m = some t → responseTracker t u = (false, v) → m.opcode ≠ opReadData → responseStatus m.aux = false →
      Runs c s (badResponse a v)) ∧
    (∀ t v, answeredTracker u m = some t → responseTracker t u = (false, v) → m.opcode = opReadData ∨ m.aux ≠ stUnreachable →
      srcEp m ≠ t.target.toNat → Runs c s (badResponse a v))) ∧
  (∀ (s u v : State) (a : Arrival) (m : Msg) (t : Tracker), Arrives (.ack a m) a m s u → answeredTracker u m = some t → responseTracker t u = (false, v) →
    m.opcode = opAck → responseStatus m.aux = true → m.dslots = 0 → trkOp t = opWrite ∨ trkOp t = opFill → srcEp m = t.target.toNat →
    t.readInst = none → ¬(m.aux = stUnreachable ∧ t.reissued = true) → Runs (.ack a m) s (completeTracker t m.aux [] v)) ∧
  (∀ (s u v : State) (a : Arrival) (m : Msg) (t : Tracker) (ps : Tab (List Byte)), Arrives (.readData a m) a m s u → answeredTracker u m = some t → responseTracker t u = (false, v) →
    srcEp m = t.target.toNat → trkOp t = opRead → 224 * m.aux.toNat < trkLength t →
    m.dslots.toNat = slotsFor (pieceLen (trkLength t) m.aux.toNat) →
    (otherInstance t m = true → Runs (.readData a m) s v) ∧
    (otherInstance t m = false → ps = tabSet [] m.aux.toNat (m.data.take (pieceLen (trkLength t) m.aux.toNat)) t.pieces →
      (ps.length * 224 < trkLength t → Runs (.readData a m) s
        (modTracker t.index (fun t => { t with pieces := ps, readInst := some (reissueOf m.flags) }) v)) ∧
      (trkLength t ≤ ps.length * 224 → Runs (.readData a m) s (completeTracker t stOk (ps.flatMap (·.2)) v)))) ∧
  (∀ (s u v : State) (a : Arrival) (m : Msg) (t : Tracker), Arrives (.atomicResult a m) a m s u → answeredTracker u m = some t → responseTracker t u = (false, v) →
    srcEp m = t.target.toNat → trkOp t = opAtomic → m.aux = stOk → m.dslots = 1 → t.readInst = none →
    Runs (.atomicResult a m) s (completeTracker t stOk (m.data.take 16) (sendOrDrop (.own t.part) (releaseMsg v t) v))) ∧
  (∀ (s : State) (i : Fin 131072), live s = true →
    (trackerOf s i = none → Runs (.responseTimeout i) s s) ∧
    (∀ t, trackerOf s i = some t →
      (s.trk.held.contains i.val = true ∨ (isWriting t = true ∧ t.lost = true ∧ mayReissue s t = true) → Runs (.responseTimeout i) s s) ∧
      (s.trk.held.contains i.val = false → isWriting t = false ∨ t.lost = false ∨ mayReissue s t = false →
        Runs (.responseTimeout i) s (afterTracker (timeOut t s))))) ∧
  (∀ (s : State) (t : Tracker), isAperStore t = true ∨ mayReissue s t = false →
    timeOut t s = finishTracker t stTimeout [] (countTrk (fun k => { k with timeouts := satInc k.timeouts }) s))

/-- O52: COLL_OPEN, COLL_CONT, COLL_CREDIT and COLL_ABORT.  A collective message that matches no running plan's sub-ring is
counted as a mismatch, one of another round as stale, one of a piece that has landed as a duplicate. COLL_OPEN and COLL_CONT
that fit the schedule land their bytes; COLL_CREDIT raises the limit and frees the pieces it covers; COLL_ABORT ends the plan
ABORTED with its cause. A reserved collective opcode matches no plan (log entry 14).  (11 R321; 11 R322; 11 R324; 11 R325; 11
R328) -/
def Obligations.CollectiveMessagesFindTheirSubRing : Prop :=
  (∀ (s u : State) (a : Arrival) (m : Msg) (xs : List (Nat × Nat × Nat)), Arrives (.collOpen a m) a m s u →
    xs = (ringsWith u ((plansWith u (m.tag.toNat % 2 ^ 16)).filter (fun k => (partRec u (planOf u k).part).key == m.pkey))
      (bitOf m.tail.toNat 2) (classOf m.flags) SubRing.up (srcEp m)).filter
        (fun x => (planAxes (planOf u x.1).defn).getD x.2.1 3 == bitsOf m.tail.toNat 0 2) →
    (xs = [] → Runs (.collOpen a m) s (countMismatch u)) ∧
    (∀ k l r rest x seq, xs = (k, l, r) :: rest → x = ringAt (planOf u k) l r →
      seq = x.nextTake + (m.tag.toNat / 2 ^ 16 + 2 ^ 16 - x.nextTake % 2 ^ 16) % 2 ^ 16 →
      (BitVec.ofNat 8 (bitsOf m.tail.toNat 8 8) ≠ (planOf u k).defn.round → Runs (.collOpen a m) s (countStale u)) ∧
      (BitVec.ofNat 8 (bitsOf m.tail.toNat 8 8) = (planOf u k).defn.round →
        2 ^ 15 ≤ seq - x.nextTake ∨ x.pieces.any (fun v => v.seq == seq && landed v) = true → Runs (.collOpen a m) s (countDuplicate u)) ∧
      (∀ size, BitVec.ofNat 8 (bitsOf m.tail.toNat 8 8) = (planOf u k).defn.round → seq - x.nextTake < 2 ^ 15 →
        x.pieces.any (fun v => v.seq == seq && landed v) = false → seq < x.given → expectedSize (planOf u k) l r seq = some size →
        4096 * m.attr.toNat < size → m.length.toNat = min 4096 (size - 4096 * m.attr.toNat) →
        Runs (.collOpen a m) s (landOpen k l r seq size (arrivalPort a) m u)))) ∧
  (∀ (s u : State) (a : Arrival) (m : Msg), Arrives (.collCont a m) a m s u →
    ringsWith u (plansWith u (m.tag.toNat % 2 ^ 16)) (bitOf m.tag.toNat 27) (classOf m.flags) SubRing.up (srcEp m) = [] →
    Runs (.collCont a m) s (countMismatch u)) ∧
  (∀ (s u : State) (a : Arrival) (m : Msg) (k l r off : Nat) (x : SubRing) (v : Piece), Arrives (.collCont a m) a m s u →
    ringsWith u (plansWith u (m.tag.toNat % 2 ^ 16)) (bitOf m.tag.toNat 27) (classOf m.flags) SubRing.up (srcEp m) = [(k, l, r)] →
    x = ringAt (planOf u k) l r → x.pieces.find? (fun w => w.seq == seqOf32 x (bitsOf m.tag.toNat 22 5)) = some v → landed v = false →
    1 ≤ m.aux.toNat → off = 192 + 224 * (m.aux.toNat - 1) → off ≤ tabGet 0 v.runs (bitsOf m.tag.toNat 16 6) →
    Runs (.collCont a m) s (landBytes k l r v.seq (bitsOf m.tag.toNat 16 6) off
      (m.data.take (min 224 (min 4096 (v.size - 4096 * bitsOf m.tag.toNat 16 6) - off))) u)) ∧
  (∀ (s u : State) (a : Arrival) (m : Msg) (xs : List (Nat × Nat × Nat)), Arrives (.collCredit a m) a m s u →
    xs = ringsWith u (plansWith u (m.tag.toNat % 2 ^ 16)) (bitOf m.aux.toNat 1) (classOf m.flags) SubRing.down (srcEp m) →
    (xs = [] → Runs (.collCredit a m) s (countMismatch u)) ∧
    (∀ k l r rest x lim, xs = (k, l, r) :: rest → x = ringAt (planOf u k) l r →
      lim = max (x.oldest + (bitsOf m.aux.toNat 2 5 + 32 * bitsOf m.tag.toNat 24 8 + 8192 - x.oldest % 8192) % 8192) x.limit →
      (BitVec.ofNat 8 (bitsOf m.tag.toNat 16 8) ≠ (planOf u k).defn.round → Runs (.collCredit a m) s (countStale u)) ∧
      (BitVec.ofNat 8 (bitsOf m.tag.toNat 16 8) = (planOf u k).defn.round →
        Runs (.collCredit a m) s (touchRing k l r (modRing k l r (fun y => { y with
          opened := y.opened || bitOf m.aux.toNat 0, limit := lim
          oldest := max x.oldest (lim - (planOf u k).defn.slots)
          unacked := y.unacked.filter (fun o => decide (max x.oldest (lim - (planOf u k).defn.slots) ≤ o.seq))
          locals := y.locals.filter (fun t => match t.sent with
            | some q => decide (max x.oldest (lim - (planOf u k).defn.slots) ≤ q)
            | none => true) }) u))))) ∧
  (∀ (s u : State) (a : Arrival) (m : Msg) (ks : List Nat), Arrives (.collAbort a m) a m s u → m.opcode = opCollAbort →
    ks = (plansWith u (m.tag.toNat % 2 ^ 16)).filter (fun k => (neighbours (planOf u k)).any (fun e => e.toNat == srcEp m)) →
    (ks = [] → Runs (.collAbort a m) s (countMismatch u)) ∧
    (∀ k rest, ks = k :: rest →
      (BitVec.ofNat 8 (bitsOf m.tag.toNat 16 8) ≠ (planOf u k).defn.round → Runs (.collAbort a m) s (countStale u)) ∧
      (BitVec.ofNat 8 (bitsOf m.tag.toNat 16 8) = (planOf u k).defn.round →
        Runs (.collAbort a m) s (endPlan k stAborted (modPlan k (fun p => { p with abortCause := m.aux })
          (countHbx (fun h => { h with abortsRcvd := satInc h.abortsRcvd }) u)))))) ∧
  (∀ (s u : State) (a : Arrival) (m : Msg), Arrives (.collAbort a m) a m s u → m.opcode ≠ opCollAbort →
    Runs (.collAbort a m) s (countMismatch u))

/-- O53: Ring steps, piece sends, Beater attempts and the plan's timers.  RING_STEP_START starts the next operation of a
sub-ring once its counters have come; PIECE_SEND sends the next piece within the credit, the member's own first and forwarded
ones after, its sending watermark judged where the command brings a disagreement (log entry 117); the credit timer repeats
the credit of a sub-ring that holds no piece. A Beater's attempt that passes releases its piece; one that fails is repeated
at another Beater (a sending watermark in place, over the output it had), and a repeat that fails ends the plan. The step
limit ends a plan with TIMEOUT, and a fault stall halts its queue. Without a running plan or job nothing changes.  (11 R317;
11 R318; 11 R321; 11 R322; 11 R327; 12 R337; 12 R354; 15 R416) -/
def Obligations.RingStepsAndPiecesAdvance : Prop :=
  (∀ (s : State) (k : Fin 16) (l : Fin 3) (r : Fin 4), live s = true → (planOf s k).state = 2 → l.val < levels (planOf s k).defn →
    (ringsOf (planOf s k).defn).contains r.val = true →
    ((ringAt (planOf s k) l r).op < opCount (planOf s k).defn → (ringAt (planOf s k) l r).started = false → opReady s (planOf s k) l r = true →
      Runs (.ringStepStart k l r) s (touchRing k l r (modRing k l r (fun x => { x with started := true, sends := 0, takes := 0 }) s))) ∧
    ((ringAt (planOf s k) l r).started = true ∨ opReady s (planOf s k) l r = false → Runs (.ringStepStart k l r) s s) ∧
    ((ringAt (planOf s k) l r).pieces = [] → Runs (.creditRepeatTimer k l r) s (sendCredit k l r s)) ∧
    ((ringAt (planOf s k) l r).pieces ≠ [] → Runs (.creditRepeatTimer k l r) s s)) ∧
  (∀ (s : State) (k : Fin 16) (l : Fin 3) (r : Fin 4), live s = true → (planOf s k).state ≠ 2 →
    Runs (.ringStepStart k l r) s s ∧ Runs (.creditRepeatTimer k l r) s s ∧ (∀ w, Runs (.pieceSend k l ⟨r, w⟩) s s) ∧
    Runs (.stepLimitExpiry k) s s ∧ Runs (.faultStallExpiry k) s s) ∧
  (∀ (s : State) (k : Fin 16) (l : Fin 3) (r : Fin 4) (w : WmObs), live s = true → (ringAt (planOf s k) l r).limit ≤ (ringAt (planOf s k) l r).nextSend ∨
    (ringAt (planOf s k) l r).opened = false → Runs (.pieceSend k l ⟨r, w⟩) s s) ∧
  (∀ (s : State) (k : Fin 16) (l : Fin 3) (r : Fin 4) (x : SubRing) (ag : Bool) (c : Nat), live s = true → (planOf s k).state = 2 → x = ringAt (planOf s k) l r →
    x.started = true → x.opened = true → x.nextSend < x.limit → x.sends < opTotal (planOf s k) l r → opAt (planOf s k).defn x.op = (ag, c) →
    (∀ b w u t, x.sends < piecesOf (planOf s k).defn l c → firstPiece s (planOf s k) l r ag c x.sends = some (b, w) →
      t = sendOut k l r { seq := x.nextSend, wm := w, ag := ag, bytes := b }
        (if staged (planOf s k).defn l ag = true then keepLocal k l r c x.sends x.nextSend u else u) →
      (u = s → Runs (.pieceSend k l ⟨r, .agree⟩) s (opDone k l r (if ag = true then gatherOwn k l r c x.sends b t else t))) ∧
      (u = transientFail k 0 x.nextSend .sendWm false (noteFail k 0 x.nextSend .sendWm false s) →
        Runs (.pieceSend k l ⟨r, .transient⟩) s (opDone k l r (if ag = true then gatherOwn k l r c x.sends b t else t))) ∧
      Runs (.pieceSend k l ⟨r, .lasting⟩) s (lastingFail k 0 x.nextSend .sendWm false s)) ∧
    (∀ o rest w, piecesOf (planOf s k).defn l c ≤ x.sends → x.ready = o :: rest →
      Runs (.pieceSend k l ⟨r, w⟩) s (opDone k l r (sendOut k l r o (modRing k l r (fun y => { y with ready := rest }) s))))) ∧
  (∀ (s : State) (b : Fin 8) (o : BeatObs), live s = true → (beaterOf s b).job = none →
    Runs (.beaterPieceDone b o) s s ∧ Runs (.recomputeDone b o) s s) ∧
  (∀ (s : State) (b : Fin 8) (o : BeatObs) (j : BeatJob), live s = true → (beaterOf s b).job = some j →
    (j.repeated = true → Runs (.beaterPieceDone b o) s s) ∧ (j.repeated = false → Runs (.recomputeDone b o) s s)) ∧
  (∀ (s t x w : State) (b : Fin 8) (o : BeatObs) (j j' : BeatJob) (v : Piece) (y : List Byte) (i : Bool) (chk : Option CheckKind), live s = true →
    (beaterOf s b).job = some j → t = modBeater b (fun x => { x with job := none }) s → jobPiece t j = some v →
    x = (if j.held.isSome = true then t else countBeat b j (v.size / 256) t) → y = beatGave x (planOf x j.plan) j v o →
    (o.dataError = true → (j.repeated = false → Runs (.beaterPieceDone b o) s (endPlan j.plan stDataError x)) ∧
      (j.repeated = true → Runs (.recomputeDone b o) s (endPlan j.plan stDataError x))) ∧
    (o.dataError = false → beatCheck b j v o y x = (chk, i, j', w) →
      (chk = none → (j.repeated = false → Runs (.beaterPieceDone b o) s (beatPassed j' v y w)) ∧
        (j.repeated = true → Runs (.recomputeDone b o) s (beatPassed j' v y w))) ∧
      (∀ f, chk = some f → (j.repeated = true → Runs (.recomputeDone b o) s (lastingFail j'.plan b j'.seq f i w)) ∧
        (j.repeated = false → Runs (.beaterPieceDone b o) s (beatRepeat b j' f i y w))))) ∧
  (∀ (s t : State) (b : Nat) (j : BeatJob) (f : CheckKind) (i : Bool) (y : List Byte), t = noteFail j.plan b j.seq f false s →
    (f ≠ .sendWm → beatRepeat b j f i y s = { t with
      btr := { t.btr with queue := { j with repeated := true, failed := some f, avoid := b, inj := i } :: t.btr.queue } }) ∧
    (f = .sendWm → beatRepeat b j f i y s = modBeater b (fun u => { u with
      job := some { j with repeated := true, failed := some f, avoid := b, inj := i, held := some y } }) t)) ∧
  (∀ (s : State) (k : Fin 16), live s = true → (planOf s k).state = 2 →
    ((planOf s k).defn.stepLimit ≠ 0 → Runs (.stepLimitExpiry k) s
      (endPlan k stTimeout (countHbx (fun h => { h with stepLimits := satInc h.stepLimits }) s))) ∧
    ((planOf s k).defn.stepLimit = 0 → Runs (.stepLimitExpiry k) s s) ∧
    (∀ t, (queueOf s (planOf s k).queue).state = qSwitchedOut → (planOf s k).faulted ≠ [] →
      t = logErr { cls := clsHang, sev := 3, part := (planOf s k).part, unitKind := 8, ctx := (planOf s k).ctx, queue := (planOf s k).queue, cause := 4 }
        { s with err := { s.err with faultStalls := satInc s.err.faultStalls } } →
      Runs (.faultStallExpiry k) s ((haltByCommand (planOf s k).queue false t).getD t)))

/-- O54: Descriptor start, and a turn of each kind of descriptor.  DESCRIPTOR_START starts the next fetched descriptor when
the queue may, drains the queue on an unreadable one, and changes nothing otherwise. COPY, FILL, DIGEST and SEALED_COPY
(after its key) take a mover's turn, PREFETCH and ADVISE a step of their walk; WAIT completes when its counter has come and
holds its queue otherwise, TIMEOUT at its limit; SIGNAL adds or performs its atomic, once its address is translated; TRIGGER
reads its descriptor when an entry is free; COLLECTIVE takes a plan slot; NOP completes; FENCE waits for the earlier ones. A
command for no run of its kind changes nothing.  (09 R258; 09 R263; 09 R264; 09 R269; 09 R270; 10 R301; 10 R302; 11 R307; 16
R441) -/
def Obligations.DescriptorsRunByTheirKind : Prop :=
  (∀ (s : State) (q : QueueNo), live s = true → mayStart s q = false → Runs (.descriptorStart q) s s) ∧
  (∀ (s : State) (q : QueueNo) (f : Fetched) (rest : List Fetched) (p : PartNo), live s = true → mayStart s q = true →
    (queueOf s q).fetched = f :: rest → queuePart s q = some p →
    (f.index ≠ (queueOf s q).nextStart → Runs (.descriptorStart q) s s) ∧
    (f.index = (queueOf s q).nextStart → f.bad = true → Runs (.descriptorStart q) s (startBad q s)) ∧
    (f.index = (queueOf s q).nextStart → f.bad = false → Runs (.descriptorStart q) s (startFetched q p f s))) ∧
  (∀ (s : State) (id op : Nat) (c : Instr), live s = true →
    (c, op) ∈ [(.copy id, dCopy), (.fill id, dFill), (.digest id, dDigest), (.sealedCopy id, dSealed), (.prefetch id, dPrefetch),
      (.advise id, dAdvise), (.wait id, dWait), (.signal id, dSignal), (.trigger id, dTrigger), (.collective id, dCollective),
      (.nop id, dNop), (.fenceDescriptor id, dFence), (.waitLimitExpiry id, dWait)] →
    (runOf s id = none ∨ ∃ r, runOf s id = some r ∧ r.op ≠ op) → Runs c s s) ∧
  (∀ (s : State) (id : Nat) (r : Run), live s = true → runOf s id = some r →
    (r.op = dCopy → Runs (.copy id) s (moverTurn r.id s)) ∧ (r.op = dFill → Runs (.fill id) s (moverTurn r.id s)) ∧
    (r.op = dDigest → Runs (.digest id) s (moverTurn r.id s)) ∧
    (r.op = dSealed → (r.phase = .active → r.key = none → r.failed = none → Runs (.sealedCopy id) s
        (rotSend rotKeyRequest (bytesAt r.desc 40 8 ++ leBytes 1 r.part ++ [0] ++ leBytes 2 r.ctx) (.key r.id)
          (modRun r.id (fun r => { r with phase := .waitRot }) s))) ∧
      (r.key ≠ none → Runs (.sealedCopy id) s (moverTurn r.id s))) ∧
    (r.op = dPrefetch → Runs (.prefetch id) s (walkStep r.id s)) ∧ (r.op = dAdvise → Runs (.advise id) s (walkStep r.id s)) ∧
    (r.op = dWait → r.phase = .active →
      (r.num 24 8 ≤ (cntOf s (r.num 16 2)).toNat → Runs (.wait id) s (endRun r.id stOk s)) ∧
      ((cntOf s (r.num 16 2)).toNat < r.num 24 8 → Runs (.wait id) s (modRun r.id (fun r => { r with phase := .holding, since := s.nowUs }) s))) ∧
    (r.op = dWait → (r.phase = .holding → r.num 20 4 ≠ 0 → Runs (.waitLimitExpiry id) s (endRun r.id stTimeout s)) ∧
      (r.phase ≠ .holding ∨ r.num 20 4 = 0 → Runs (.waitLimitExpiry id) s s)) ∧
    (r.op = dSignal → (mayIssue s r = true → r.xfers = [] → r.num 16 1 = 0 → Runs (.signal id) s
        (endRun r.id stOk (addCounter (r.num 18 2) (BitVec.ofNat 64 (r.num 32 8)) s))) ∧
      (mayIssue s r = false → Runs (.signal id) s s) ∧
      (∀ t, mayIssue s r = true → r.xfers = [] → r.num 16 1 ≠ 0 →
        translate (.chunk r.id none) r.ctx (r.num 24 8) rightAtomic s = (none, t) → Runs (.signal id) s t) ∧
      (∀ t u e pa ep, mayIssue s r = true → r.xfers = [] → r.num 16 1 ≠ 0 →
        translate (.chunk r.id none) r.ctx (r.num 24 8) rightAtomic s = (some e, t) →
        placeOf e (r.num 24 8) = .loc pa → beginUse r.ctx t = (ep, u) →
        Runs (.signal id) s (giveUnit { msg := signalMsg t r (selfEp t) pa, pa := pa, localOwner := some (.xfer r.id 0) }
          (markXfer r (modRun r.id (fun r => { r with use := some ep }) u))))) ∧
    (r.op = dTrigger → r.phase = .active → mayIssue s r = true → r.xfers = [] → trigFree s r.ctx = false →
      Runs (.trigger id) s (modRun r.id (fun r => { r with phase := .holding })
        { s with cq := { s.cq with trigWaits := satInc s.cq.trigWaits } })) ∧
    (∀ t, r.op = dTrigger → r.phase = .active → mayIssue s r = true → r.xfers = [] → trigFree s r.ctx = true →
      translate (.chunk r.id none) r.ctx (r.num 32 8) rightRead (modRun r.id (fun r => { r with phase := .active }) s) = (none, t) →
      Runs (.trigger id) s t) ∧
    (∀ t u e pa ep, r.op = dTrigger → r.phase = .active → mayIssue s r = true → r.xfers = [] → trigFree s r.ctx = true →
      translate (.chunk r.id none) r.ctx (r.num 32 8) rightRead (modRun r.id (fun r => { r with phase := .active }) s) = (some e, t) →
      placeOf e (r.num 32 8) = .loc pa → beginUse r.ctx t = (ep, u) →
      Runs (.trigger id) s (memIssue .read (.trigDesc r.id) pa 64 0 [] none
        (markXfer r (modRun r.id (fun r => { r with use := some ep }) u)))) ∧
    (r.op = dCollective → mayIssue s r = true → r.plan = none → (∀ k, freeSlot s = some k → Runs (.collective id) s
        (modRun r.id (fun r => { r with plan := some k })
          (modPlan k (fun _ => { state := 1, part := r.part, ctx := r.ctx, queue := r.irqQueue, run := r.id }) s))) ∧
      (freeSlot s = none → Runs (.collective id) s s)) ∧
    (r.op = dNop → (r.phase = .active → Runs (.nop id) s (endRun r.id stOk s)) ∧ (r.phase ≠ .active → Runs (.nop id) s s)) ∧
    (r.op = dFence → r.phase = .active → (fenceReady s r = true → Runs (.fenceDescriptor id) s (endRun r.id stOk s)) ∧
      (fenceReady s r = false → Runs (.fenceDescriptor id) s (modRun r.id (fun r => { r with phase := .holding }) s)))) ∧
  (∀ (s : State) (id : Nat) (r : Run) (j : ChunkJob), runOf s id = some r → mayIssue s r = true → r.xfers.find? (fun t => t.stage == .ready) = none →
    r.chunks.find? (fun j => decide (j.issued < j.len)) = some j → moverTurn id s = if awake s = true then issueNext r j s else s)

/-- O55: Triggered operations, periods, contexts, translations and fault records.  A fired triggered operation runs on a free
mover when the scheduler's turn is its own; DONE_WRITTEN completes a status write; a period's end releases the next one; a
resolved closing context goes into quarantine and becomes free at its end; a translation reply or timeout moves those that
waited for it; a tag set aside comes back; a fault record written advances TAIL and raises FAULT, or counts as overflow on an
error; a quiet withdrawing window is disabled. Otherwise nothing changes.  (09 R246; 09 R247; 09 R265; 09 R270; 09 R273; 10
R282; 10 R284; 10 R299; 10 R300; 10 R306) -/
def Obligations.TimersAndAnswersMoveTheirOwner : Prop :=
  (∀ (s : State) (id : Nat), live s = true → (s.cq.armed.find? (fun a => a.id == id) = none ∨ freeMover s = none) →
    Runs (.triggeredOperationRun id) s s) ∧
  (∀ (s t : State) (id k m : Nat) (a : Armed), live s = true → s.cq.armed.find? (fun a => a.id == id) = some a → freeMover s = some m →
    a.fired = true → schedules s = true → takesTurns s a.part = true → schedule s = some (k, t) →
    (k = 4096 + id → Runs (.triggeredOperationRun id) s
      (beginRun (triggeredRun a id (some m)) { t with cq := { t.cq with armed := t.cq.armed.erase a } })) ∧
    (k ≠ 4096 + id → Runs (.triggeredOperationRun id) s t)) ∧
  (∀ (s : State) (id : Nat), live s = true →
    (∀ r, s.memReqs.find? (fun r => r.owner == .status id .done) = some r → Runs (.doneWritten id) s
      (writeAnswered r 0 (pumpMem (endReqUse r (dropReq r s))))) ∧
    (s.memReqs.find? (fun r => r.owner == .status id .done) = none → Runs (.doneWritten id) s s)) ∧
  (∀ (s : State) (q : QueueNo) (p : PartNo), live s = true → queuePart s q = some p →
    ((queueOf s q).periodic = true → (queueOf s q).bound = true → (queueOf s q).state ≠ qHalted →
      (ctxOf s (queueOf s q).ctx).state = ctxOpen → takesTurns s p = true → Runs (.periodEnd q) s (periodEnd q p s)) ∧
    ((queueOf s q).periodic = false ∨ (queueOf s q).state = qHalted → Runs (.periodEnd q) s s)) ∧
  (∀ (s : State) (c : CtxNo), live s = true →
    ((ctxOf s c).state = ctxClosing → ctxResolved s c = true → (∃ p, ctxPart s c = some p ∧ (partOf s p).state = partReady) →
      Runs (.teardownResolved c) s (modCtx c (fun x => { x with state := ctxQuarantine, quarantineUs := respTimeoutOf s }) s)) ∧
    ((ctxOf s c).state ≠ ctxClosing ∨ ctxResolved s c = false → Runs (.teardownResolved c) s s) ∧
    ((ctxOf s c).state = ctxQuarantine → Runs (.quarantineExpiry c) s (freeContext c s)) ∧
    ((ctxOf s c).state ≠ ctxQuarantine → Runs (.quarantineExpiry c) s s)) ∧
  (∀ (s : State) (d : BitVec 256), live s = true →
    (injectingReply s = true → Runs (.translationReply d) s (injectOne s)) ∧
    (∀ t, injectingReply s = false → takeReply d s = (none, t) → Runs (.translationReply d) s t) ∧
    (∀ m e t, injectingReply s = false → takeReply d s = (some (m, e), t) →
      Runs (.translationReply d) s (forEach m.needs (resumeNeed m e) t))) ∧
  (∀ (s : State) (tag : Byte), live s = true →
    (s.xlt.misses.find? (fun m => m.tag == tag) = none → Runs (.translationTimeout tag) s s) ∧
    (∀ t, takeTimeout tag s = (none, t) → Runs (.translationTimeout tag) s t) ∧
    (∀ m e t, takeTimeout tag s = (some (m, e), t) → Runs (.translationTimeout tag) s (forEach m.needs (resumeNeed m e) t)) ∧
    (s.xlt.setAside.any (fun x => x.1 == tag) = true → Runs (.tagSetAsideExpiry tag) s (tagBack tag s)) ∧
    (s.xlt.setAside.any (fun x => x.1 == tag) = false → Runs (.tagSetAsideExpiry tag) s s)) ∧
  (∀ (s : State) (p : PartNo) (e : BitVec 2), live s = true →
    (s.memReqs.find? (isFaultReq p) = none → Runs (.faultRecordWritten p e) s s) ∧
    (∀ r q n, s.memReqs.find? (isFaultReq p) = some r → r.owner = .faultRecord q n →
      Runs (.faultRecordWritten p e) s (faultWritten p n e (noteMemErr r e false (pumpMem (dropReq r s)))))) ∧
  (∀ (s : State) (p : PartNo) (n : BitVec 32) (e : BitVec 2) (c : CtxNo) (b : List Byte) (rest : List (CtxNo × List Byte)),
    (fqOf s p).writing = (c, b) :: rest → numAt b 20 4 = n.toNat →
    faultWritten p n e s = issueFault p (if 2 ≤ e.toNat
      then overflowFault p c (modFq p (fun f => { f with writing := rest }) s)
      else irqMapped p causeFault (modFq p (fun f => { f with tail := f.tail + 1 }) (modFq p (fun f => { f with writing := rest }) s)))) ∧
  (∀ (s : State) (w : Fin 4096), live s = true → (winOf s w).state = winWithdrawing →
    (winQuiet s w = true → Runs (.windowWithdrawalComplete w) s (modWin w (fun x => { x with state := winDisabled }) s)) ∧
    (winQuiet s w = false → Runs (.windowWithdrawalComplete w) s s))

/-- O56: Root of trust, Vat tests, resets, hang scan and steward.  RESULT goes to the request of its TAG by STATUS; a silent
request is repeated once, VERIFY_IMAGE never; SET_POLICY sets the mask with bit 0. SCRUB_ROW scrubs the next row while no
march test runs; MARCH_COMPLETE and SELF_TEST_COMPLETE record the result; partition, engine-domain and drain resets finish
when what they wait for is over. A scan counts, notes the blocked queues and judges each cycle of them, and declares one that
is positive for the third time. HEARTBEAT is noted, or restarts the steward where its memory holds a lost or lasting error
(log entry 121); the watchdog restarts the steward and holds it at the third firing in the span. Otherwise nothing changes. 
(12 R357; 13 R371; 13 R373; 14 R399; 14 R401; 15 R413; 15 R418; 15 R419; 15 R420; 15 R426; 16 R432; 16 R433) -/
def Obligations.TrustVatAndResetEvents : Prop :=
  (∀ (s : State) (m : RotMsg), live s = true → badFrame m = true →
    Runs (.result m) s (logRot 2 s) ∧ Runs (.setPolicy m) s (logRot 2 s)) ∧
  (∀ (s : State) (m : RotMsg), live s = true → badFrame m = false →
    (s.sec.rot.find? (fun r => r.tag == m.tag) = none → Runs (.result m) s (logRot 0 s)) ∧
    (∀ r, s.sec.rot.find? (fun r => r.tag == m.tag) = some r →
      (m.status = 0 → Runs (.result m) s (rotDeliver r.owner (.done m.body) (rotRetire m.tag s))) ∧
      (m.status = 1 → Runs (.result m) s (rotDeliver r.owner .refused (rotRetire m.tag s))) ∧
      (m.status = 2 → Runs (.result m) s (rotDeliver r.owner .refused (logRot 2 (rotRetire m.tag s))))) ∧
    Runs (.setPolicy m) s { s with
      sec := { s.sec with policy := BitVec.ofNat 6 (m.body.headD 0).toNat ||| 1, policySet := true }
      out := { s.out with rotResults := s.out.rotResults ++ [(m.tag, 0)] } }) ∧
  (∀ (s : State) (tag : BitVec 16), live s = true →
    (s.sec.rot.find? (fun r => r.tag == tag) = none → Runs (.rotRequestTimeout tag) s s) ∧
    (∀ r, s.sec.rot.find? (fun r => r.tag == tag) = some r →
      (neverRepeated r.owner = true → Runs (.rotRequestTimeout tag) s (rotDeliver r.owner .silent (rotRetire tag s))) ∧
      (neverRepeated r.owner = false → r.repeated = true → Runs (.rotRequestTimeout tag) s (rotDeliver r.owner .silent
        (rotRetire tag { s with sec := { s.sec with rotLasting := satInc s.sec.rotLasting } }))) ∧
      (neverRepeated r.owner = false → r.repeated = false → Runs (.rotRequestTimeout tag) s { s with sec := { s.sec with
        rotRepeats := satInc s.sec.rotRepeats
        rot := s.sec.rot.map (fun q => if q.tag = tag then { q with tag := s.sec.rotTag, repeated := true } else q)
        rotTag := s.sec.rotTag + 1 } }))) ∧
  (∀ (s t : State) (es : List VatErr), live s = true → (s.vat.state ≠ vatActive ∨ s.vat.busy = true → Runs (.scrubRow es) s s) ∧
    (s.vat.state = vatActive → s.vat.busy = false → t = forEach es (vatError false s.vat.scrubRow) s →
      (s.vat.scrubRow < 8191 → Runs (.scrubRow es) s { t with vat := { t.vat with scrubRow := s.vat.scrubRow + 1 } }) ∧
      (8191 ≤ s.vat.scrubRow → Runs (.scrubRow es) s { t with vat := { t.vat with scrubRow := 0, scrubPasses := t.vat.scrubPasses + 1 } }))) ∧
  (∀ (s t : State) (f : BitVec 50) (us : BitVec 16), live s = true → (s.vat.busy = false → Runs (.marchComplete f us) s s) ∧
    (s.vat.busy = true → t = (if s.vat.preserving = true then preservingResult f s else destructiveResult f s) →
      Runs (.marchComplete f us) s { t with vat := { t.vat with
        busy := false, preserving := false, passed := f == 0, lastUs := us, state := vatActive } })) ∧
  (∀ (s : State) (f : BitVec 50), (banksIn f).filter (fun b => decide (b < 48)) = [] ∨ 3 ≤ (banksIn f).length → (destructiveResult f s).vat.mem = []) ∧
  (∀ (s : State) (m : BitVec 8) (us : BitVec 16), live s = true → (s.btr.busy = false → Runs (.selfTestComplete m us) s s) ∧
    (s.btr.busy = true → Runs (.selfTestComplete m us) s
      { s with btr := { s.btr with busy := false, passed := m &&& s.btr.licensed, lastUs := us } })) ∧
  (∀ (s : State) (p : PartNo), live s = true →
    ((partOf s p).state = partResetting → s.par.engineBusy = false → partDrained s p = true →
      Runs (.partitionResetDrained p) s (endPartReset p (resetPartObjects p (clearPart p (invalidatePart p s))))) ∧
    ((partOf s p).state ≠ partResetting ∨ s.par.engineBusy = true ∨ partDrained s p = false → Runs (.partitionResetDrained p) s s)) ∧
  (∀ s : State, live s = true →
    (s.par.engineBusy = true → s.memReqs = [] → s.memWaiting = [] → Runs .engineResetMemoryDrained s (endEngineReset (clearEngines s))) ∧
    (s.par.engineBusy = false ∨ s.memReqs ≠ [] ∨ s.memWaiting ≠ [] → Runs .engineResetMemoryDrained s s) ∧
    (s.err.hangScan = false → Runs .hangScan s s) ∧
    (∀ bs cs, s.err.hangScan = true → bs = blockedQueues s → cs = (cyclesOf bs).map (fun qs => (qs, judgeCycle s bs qs)) →
      Runs .hangScan s (forEach ((cs.filter (fun c => decide (3 ≤ c.2))).map (·.1)) declareHang { s with err := { s.err with
        scans := s.err.scans + 1
        positive := satAdd s.err.positive (cs.filter (fun c => c.2 != 0)).length
        blocked := (bs.map (fun b => { b with positive := cycleCount cs b })).filter (fun b => decide (b.positive < 3)) } })) ∧
    (∀ t, stewardUp s = true → injectingHeartbeat s = false → readSteward s = (false, t) →
      Runs .heartbeat s { t with err := { t.err with heartbeatAt := t.nowUs } }) ∧
    (∀ t, stewardUp s = true → injectingHeartbeat s = false → readSteward s = (true, t) → Runs .heartbeat s (startRestart t)) ∧
    (stewardUp s = false ∨ injectingHeartbeat s = true → Runs .heartbeat s s) ∧
    (stewardUp s = false → Runs .watchdogFire s s) ∧
    (∀ t, stewardUp s = true → injectingHeartbeat s = false → t = { s with err := { s.err with firedAt := s.nowUs :: s.err.firedAt } } →
      ((t.err.firedAt.filter (fun a => decide (spanFrom t ≤ a))).length < 3 → Runs .watchdogFire s (startRestart t)) ∧
      (3 ≤ (t.err.firedAt.filter (fun a => decide (spanFrom t ≤ a))).length → Runs .watchdogFire s (holdSteward t))) ∧
    (s.err.restarting = true → Runs .stewardRestartComplete s (flushReports { s with err := { s.err with restarting := false } })) ∧
    (s.err.restarting = false → Runs .stewardRestartComplete s s) ∧
    (s.err.drainState = 1 → s.trk.trackers = [] → s.cq.runs.all (fun r => r.statusWait.isSome) = true →
      Runs .drainComplete s (bumpEpoch { s with err := { s.err with drainState := 2 } })) ∧
    (s.err.drainState ≠ 1 ∨ s.trk.trackers ≠ [] ∨ s.cq.runs.all (fun r => r.statusWait.isSome) = false → Runs .drainComplete s s))

/-- O57: The sideband: PEC, policy, boot stage, alert response, bus reset.  For every sideband command: while the steward
restarts, or with a bad PEC (counted in PEC_ERRORS), it is not acknowledged and has no effect; one that its code, the policy,
the boot stage or a hold refuses is answered with MALFORMED, RIGHTS or STATE_REFUSED and counted. The alert response gives
the block's 7-bit address 0x60 + SB_ADDR while a report waits (its form is the model's reading, log entry 76); a bus reset
changes the target only; a long command's end leaves its result in OP_STATE.  (02 R50; 04 R115; 15 R419; 16 R433; 16 R447; 16
R448; 16 R451; 16 R452; 16 R455) -/
def Obligations.SidebandCommandsPassTheGate : Prop :=
  (∀ (c : Instr) (s : State) (k : Bool) (code : Byte), live s = true → sidebandCode c = some (k, code) →
    (s.err.restarting = true → Runs c s (setRsp {} s)) ∧
    (s.err.restarting = false → k = false → Runs c s (setRsp {} { s with sec := { s.sec with pecErrors := satInc s.sec.pecErrors } })) ∧
    (s.err.restarting = false → k = true → gate code s ≠ stOk → Runs c s (sbReply s (gate code s) [] s))) ∧
  (∀ (code : Byte) (s : State) (g : Nat), groupOf code = some g →
    (policyAllows s g = false → gate code s = stRights) ∧
    (policyAllows s g = true → bootStage s = true → bootAllows code = false → gate code s = stStateRefused) ∧
    (policyAllows s g = true → bootStage s = false → inHold s = false → gate code s = stOk)) ∧
  (∀ (code : Byte) (s : State), groupOf code = none → gate code s = stMalformed) ∧
  (∀ s : State, live s = true → s.sec.reports ≠ [] → s.err.restarting = false →
    Runs .alertResponse s (setRsp { acked := true, payload := [0x60 + s.pins.sbAddr.setWidth 8] } s)) ∧
  (∀ s : State, live s = true → s.sec.reports = [] ∨ s.err.restarting = true → Runs .alertResponse s (setRsp {} s)) ∧
  (∀ s : State, live s = true → Runs .busReset s (setRsp {} { s with sec := { s.sec with busResets := satInc s.sec.busResets } })) ∧
  (∀ s : State, live s = true →
    (∀ b st r, s.sec.longFrom = some b → longResult s = some (st, r) → Runs .longCommandComplete s
      { setOp b { opOf b s with state := 2, status := st, res := r } s with
        sec := { (setOp b { opOf b s with state := 2, status := st, res := r } s).sec with longFrom := none } }) ∧
    (s.sec.longFrom = none ∨ longResult s = none → Runs .longCommandComplete s s))

/-- O58: What each sideband command answers and does.  For each of the 32 sideband commands that arrives correct and may run:
the STATUS, the payload and the state it leaves, MGMT_EPOCH advancing when anything changed: IDENTIFY, GET_EPOCH, READ_REG,
WRITE_REG, SET_CEILING, SET_POWER, TELEMETRY, PORT_STATUS, RETRAIN, the four RESETs, DRAIN, RANK_WRITE, RANK_COMMIT, REPORTS,
the four DIRECTED actions, the six TESTs, NVM_READ, NVM_ERASE, NVM_WRITE, NVM_CHECK and OP_STATE. A long command is refused
while another runs; tests need directed mode; a barred port does not enter TEST, and TEST LOOP closes the near-end serial
loop on the spare lane of a port that is UP.  (03 R71; 04 R105; 04 R106; 04 R113; 07 R191; 14 R398; 14 R400; 15 R419; 15
R425; 16 R449; 16 R450; 16 R453) -/
def Obligations.SidebandCommandsTakeEffect : Prop :=
  (∀ s : State, SbAnswers (.identify true) s stOk (mgIdentify s) s ∧ SbAnswers (.getEpoch true) s stOk (mgEpoch s) s ∧
    SbAnswers (.telemetry true) s stOk (mgTelemetry s) s ∧ SbAnswers (.opState true) s stOk (mgOpState false s) s) ∧
  (∀ (s : State) (n : Byte) (p : Port), p = portOf s n.toNat →
    (n.toNat < 12 → SbAnswers (.portStatus true n) s stOk
      (leBytes 8 (rdPortState p).toNat ++ leBytes 8 (rdDeckle p).toNat ++ leBytes 8 (rdLaneState p).toNat ++ leBytes 8 (rdPortLink p).toNat) s) ∧
    (12 ≤ n.toNat → SbAnswers (.portStatus true n) s stMalformed [] s)) ∧
  (∀ (s t : State) (o : BitVec 32) (n : Byte) (bs : List Byte),
    (n = 0 ∨ 30 < n.toNat → SbAnswers (.readReg true o n) s stMalformed [] s) ∧
    (1 ≤ n.toNat → n.toNat ≤ 30 → bootStage s = false → readRegs n.toNat o.toNat s = (true, bs, t) →
      SbAnswers (.readReg true o n) s stOk bs t) ∧
    (1 ≤ n.toNat → n.toNat ≤ 30 → bootStage s = false → readRegs n.toNat o.toNat s = (false, bs, t) →
      SbAnswers (.readReg true o n) s stRights [] { t with vat := { t.vat with winAddr := s.vat.winAddr } })) ∧
  (∀ (s t : State) (o : BitVec 32) (v : Word) (be : BitVec 8) (e : BitVec 2),
    (s.fur.directed = true → writeReg true o.toNat parPriv v be s = (e, t) →
      SbAnswers (.writeReg true o v be) s (if e = rspDone then stOk else stRights) [] t) ∧
    (s.pins.ready = false → s.fur.directed = false → writesOther o.toNat v be s = true →
      SbAnswers (.writeReg true o v be) s stStateRefused [] s)) ∧
  (∀ (s : State) (v : BitVec 16) (h : Byte),
    (h.toNat < 2 → SbAnswers (.setCeiling true v h) s stOk
      (leBytes 2 (orderRack v (h == 1) s).power.effective.toNat ++ leBytes 1 (orderRack v (h == 1) s).power.source.toNat) (orderRack v (h == 1) s)) ∧
    (2 ≤ h.toNat → SbAnswers (.setCeiling true v h) s stMalformed [] s)) ∧
  (∀ (s t : State) (x st : Byte), s.sec.longFrom = none →
    (x = 0 ∨ 4 ≤ x.toNat → SbAnswers (.setPower true x) s stMalformed [] s) ∧
    (1 ≤ x.toNat → x.toNat ≤ 3 → orderPower x.toNat s = (stOk, t) → SbAnswers (.setPower true x) s stOk [] (beginOp false 0x06 (x.setWidth 16) t)) ∧
    (1 ≤ x.toNat → x.toNat ≤ 3 → orderPower x.toNat s = (st, t) → st ≠ stOk → SbAnswers (.setPower true x) s st [] t)) ∧
  (∀ (s : State) (c : Instr), s.sec.longFrom.isSome = true →
    c ∈ [.resetEngineDomain true, .resetSteward true, .resetCapture true, .drain true, .rankCommit true] →
    SbAnswers c s stStateRefused [] s) ∧
  (∀ (s : State) (n f : Byte), s.sec.longFrom = none → n.toNat < 12 → f.toNat < 2 →
    SbAnswers (.retrain true n f) s stOk [] (beginOp false 0x09 (n.setWidth 16) (orderRetrain n.toNat (f == 1) s))) ∧
  (∀ (s t : State) (p st : Byte), s.sec.longFrom = none →
    (p.toNat < 16 → orderPartReset (partNo p.toNat) s = (stOk, t) →
      SbAnswers (.resetPartition true p) s stOk [] (beginOp false 0x0A (BitVec.ofNat 16 (1 + 256 * p.toNat)) t)) ∧
    (p.toNat < 16 → orderPartReset (partNo p.toNat) s = (st, t) → st ≠ stOk → SbAnswers (.resetPartition true p) s st [] t) ∧
    (orderEngineReset s = (stOk, t) → SbAnswers (.resetEngineDomain true) s stOk [] (beginOp false 0x0A 2 t)) ∧
    (orderEngineReset s = (st, t) → st ≠ stOk → SbAnswers (.resetEngineDomain true) s st [] t) ∧
    SbAnswers (.resetSteward true) s stOk [] (beginOp false 0x0A 3 (startRestart s)) ∧
    SbAnswers (.resetCapture true) s stOk [] (beginOp false 0x0A 4 (capture 6 .all 0 s)) ∧
    SbAnswers (.drain true) s stOk [] (beginOp false 0x0B 0 (declareSuspect 3 s)) ∧
    (s.route.digestBusy = false → SbAnswers (.rankCommit true) s stOk [] (beginOp false 0x0D 0 (commitRanks s))) ∧
    (s.route.digestBusy = true → SbAnswers (.rankCommit true) s stStateRefused [] s)) ∧
  (∀ (s : State) (r : BitVec 32) (es : List (BitVec 32)),
    (es = [] ∨ 60 < es.length ∨ 131072 < r.toNat + es.length → SbAnswers (.rankWrite true r es) s stMalformed [] s) ∧
    (es ≠ [] → es.length ≤ 60 → r.toNat + es.length ≤ 131072 → s.route.digestBusy = false →
      (es.zipIdx r.toNat).any (fun x => rankRefused (writeRanks r.toNat es s) x.2 x.1) = false →
      SbAnswers (.rankWrite true r es) s stOk [] (writeRanks r.toNat es s))) ∧
  (∀ (s : State) (k : BitVec 32) (l : List (List Byte)), l = s.sec.reports.filter (fun r => decide (k.toNat < numAt r 4 4)) →
    SbAnswers (.reports true k) s stOk (leBytes 2 l.length ++ leBytes 2 s.sec.lost.toNat ++ (l.take 3).flatMap id)
      { s with sec := { s.sec with reports := l } }) ∧
  (∀ s : State,
    (s.pins.ready = true → SbAnswers (.directedHold true) s stOk [] (modFur (fun f => { f with directed := true }) s)) ∧
    (s.pins.ready = false → SbAnswers (.directedHold true) s stOk [] (modFur (fun f => { f with holdOrder := true }) s)) ∧
    (heldNow s = true → SbAnswers (.directedStep true) s stOk [] (leaveHold (modFur (fun f => { f with holdOrder := true }) s)) ∧
      SbAnswers (.directedResume true) s stOk [] (leaveHold (modFur (fun f => { f with holdOrder := false, directed := false }) s))) ∧
    (heldNow s = false → SbAnswers (.directedStep true) s stStateRefused [] s ∧ SbAnswers (.directedResume true) s stStateRefused [] s) ∧
    (s.pins.ready = true → s.fur.directed = true → SbAnswers (.directedLeave true) s stOk []
      (modFur (fun f => { f with directed := false }) (forEach (List.range 12) leaveTest s))) ∧
    (s.pins.ready = false ∨ s.fur.directed = false → SbAnswers (.directedLeave true) s stStateRefused [] s)) ∧
  (∀ (s : State) (n : Byte) (b : BitVec 16), s.fur.directed = false → n.toNat < 12 →
    SbAnswers (.testDestructiveMarch true) s stStateRefused [] s ∧ SbAnswers (.testPreservingMarch true) s stStateRefused [] s ∧
    SbAnswers (.testBeaterSelfTest true) s stStateRefused [] s ∧ SbAnswers (.testPortEnter true n) s stStateRefused [] s ∧
    SbAnswers (.testPortExit true n) s stStateRefused [] s ∧ SbAnswers (.testLoop true n b) s stStateRefused [] s) ∧
  (∀ (s t : State) (n : Byte) (b : BitVec 16), s.fur.directed = true → s.sec.longFrom = none →
    (marchAllowed false s = true → SbAnswers (.testDestructiveMarch true) s stOk [] (beginOp false 0x11 1 (startMarch false s))) ∧
    (marchAllowed true s = true → SbAnswers (.testPreservingMarch true) s stOk [] (beginOp false 0x11 2 (startMarch true s))) ∧
    (selfTestAllowed s = true → SbAnswers (.testBeaterSelfTest true) s stOk [] (beginOp false 0x11 3 (startSelfTest s))) ∧
    (n.toNat < 12 → barOf s n.toNat = none →
      SbAnswers (.testPortEnter true n) s stOk [] (beginOp false 0x11 4 (enterTest n.toNat s))) ∧
    (n.toNat < 12 → (barOf s n.toNat).isSome = true → SbAnswers (.testPortEnter true n) s stStateRefused [] s) ∧
    (n.toNat < 12 → (portOf s n.toNat).state = psTest →
      SbAnswers (.testPortExit true n) s stOk [] (beginOp false 0x11 5 (leaveTest n.toNat s))) ∧
    (n.toNat < 12 → (portOf s n.toNat).state = psTest →
      SbAnswers (.testLoop true n b) s stOk [] (beginOp false 0x11 6
        (modPort n.toNat (chooseLoops (b.extractLsb' 0 2) (b.getLsbD 2) (b.extractLsb' 3 9)) s))) ∧
    (n.toNat < 12 → (portOf s n.toNat).state ≠ psTest →
      setSpareLoop n.toNat (b.extractLsb' 0 2) (b.getLsbD 2) (b.extractLsb' 3 9) s = some t →
      SbAnswers (.testLoop true n b) s stOk [] (beginOp false 0x11 6 t)) ∧
    (n.toNat < 12 → (portOf s n.toNat).state ≠ psTest →
      setSpareLoop n.toNat (b.extractLsb' 0 2) (b.getLsbD 2) (b.extractLsb' 3 9) s = none →
      SbAnswers (.testLoop true n b) s stStateRefused [] s)) ∧
  (∀ (s : State) (n : Nat) (m : BitVec 2) (p : Bool) (l : BitVec 9),
    ((portOf s n).state = psUp → (portOf s n).cal.pass = none →
      m = 0 ∨ (m = 1 ∧ l ≠ 0 ∧ l = lanesWhere (fun k => decide ((portOf s n).deckle.spare.toNat = k))) →
      setSpareLoop n m p l s = some (modPort n (chooseLoops m p l) s)) ∧
    ((portOf s n).state ≠ psUp → setSpareLoop n m p l s = none)) ∧
  (∀ (s : State) (o : BitVec 32) (n : Byte), 1 ≤ n.toNat → n.toNat ≤ 240 → o.toNat + n.toNat ≤ nvmEnd →
    SbAnswers (.nvmRead true o n) s stOk (nvmBytes s o.toNat n.toNat) s) ∧
  (∀ (s : State) (o : BitVec 32) (d : List Byte), s.sec.longFrom = none → stagingRefused s o.toNat = false →
    (o.toNat % 0x1000 = 0 → o.toNat + 0x1000 ≤ nvmEnd → SbAnswers (.nvmErase true o 0) s stOk [] (beginOp false 0x21 0 (eraseNvm o.toNat 0x1000 s))) ∧
    (o.toNat % 0x10000 = 0 → o.toNat + 0x10000 ≤ nvmEnd → SbAnswers (.nvmErase true o 1) s stOk [] (beginOp false 0x21 0 (eraseNvm o.toNat 0x10000 s))) ∧
    (d ≠ [] → d.length ≤ 240 → o.toNat / 256 = (o.toNat + d.length - 1) / 256 → o.toNat + d.length ≤ nvmEnd →
      SbAnswers (.nvmWrite true o d) s stOk [] (beginOp false 0x22 0 (programNvm o.toNat d s)))) ∧
  (∀ (s : State) (o : BitVec 32) (d : List Byte), s.sec.longFrom = none → stagingRefused s o.toNat = true →
    (o.toNat % 0x1000 = 0 → o.toNat + 0x1000 ≤ nvmEnd → SbAnswers (.nvmErase true o 0) s stStateRefused [] s) ∧
    (d ≠ [] → d.length ≤ 240 → o.toNat / 256 = (o.toNat + d.length - 1) / 256 → o.toNat + d.length ≤ nvmEnd →
      SbAnswers (.nvmWrite true o d) s stStateRefused [] s)) ∧
  (∀ (s : State) (b : Byte), s.sec.longFrom = none →
    (b.toNat < 2 → SbAnswers (.nvmCheck true b) s stOk [] (checkStaged (b == 1) (beginOp false 0x23 (b.setWidth 16) s))) ∧
    (2 ≤ b.toNat → SbAnswers (.nvmCheck true b) s stMalformed [] s))

/-- O59: INT32 and INT64 sums are two's complement sums modulo 2^w, unreported.  For INT32 (DTYPE 11, w = 32) and INT64
(DTYPE 12, w = 64), pieces of k granules and every element i in them: element i of the sum is the sum of the elements modulo
2^w, nothing is reported of it (no NaN, saturation or clamp), and the sum is as long as the operands.  (12 R344) -/
def Obligations.IntegerSumsWrap : Prop :=
  ∀ (dtype n k i : Nat) (a b : List Byte), (dtype = 11 ∧ n = 4) ∨ (dtype = 12 ∧ n = 8) → a.length = 256 * k → b.length = 256 * k →
    n * i < 256 * k →
    numAt (addPieces dtype k a b).1 (n * i) n = (numAt a (n * i) n + numAt b (n * i) n) % 2 ^ (8 * n) ∧
    (addPieces dtype k a b).2 = {} ∧ (addPieces dtype k a b).1.length = 256 * k

/-- O60: Endpoint (x, y, z) has the number x + 64 y + 4,096 z.  For all coordinates x, y < 64 and z < 32 the endpoint number
x + 64 y + 4,096 z has the coordinates x, y and z in bits [5:0], [11:6] and [16:12]; every 17-bit number is the number of its
coordinates; and two states with the same endpoint number have the same coordinates, whatever the machine's dimensions.  (07
R185) -/
def Obligations.EndpointNumbersPackCoordinates : Prop :=
  (∀ x y z : Nat, x < 64 → y < 64 → z < 32 →
    coordOf (x + 64 * y + 4096 * z) 0 = x ∧ coordOf (x + 64 * y + 4096 * z) 1 = y ∧ coordOf (x + 64 * y + 4096 * z) 2 = z ∧
    bitsOf (x + 64 * y + 4096 * z) 0 6 = x ∧ bitsOf (x + 64 * y + 4096 * z) 6 6 = y ∧ bitsOf (x + 64 * y + 4096 * z) 12 5 = z) ∧
  (∀ e : Nat, e < 2 ^ 17 → e = coordOf e 0 + 64 * coordOf e 1 + 4096 * coordOf e 2) ∧
  (∀ (s t : State) (d : Nat), selfEp s = selfEp t → selfCoord s d = selfCoord t d)
end

