-- ==== Sys2Proof/Laws/State.lean ====
section
/-! SUPPORT. What each update of the state leaves: one lemma per field and update, so that no proof unfolds one. -/

namespace Sys2Proof.Machine

/-! ### `setPort` -/

@[simp] theorem setPort_pending (n : Nat) (p : Port) (s : State) : (setPort n p s).pending = s.pending := rfl
@[simp] theorem setPort_nowUs (n : Nat) (p : Port) (s : State) : (setPort n p s).nowUs = s.nowUs := rfl
@[simp] theorem setPort_freeCtr (n : Nat) (p : Port) (s : State) : (setPort n p s).freeCtr = s.freeCtr := rfl
@[simp] theorem setPort_pins (n : Nat) (p : Port) (s : State) : (setPort n p s).pins = s.pins := rfl
@[simp] theorem setPort_out (n : Nat) (p : Port) (s : State) : (setPort n p s).out = s.out := rfl
@[simp] theorem setPort_access (n : Nat) (p : Port) (s : State) : (setPort n p s).access = s.access := rfl
@[simp] theorem setPort_power (n : Nat) (p : Port) (s : State) : (setPort n p s).power = s.power := rfl
@[simp] theorem setPort_fur (n : Nat) (p : Port) (s : State) : (setPort n p s).fur = s.fur := rfl
@[simp] theorem setPort_route (n : Nat) (p : Port) (s : State) : (setPort n p s).route = s.route := rfl
@[simp] theorem setPort_memReqs (n : Nat) (p : Port) (s : State) : (setPort n p s).memReqs = s.memReqs := rfl
@[simp] theorem setPort_memWaiting (n : Nat) (p : Port) (s : State) : (setPort n p s).memWaiting = s.memWaiting := rfl
@[simp] theorem setPort_loopback (n : Nat) (p : Port) (s : State) : (setPort n p s).loopback = s.loopback := rfl
@[simp] theorem setPort_trk (n : Nat) (p : Port) (s : State) : (setPort n p s).trk = s.trk := rfl
@[simp] theorem setPort_aper (n : Nat) (p : Port) (s : State) : (setPort n p s).aper = s.aper := rfl
@[simp] theorem setPort_cq (n : Nat) (p : Port) (s : State) : (setPort n p s).cq = s.cq := rfl
@[simp] theorem setPort_xlt (n : Nat) (p : Port) (s : State) : (setPort n p s).xlt = s.xlt := rfl
@[simp] theorem setPort_hbx (n : Nat) (p : Port) (s : State) : (setPort n p s).hbx = s.hbx := rfl
@[simp] theorem setPort_btr (n : Nat) (p : Port) (s : State) : (setPort n p s).btr = s.btr := rfl
@[simp] theorem setPort_vat (n : Nat) (p : Port) (s : State) : (setPort n p s).vat = s.vat := rfl
@[simp] theorem setPort_par (n : Nat) (p : Port) (s : State) : (setPort n p s).par = s.par := rfl
@[simp] theorem setPort_err (n : Nat) (p : Port) (s : State) : (setPort n p s).err = s.err := rfl
@[simp] theorem setPort_sec (n : Nat) (p : Port) (s : State) : (setPort n p s).sec = s.sec := rfl

/-! ### `modPort` -/

@[simp] theorem modPort_pending (n : Nat) (f : Port → Port) (s : State) : (modPort n f s).pending = s.pending := rfl
@[simp] theorem modPort_nowUs (n : Nat) (f : Port → Port) (s : State) : (modPort n f s).nowUs = s.nowUs := rfl
@[simp] theorem modPort_freeCtr (n : Nat) (f : Port → Port) (s : State) : (modPort n f s).freeCtr = s.freeCtr := rfl
@[simp] theorem modPort_pins (n : Nat) (f : Port → Port) (s : State) : (modPort n f s).pins = s.pins := rfl
@[simp] theorem modPort_out (n : Nat) (f : Port → Port) (s : State) : (modPort n f s).out = s.out := rfl
@[simp] theorem modPort_access (n : Nat) (f : Port → Port) (s : State) : (modPort n f s).access = s.access := rfl
@[simp] theorem modPort_power (n : Nat) (f : Port → Port) (s : State) : (modPort n f s).power = s.power := rfl
@[simp] theorem modPort_fur (n : Nat) (f : Port → Port) (s : State) : (modPort n f s).fur = s.fur := rfl
@[simp] theorem modPort_route (n : Nat) (f : Port → Port) (s : State) : (modPort n f s).route = s.route := rfl
@[simp] theorem modPort_memReqs (n : Nat) (f : Port → Port) (s : State) : (modPort n f s).memReqs = s.memReqs := rfl
@[simp] theorem modPort_memWaiting (n : Nat) (f : Port → Port) (s : State) : (modPort n f s).memWaiting = s.memWaiting := rfl
@[simp] theorem modPort_loopback (n : Nat) (f : Port → Port) (s : State) : (modPort n f s).loopback = s.loopback := rfl
@[simp] theorem modPort_trk (n : Nat) (f : Port → Port) (s : State) : (modPort n f s).trk = s.trk := rfl
@[simp] theorem modPort_aper (n : Nat) (f : Port → Port) (s : State) : (modPort n f s).aper = s.aper := rfl
@[simp] theorem modPort_cq (n : Nat) (f : Port → Port) (s : State) : (modPort n f s).cq = s.cq := rfl
@[simp] theorem modPort_xlt (n : Nat) (f : Port → Port) (s : State) : (modPort n f s).xlt = s.xlt := rfl
@[simp] theorem modPort_hbx (n : Nat) (f : Port → Port) (s : State) : (modPort n f s).hbx = s.hbx := rfl
@[simp] theorem modPort_btr (n : Nat) (f : Port → Port) (s : State) : (modPort n f s).btr = s.btr := rfl
@[simp] theorem modPort_vat (n : Nat) (f : Port → Port) (s : State) : (modPort n f s).vat = s.vat := rfl
@[simp] theorem modPort_par (n : Nat) (f : Port → Port) (s : State) : (modPort n f s).par = s.par := rfl
@[simp] theorem modPort_err (n : Nat) (f : Port → Port) (s : State) : (modPort n f s).err = s.err := rfl
@[simp] theorem modPort_sec (n : Nat) (f : Port → Port) (s : State) : (modPort n f s).sec = s.sec := rfl

/-! ### `modCtx` -/

@[simp] theorem modCtx_pending (c : Nat) (f : Ctx → Ctx) (s : State) : (modCtx c f s).pending = s.pending := rfl
@[simp] theorem modCtx_nowUs (c : Nat) (f : Ctx → Ctx) (s : State) : (modCtx c f s).nowUs = s.nowUs := rfl
@[simp] theorem modCtx_freeCtr (c : Nat) (f : Ctx → Ctx) (s : State) : (modCtx c f s).freeCtr = s.freeCtr := rfl
@[simp] theorem modCtx_pins (c : Nat) (f : Ctx → Ctx) (s : State) : (modCtx c f s).pins = s.pins := rfl
@[simp] theorem modCtx_out (c : Nat) (f : Ctx → Ctx) (s : State) : (modCtx c f s).out = s.out := rfl
@[simp] theorem modCtx_access (c : Nat) (f : Ctx → Ctx) (s : State) : (modCtx c f s).access = s.access := rfl
@[simp] theorem modCtx_power (c : Nat) (f : Ctx → Ctx) (s : State) : (modCtx c f s).power = s.power := rfl
@[simp] theorem modCtx_fur (c : Nat) (f : Ctx → Ctx) (s : State) : (modCtx c f s).fur = s.fur := rfl
@[simp] theorem modCtx_ports (c : Nat) (f : Ctx → Ctx) (s : State) : (modCtx c f s).ports = s.ports := rfl
@[simp] theorem modCtx_route (c : Nat) (f : Ctx → Ctx) (s : State) : (modCtx c f s).route = s.route := rfl
@[simp] theorem modCtx_memReqs (c : Nat) (f : Ctx → Ctx) (s : State) : (modCtx c f s).memReqs = s.memReqs := rfl
@[simp] theorem modCtx_memWaiting (c : Nat) (f : Ctx → Ctx) (s : State) : (modCtx c f s).memWaiting = s.memWaiting := rfl
@[simp] theorem modCtx_loopback (c : Nat) (f : Ctx → Ctx) (s : State) : (modCtx c f s).loopback = s.loopback := rfl
@[simp] theorem modCtx_trk (c : Nat) (f : Ctx → Ctx) (s : State) : (modCtx c f s).trk = s.trk := rfl
@[simp] theorem modCtx_aper (c : Nat) (f : Ctx → Ctx) (s : State) : (modCtx c f s).aper = s.aper := rfl
@[simp] theorem modCtx_xlt (c : Nat) (f : Ctx → Ctx) (s : State) : (modCtx c f s).xlt = s.xlt := rfl
@[simp] theorem modCtx_hbx (c : Nat) (f : Ctx → Ctx) (s : State) : (modCtx c f s).hbx = s.hbx := rfl
@[simp] theorem modCtx_btr (c : Nat) (f : Ctx → Ctx) (s : State) : (modCtx c f s).btr = s.btr := rfl
@[simp] theorem modCtx_vat (c : Nat) (f : Ctx → Ctx) (s : State) : (modCtx c f s).vat = s.vat := rfl
@[simp] theorem modCtx_par (c : Nat) (f : Ctx → Ctx) (s : State) : (modCtx c f s).par = s.par := rfl
@[simp] theorem modCtx_err (c : Nat) (f : Ctx → Ctx) (s : State) : (modCtx c f s).err = s.err := rfl
@[simp] theorem modCtx_sec (c : Nat) (f : Ctx → Ctx) (s : State) : (modCtx c f s).sec = s.sec := rfl

/-! ### `modQueue` -/

@[simp] theorem modQueue_pending (q : Nat) (f : Queue → Queue) (s : State) : (modQueue q f s).pending = s.pending := rfl
@[simp] theorem modQueue_nowUs (q : Nat) (f : Queue → Queue) (s : State) : (modQueue q f s).nowUs = s.nowUs := rfl
@[simp] theorem modQueue_freeCtr (q : Nat) (f : Queue → Queue) (s : State) : (modQueue q f s).freeCtr = s.freeCtr := rfl
@[simp] theorem modQueue_pins (q : Nat) (f : Queue → Queue) (s : State) : (modQueue q f s).pins = s.pins := rfl
@[simp] theorem modQueue_out (q : Nat) (f : Queue → Queue) (s : State) : (modQueue q f s).out = s.out := rfl
@[simp] theorem modQueue_access (q : Nat) (f : Queue → Queue) (s : State) : (modQueue q f s).access = s.access := rfl
@[simp] theorem modQueue_power (q : Nat) (f : Queue → Queue) (s : State) : (modQueue q f s).power = s.power := rfl
@[simp] theorem modQueue_fur (q : Nat) (f : Queue → Queue) (s : State) : (modQueue q f s).fur = s.fur := rfl
@[simp] theorem modQueue_ports (q : Nat) (f : Queue → Queue) (s : State) : (modQueue q f s).ports = s.ports := rfl
@[simp] theorem modQueue_route (q : Nat) (f : Queue → Queue) (s : State) : (modQueue q f s).route = s.route := rfl
@[simp] theorem modQueue_memReqs (q : Nat) (f : Queue → Queue) (s : State) : (modQueue q f s).memReqs = s.memReqs := rfl
@[simp] theorem modQueue_memWaiting (q : Nat) (f : Queue → Queue) (s : State) : (modQueue q f s).memWaiting = s.memWaiting := rfl
@[simp] theorem modQueue_loopback (q : Nat) (f : Queue → Queue) (s : State) : (modQueue q f s).loopback = s.loopback := rfl
@[simp] theorem modQueue_trk (q : Nat) (f : Queue → Queue) (s : State) : (modQueue q f s).trk = s.trk := rfl
@[simp] theorem modQueue_aper (q : Nat) (f : Queue → Queue) (s : State) : (modQueue q f s).aper = s.aper := rfl
@[simp] theorem modQueue_xlt (q : Nat) (f : Queue → Queue) (s : State) : (modQueue q f s).xlt = s.xlt := rfl
@[simp] theorem modQueue_hbx (q : Nat) (f : Queue → Queue) (s : State) : (modQueue q f s).hbx = s.hbx := rfl
@[simp] theorem modQueue_btr (q : Nat) (f : Queue → Queue) (s : State) : (modQueue q f s).btr = s.btr := rfl
@[simp] theorem modQueue_vat (q : Nat) (f : Queue → Queue) (s : State) : (modQueue q f s).vat = s.vat := rfl
@[simp] theorem modQueue_par (q : Nat) (f : Queue → Queue) (s : State) : (modQueue q f s).par = s.par := rfl
@[simp] theorem modQueue_err (q : Nat) (f : Queue → Queue) (s : State) : (modQueue q f s).err = s.err := rfl
@[simp] theorem modQueue_sec (q : Nat) (f : Queue → Queue) (s : State) : (modQueue q f s).sec = s.sec := rfl

/-! ### `modPart` -/

@[simp] theorem modPart_pending (p : Nat) (f : Partition → Partition) (s : State) : (modPart p f s).pending = s.pending := rfl
@[simp] theorem modPart_nowUs (p : Nat) (f : Partition → Partition) (s : State) : (modPart p f s).nowUs = s.nowUs := rfl
@[simp] theorem modPart_freeCtr (p : Nat) (f : Partition → Partition) (s : State) : (modPart p f s).freeCtr = s.freeCtr := rfl
@[simp] theorem modPart_pins (p : Nat) (f : Partition → Partition) (s : State) : (modPart p f s).pins = s.pins := rfl
@[simp] theorem modPart_out (p : Nat) (f : Partition → Partition) (s : State) : (modPart p f s).out = s.out := rfl
@[simp] theorem modPart_access (p : Nat) (f : Partition → Partition) (s : State) : (modPart p f s).access = s.access := rfl
@[simp] theorem modPart_power (p : Nat) (f : Partition → Partition) (s : State) : (modPart p f s).power = s.power := rfl
@[simp] theorem modPart_fur (p : Nat) (f : Partition → Partition) (s : State) : (modPart p f s).fur = s.fur := rfl
@[simp] theorem modPart_ports (p : Nat) (f : Partition → Partition) (s : State) : (modPart p f s).ports = s.ports := rfl
@[simp] theorem modPart_route (p : Nat) (f : Partition → Partition) (s : State) : (modPart p f s).route = s.route := rfl
@[simp] theorem modPart_memReqs (p : Nat) (f : Partition → Partition) (s : State) : (modPart p f s).memReqs = s.memReqs := rfl
@[simp] theorem modPart_memWaiting (p : Nat) (f : Partition → Partition) (s : State) : (modPart p f s).memWaiting = s.memWaiting := rfl
@[simp] theorem modPart_loopback (p : Nat) (f : Partition → Partition) (s : State) : (modPart p f s).loopback = s.loopback := rfl
@[simp] theorem modPart_trk (p : Nat) (f : Partition → Partition) (s : State) : (modPart p f s).trk = s.trk := rfl
@[simp] theorem modPart_aper (p : Nat) (f : Partition → Partition) (s : State) : (modPart p f s).aper = s.aper := rfl
@[simp] theorem modPart_cq (p : Nat) (f : Partition → Partition) (s : State) : (modPart p f s).cq = s.cq := rfl
@[simp] theorem modPart_xlt (p : Nat) (f : Partition → Partition) (s : State) : (modPart p f s).xlt = s.xlt := rfl
@[simp] theorem modPart_hbx (p : Nat) (f : Partition → Partition) (s : State) : (modPart p f s).hbx = s.hbx := rfl
@[simp] theorem modPart_btr (p : Nat) (f : Partition → Partition) (s : State) : (modPart p f s).btr = s.btr := rfl
@[simp] theorem modPart_vat (p : Nat) (f : Partition → Partition) (s : State) : (modPart p f s).vat = s.vat := rfl
@[simp] theorem modPart_err (p : Nat) (f : Partition → Partition) (s : State) : (modPart p f s).err = s.err := rfl
@[simp] theorem modPart_sec (p : Nat) (f : Partition → Partition) (s : State) : (modPart p f s).sec = s.sec := rfl

/-! ### `modVec` -/

@[simp] theorem modVec_pending (p v : Nat) (f : Vector → Vector) (s : State) : (modVec p v f s).pending = s.pending := rfl
@[simp] theorem modVec_nowUs (p v : Nat) (f : Vector → Vector) (s : State) : (modVec p v f s).nowUs = s.nowUs := rfl
@[simp] theorem modVec_freeCtr (p v : Nat) (f : Vector → Vector) (s : State) : (modVec p v f s).freeCtr = s.freeCtr := rfl
@[simp] theorem modVec_pins (p v : Nat) (f : Vector → Vector) (s : State) : (modVec p v f s).pins = s.pins := rfl
@[simp] theorem modVec_out (p v : Nat) (f : Vector → Vector) (s : State) : (modVec p v f s).out = s.out := rfl
@[simp] theorem modVec_access (p v : Nat) (f : Vector → Vector) (s : State) : (modVec p v f s).access = s.access := rfl
@[simp] theorem modVec_power (p v : Nat) (f : Vector → Vector) (s : State) : (modVec p v f s).power = s.power := rfl
@[simp] theorem modVec_fur (p v : Nat) (f : Vector → Vector) (s : State) : (modVec p v f s).fur = s.fur := rfl
@[simp] theorem modVec_ports (p v : Nat) (f : Vector → Vector) (s : State) : (modVec p v f s).ports = s.ports := rfl
@[simp] theorem modVec_route (p v : Nat) (f : Vector → Vector) (s : State) : (modVec p v f s).route = s.route := rfl
@[simp] theorem modVec_memReqs (p v : Nat) (f : Vector → Vector) (s : State) : (modVec p v f s).memReqs = s.memReqs := rfl
@[simp] theorem modVec_memWaiting (p v : Nat) (f : Vector → Vector) (s : State) : (modVec p v f s).memWaiting = s.memWaiting := rfl
@[simp] theorem modVec_loopback (p v : Nat) (f : Vector → Vector) (s : State) : (modVec p v f s).loopback = s.loopback := rfl
@[simp] theorem modVec_trk (p v : Nat) (f : Vector → Vector) (s : State) : (modVec p v f s).trk = s.trk := rfl
@[simp] theorem modVec_aper (p v : Nat) (f : Vector → Vector) (s : State) : (modVec p v f s).aper = s.aper := rfl
@[simp] theorem modVec_cq (p v : Nat) (f : Vector → Vector) (s : State) : (modVec p v f s).cq = s.cq := rfl
@[simp] theorem modVec_xlt (p v : Nat) (f : Vector → Vector) (s : State) : (modVec p v f s).xlt = s.xlt := rfl
@[simp] theorem modVec_hbx (p v : Nat) (f : Vector → Vector) (s : State) : (modVec p v f s).hbx = s.hbx := rfl
@[simp] theorem modVec_btr (p v : Nat) (f : Vector → Vector) (s : State) : (modVec p v f s).btr = s.btr := rfl
@[simp] theorem modVec_vat (p v : Nat) (f : Vector → Vector) (s : State) : (modVec p v f s).vat = s.vat := rfl
@[simp] theorem modVec_err (p v : Nat) (f : Vector → Vector) (s : State) : (modVec p v f s).err = s.err := rfl
@[simp] theorem modVec_sec (p v : Nat) (f : Vector → Vector) (s : State) : (modVec p v f s).sec = s.sec := rfl

/-! ### `modPlan` -/

@[simp] theorem modPlan_pending (k : Nat) (f : Plan → Plan) (s : State) : (modPlan k f s).pending = s.pending := rfl
@[simp] theorem modPlan_nowUs (k : Nat) (f : Plan → Plan) (s : State) : (modPlan k f s).nowUs = s.nowUs := rfl
@[simp] theorem modPlan_freeCtr (k : Nat) (f : Plan → Plan) (s : State) : (modPlan k f s).freeCtr = s.freeCtr := rfl
@[simp] theorem modPlan_pins (k : Nat) (f : Plan → Plan) (s : State) : (modPlan k f s).pins = s.pins := rfl
@[simp] theorem modPlan_out (k : Nat) (f : Plan → Plan) (s : State) : (modPlan k f s).out = s.out := rfl
@[simp] theorem modPlan_access (k : Nat) (f : Plan → Plan) (s : State) : (modPlan k f s).access = s.access := rfl
@[simp] theorem modPlan_power (k : Nat) (f : Plan → Plan) (s : State) : (modPlan k f s).power = s.power := rfl
@[simp] theorem modPlan_fur (k : Nat) (f : Plan → Plan) (s : State) : (modPlan k f s).fur = s.fur := rfl
@[simp] theorem modPlan_ports (k : Nat) (f : Plan → Plan) (s : State) : (modPlan k f s).ports = s.ports := rfl
@[simp] theorem modPlan_route (k : Nat) (f : Plan → Plan) (s : State) : (modPlan k f s).route = s.route := rfl
@[simp] theorem modPlan_memReqs (k : Nat) (f : Plan → Plan) (s : State) : (modPlan k f s).memReqs = s.memReqs := rfl
@[simp] theorem modPlan_memWaiting (k : Nat) (f : Plan → Plan) (s : State) : (modPlan k f s).memWaiting = s.memWaiting := rfl
@[simp] theorem modPlan_loopback (k : Nat) (f : Plan → Plan) (s : State) : (modPlan k f s).loopback = s.loopback := rfl
@[simp] theorem modPlan_trk (k : Nat) (f : Plan → Plan) (s : State) : (modPlan k f s).trk = s.trk := rfl
@[simp] theorem modPlan_aper (k : Nat) (f : Plan → Plan) (s : State) : (modPlan k f s).aper = s.aper := rfl
@[simp] theorem modPlan_cq (k : Nat) (f : Plan → Plan) (s : State) : (modPlan k f s).cq = s.cq := rfl
@[simp] theorem modPlan_xlt (k : Nat) (f : Plan → Plan) (s : State) : (modPlan k f s).xlt = s.xlt := rfl
@[simp] theorem modPlan_btr (k : Nat) (f : Plan → Plan) (s : State) : (modPlan k f s).btr = s.btr := rfl
@[simp] theorem modPlan_vat (k : Nat) (f : Plan → Plan) (s : State) : (modPlan k f s).vat = s.vat := rfl
@[simp] theorem modPlan_par (k : Nat) (f : Plan → Plan) (s : State) : (modPlan k f s).par = s.par := rfl
@[simp] theorem modPlan_err (k : Nat) (f : Plan → Plan) (s : State) : (modPlan k f s).err = s.err := rfl
@[simp] theorem modPlan_sec (k : Nat) (f : Plan → Plan) (s : State) : (modPlan k f s).sec = s.sec := rfl

/-! ### `modBeater` -/

@[simp] theorem modBeater_pending (b : Nat) (f : Beater → Beater) (s : State) : (modBeater b f s).pending = s.pending := rfl
@[simp] theorem modBeater_nowUs (b : Nat) (f : Beater → Beater) (s : State) : (modBeater b f s).nowUs = s.nowUs := rfl
@[simp] theorem modBeater_freeCtr (b : Nat) (f : Beater → Beater) (s : State) : (modBeater b f s).freeCtr = s.freeCtr := rfl
@[simp] theorem modBeater_pins (b : Nat) (f : Beater → Beater) (s : State) : (modBeater b f s).pins = s.pins := rfl
@[simp] theorem modBeater_out (b : Nat) (f : Beater → Beater) (s : State) : (modBeater b f s).out = s.out := rfl
@[simp] theorem modBeater_access (b : Nat) (f : Beater → Beater) (s : State) : (modBeater b f s).access = s.access := rfl
@[simp] theorem modBeater_power (b : Nat) (f : Beater → Beater) (s : State) : (modBeater b f s).power = s.power := rfl
@[simp] theorem modBeater_fur (b : Nat) (f : Beater → Beater) (s : State) : (modBeater b f s).fur = s.fur := rfl
@[simp] theorem modBeater_ports (b : Nat) (f : Beater → Beater) (s : State) : (modBeater b f s).ports = s.ports := rfl
@[simp] theorem modBeater_route (b : Nat) (f : Beater → Beater) (s : State) : (modBeater b f s).route = s.route := rfl
@[simp] theorem modBeater_memReqs (b : Nat) (f : Beater → Beater) (s : State) : (modBeater b f s).memReqs = s.memReqs := rfl
@[simp] theorem modBeater_memWaiting (b : Nat) (f : Beater → Beater) (s : State) : (modBeater b f s).memWaiting = s.memWaiting := rfl
@[simp] theorem modBeater_loopback (b : Nat) (f : Beater → Beater) (s : State) : (modBeater b f s).loopback = s.loopback := rfl
@[simp] theorem modBeater_trk (b : Nat) (f : Beater → Beater) (s : State) : (modBeater b f s).trk = s.trk := rfl
@[simp] theorem modBeater_aper (b : Nat) (f : Beater → Beater) (s : State) : (modBeater b f s).aper = s.aper := rfl
@[simp] theorem modBeater_cq (b : Nat) (f : Beater → Beater) (s : State) : (modBeater b f s).cq = s.cq := rfl
@[simp] theorem modBeater_xlt (b : Nat) (f : Beater → Beater) (s : State) : (modBeater b f s).xlt = s.xlt := rfl
@[simp] theorem modBeater_hbx (b : Nat) (f : Beater → Beater) (s : State) : (modBeater b f s).hbx = s.hbx := rfl
@[simp] theorem modBeater_vat (b : Nat) (f : Beater → Beater) (s : State) : (modBeater b f s).vat = s.vat := rfl
@[simp] theorem modBeater_par (b : Nat) (f : Beater → Beater) (s : State) : (modBeater b f s).par = s.par := rfl
@[simp] theorem modBeater_err (b : Nat) (f : Beater → Beater) (s : State) : (modBeater b f s).err = s.err := rfl
@[simp] theorem modBeater_sec (b : Nat) (f : Beater → Beater) (s : State) : (modBeater b f s).sec = s.sec := rfl

/-! ### `modWin` -/

@[simp] theorem modWin_pending (w : Nat) (f : Window → Window) (s : State) : (modWin w f s).pending = s.pending := rfl
@[simp] theorem modWin_nowUs (w : Nat) (f : Window → Window) (s : State) : (modWin w f s).nowUs = s.nowUs := rfl
@[simp] theorem modWin_freeCtr (w : Nat) (f : Window → Window) (s : State) : (modWin w f s).freeCtr = s.freeCtr := rfl
@[simp] theorem modWin_pins (w : Nat) (f : Window → Window) (s : State) : (modWin w f s).pins = s.pins := rfl
@[simp] theorem modWin_out (w : Nat) (f : Window → Window) (s : State) : (modWin w f s).out = s.out := rfl
@[simp] theorem modWin_access (w : Nat) (f : Window → Window) (s : State) : (modWin w f s).access = s.access := rfl
@[simp] theorem modWin_power (w : Nat) (f : Window → Window) (s : State) : (modWin w f s).power = s.power := rfl
@[simp] theorem modWin_fur (w : Nat) (f : Window → Window) (s : State) : (modWin w f s).fur = s.fur := rfl
@[simp] theorem modWin_ports (w : Nat) (f : Window → Window) (s : State) : (modWin w f s).ports = s.ports := rfl
@[simp] theorem modWin_route (w : Nat) (f : Window → Window) (s : State) : (modWin w f s).route = s.route := rfl
@[simp] theorem modWin_memReqs (w : Nat) (f : Window → Window) (s : State) : (modWin w f s).memReqs = s.memReqs := rfl
@[simp] theorem modWin_memWaiting (w : Nat) (f : Window → Window) (s : State) : (modWin w f s).memWaiting = s.memWaiting := rfl
@[simp] theorem modWin_loopback (w : Nat) (f : Window → Window) (s : State) : (modWin w f s).loopback = s.loopback := rfl
@[simp] theorem modWin_trk (w : Nat) (f : Window → Window) (s : State) : (modWin w f s).trk = s.trk := rfl
@[simp] theorem modWin_aper (w : Nat) (f : Window → Window) (s : State) : (modWin w f s).aper = s.aper := rfl
@[simp] theorem modWin_cq (w : Nat) (f : Window → Window) (s : State) : (modWin w f s).cq = s.cq := rfl
@[simp] theorem modWin_hbx (w : Nat) (f : Window → Window) (s : State) : (modWin w f s).hbx = s.hbx := rfl
@[simp] theorem modWin_btr (w : Nat) (f : Window → Window) (s : State) : (modWin w f s).btr = s.btr := rfl
@[simp] theorem modWin_vat (w : Nat) (f : Window → Window) (s : State) : (modWin w f s).vat = s.vat := rfl
@[simp] theorem modWin_par (w : Nat) (f : Window → Window) (s : State) : (modWin w f s).par = s.par := rfl
@[simp] theorem modWin_err (w : Nat) (f : Window → Window) (s : State) : (modWin w f s).err = s.err := rfl
@[simp] theorem modWin_sec (w : Nat) (f : Window → Window) (s : State) : (modWin w f s).sec = s.sec := rfl

/-! ### `modFq` -/

@[simp] theorem modFq_pending (p : Nat) (f : FaultQueue → FaultQueue) (s : State) : (modFq p f s).pending = s.pending := rfl
@[simp] theorem modFq_nowUs (p : Nat) (f : FaultQueue → FaultQueue) (s : State) : (modFq p f s).nowUs = s.nowUs := rfl
@[simp] theorem modFq_freeCtr (p : Nat) (f : FaultQueue → FaultQueue) (s : State) : (modFq p f s).freeCtr = s.freeCtr := rfl
@[simp] theorem modFq_pins (p : Nat) (f : FaultQueue → FaultQueue) (s : State) : (modFq p f s).pins = s.pins := rfl
@[simp] theorem modFq_out (p : Nat) (f : FaultQueue → FaultQueue) (s : State) : (modFq p f s).out = s.out := rfl
@[simp] theorem modFq_access (p : Nat) (f : FaultQueue → FaultQueue) (s : State) : (modFq p f s).access = s.access := rfl
@[simp] theorem modFq_power (p : Nat) (f : FaultQueue → FaultQueue) (s : State) : (modFq p f s).power = s.power := rfl
@[simp] theorem modFq_fur (p : Nat) (f : FaultQueue → FaultQueue) (s : State) : (modFq p f s).fur = s.fur := rfl
@[simp] theorem modFq_ports (p : Nat) (f : FaultQueue → FaultQueue) (s : State) : (modFq p f s).ports = s.ports := rfl
@[simp] theorem modFq_route (p : Nat) (f : FaultQueue → FaultQueue) (s : State) : (modFq p f s).route = s.route := rfl
@[simp] theorem modFq_memReqs (p : Nat) (f : FaultQueue → FaultQueue) (s : State) : (modFq p f s).memReqs = s.memReqs := rfl
@[simp] theorem modFq_memWaiting (p : Nat) (f : FaultQueue → FaultQueue) (s : State) : (modFq p f s).memWaiting = s.memWaiting := rfl
@[simp] theorem modFq_loopback (p : Nat) (f : FaultQueue → FaultQueue) (s : State) : (modFq p f s).loopback = s.loopback := rfl
@[simp] theorem modFq_trk (p : Nat) (f : FaultQueue → FaultQueue) (s : State) : (modFq p f s).trk = s.trk := rfl
@[simp] theorem modFq_aper (p : Nat) (f : FaultQueue → FaultQueue) (s : State) : (modFq p f s).aper = s.aper := rfl
@[simp] theorem modFq_cq (p : Nat) (f : FaultQueue → FaultQueue) (s : State) : (modFq p f s).cq = s.cq := rfl
@[simp] theorem modFq_hbx (p : Nat) (f : FaultQueue → FaultQueue) (s : State) : (modFq p f s).hbx = s.hbx := rfl
@[simp] theorem modFq_btr (p : Nat) (f : FaultQueue → FaultQueue) (s : State) : (modFq p f s).btr = s.btr := rfl
@[simp] theorem modFq_vat (p : Nat) (f : FaultQueue → FaultQueue) (s : State) : (modFq p f s).vat = s.vat := rfl
@[simp] theorem modFq_par (p : Nat) (f : FaultQueue → FaultQueue) (s : State) : (modFq p f s).par = s.par := rfl
@[simp] theorem modFq_err (p : Nat) (f : FaultQueue → FaultQueue) (s : State) : (modFq p f s).err = s.err := rfl
@[simp] theorem modFq_sec (p : Nat) (f : FaultQueue → FaultQueue) (s : State) : (modFq p f s).sec = s.sec := rfl

/-! ### `modRun` -/

@[simp] theorem modRun_pending (id : Nat) (f : Run → Run) (s : State) : (modRun id f s).pending = s.pending := rfl
@[simp] theorem modRun_nowUs (id : Nat) (f : Run → Run) (s : State) : (modRun id f s).nowUs = s.nowUs := rfl
@[simp] theorem modRun_freeCtr (id : Nat) (f : Run → Run) (s : State) : (modRun id f s).freeCtr = s.freeCtr := rfl
@[simp] theorem modRun_pins (id : Nat) (f : Run → Run) (s : State) : (modRun id f s).pins = s.pins := rfl
@[simp] theorem modRun_out (id : Nat) (f : Run → Run) (s : State) : (modRun id f s).out = s.out := rfl
@[simp] theorem modRun_access (id : Nat) (f : Run → Run) (s : State) : (modRun id f s).access = s.access := rfl
@[simp] theorem modRun_power (id : Nat) (f : Run → Run) (s : State) : (modRun id f s).power = s.power := rfl
@[simp] theorem modRun_fur (id : Nat) (f : Run → Run) (s : State) : (modRun id f s).fur = s.fur := rfl
@[simp] theorem modRun_ports (id : Nat) (f : Run → Run) (s : State) : (modRun id f s).ports = s.ports := rfl
@[simp] theorem modRun_route (id : Nat) (f : Run → Run) (s : State) : (modRun id f s).route = s.route := rfl
@[simp] theorem modRun_memReqs (id : Nat) (f : Run → Run) (s : State) : (modRun id f s).memReqs = s.memReqs := rfl
@[simp] theorem modRun_memWaiting (id : Nat) (f : Run → Run) (s : State) : (modRun id f s).memWaiting = s.memWaiting := rfl
@[simp] theorem modRun_loopback (id : Nat) (f : Run → Run) (s : State) : (modRun id f s).loopback = s.loopback := rfl
@[simp] theorem modRun_trk (id : Nat) (f : Run → Run) (s : State) : (modRun id f s).trk = s.trk := rfl
@[simp] theorem modRun_aper (id : Nat) (f : Run → Run) (s : State) : (modRun id f s).aper = s.aper := rfl
@[simp] theorem modRun_xlt (id : Nat) (f : Run → Run) (s : State) : (modRun id f s).xlt = s.xlt := rfl
@[simp] theorem modRun_hbx (id : Nat) (f : Run → Run) (s : State) : (modRun id f s).hbx = s.hbx := rfl
@[simp] theorem modRun_btr (id : Nat) (f : Run → Run) (s : State) : (modRun id f s).btr = s.btr := rfl
@[simp] theorem modRun_vat (id : Nat) (f : Run → Run) (s : State) : (modRun id f s).vat = s.vat := rfl
@[simp] theorem modRun_par (id : Nat) (f : Run → Run) (s : State) : (modRun id f s).par = s.par := rfl
@[simp] theorem modRun_err (id : Nat) (f : Run → Run) (s : State) : (modRun id f s).err = s.err := rfl
@[simp] theorem modRun_sec (id : Nat) (f : Run → Run) (s : State) : (modRun id f s).sec = s.sec := rfl

/-! ### `dropRun` -/

@[simp] theorem dropRun_pending (id : Nat) (s : State) : (dropRun id s).pending = s.pending := rfl
@[simp] theorem dropRun_nowUs (id : Nat) (s : State) : (dropRun id s).nowUs = s.nowUs := rfl
@[simp] theorem dropRun_freeCtr (id : Nat) (s : State) : (dropRun id s).freeCtr = s.freeCtr := rfl
@[simp] theorem dropRun_pins (id : Nat) (s : State) : (dropRun id s).pins = s.pins := rfl
@[simp] theorem dropRun_out (id : Nat) (s : State) : (dropRun id s).out = s.out := rfl
@[simp] theorem dropRun_access (id : Nat) (s : State) : (dropRun id s).access = s.access := rfl
@[simp] theorem dropRun_power (id : Nat) (s : State) : (dropRun id s).power = s.power := rfl
@[simp] theorem dropRun_fur (id : Nat) (s : State) : (dropRun id s).fur = s.fur := rfl
@[simp] theorem dropRun_ports (id : Nat) (s : State) : (dropRun id s).ports = s.ports := rfl
@[simp] theorem dropRun_route (id : Nat) (s : State) : (dropRun id s).route = s.route := rfl
@[simp] theorem dropRun_memReqs (id : Nat) (s : State) : (dropRun id s).memReqs = s.memReqs := rfl
@[simp] theorem dropRun_memWaiting (id : Nat) (s : State) : (dropRun id s).memWaiting = s.memWaiting := rfl
@[simp] theorem dropRun_loopback (id : Nat) (s : State) : (dropRun id s).loopback = s.loopback := rfl
@[simp] theorem dropRun_trk (id : Nat) (s : State) : (dropRun id s).trk = s.trk := rfl
@[simp] theorem dropRun_aper (id : Nat) (s : State) : (dropRun id s).aper = s.aper := rfl
@[simp] theorem dropRun_xlt (id : Nat) (s : State) : (dropRun id s).xlt = s.xlt := rfl
@[simp] theorem dropRun_hbx (id : Nat) (s : State) : (dropRun id s).hbx = s.hbx := rfl
@[simp] theorem dropRun_btr (id : Nat) (s : State) : (dropRun id s).btr = s.btr := rfl
@[simp] theorem dropRun_vat (id : Nat) (s : State) : (dropRun id s).vat = s.vat := rfl
@[simp] theorem dropRun_par (id : Nat) (s : State) : (dropRun id s).par = s.par := rfl
@[simp] theorem dropRun_err (id : Nat) (s : State) : (dropRun id s).err = s.err := rfl
@[simp] theorem dropRun_sec (id : Nat) (s : State) : (dropRun id s).sec = s.sec := rfl

/-! ### `countRoute` -/

@[simp] theorem countRoute_pending (f : Routing → Routing) (s : State) : (countRoute f s).pending = s.pending := rfl
@[simp] theorem countRoute_nowUs (f : Routing → Routing) (s : State) : (countRoute f s).nowUs = s.nowUs := rfl
@[simp] theorem countRoute_freeCtr (f : Routing → Routing) (s : State) : (countRoute f s).freeCtr = s.freeCtr := rfl
@[simp] theorem countRoute_pins (f : Routing → Routing) (s : State) : (countRoute f s).pins = s.pins := rfl
@[simp] theorem countRoute_out (f : Routing → Routing) (s : State) : (countRoute f s).out = s.out := rfl
@[simp] theorem countRoute_access (f : Routing → Routing) (s : State) : (countRoute f s).access = s.access := rfl
@[simp] theorem countRoute_power (f : Routing → Routing) (s : State) : (countRoute f s).power = s.power := rfl
@[simp] theorem countRoute_fur (f : Routing → Routing) (s : State) : (countRoute f s).fur = s.fur := rfl
@[simp] theorem countRoute_ports (f : Routing → Routing) (s : State) : (countRoute f s).ports = s.ports := rfl
@[simp] theorem countRoute_memReqs (f : Routing → Routing) (s : State) : (countRoute f s).memReqs = s.memReqs := rfl
@[simp] theorem countRoute_memWaiting (f : Routing → Routing) (s : State) : (countRoute f s).memWaiting = s.memWaiting := rfl
@[simp] theorem countRoute_loopback (f : Routing → Routing) (s : State) : (countRoute f s).loopback = s.loopback := rfl
@[simp] theorem countRoute_trk (f : Routing → Routing) (s : State) : (countRoute f s).trk = s.trk := rfl
@[simp] theorem countRoute_aper (f : Routing → Routing) (s : State) : (countRoute f s).aper = s.aper := rfl
@[simp] theorem countRoute_cq (f : Routing → Routing) (s : State) : (countRoute f s).cq = s.cq := rfl
@[simp] theorem countRoute_xlt (f : Routing → Routing) (s : State) : (countRoute f s).xlt = s.xlt := rfl
@[simp] theorem countRoute_hbx (f : Routing → Routing) (s : State) : (countRoute f s).hbx = s.hbx := rfl
@[simp] theorem countRoute_btr (f : Routing → Routing) (s : State) : (countRoute f s).btr = s.btr := rfl
@[simp] theorem countRoute_vat (f : Routing → Routing) (s : State) : (countRoute f s).vat = s.vat := rfl
@[simp] theorem countRoute_par (f : Routing → Routing) (s : State) : (countRoute f s).par = s.par := rfl
@[simp] theorem countRoute_err (f : Routing → Routing) (s : State) : (countRoute f s).err = s.err := rfl
@[simp] theorem countRoute_sec (f : Routing → Routing) (s : State) : (countRoute f s).sec = s.sec := rfl

/-! ### `countTrk` -/

@[simp] theorem countTrk_pending (f : Trk → Trk) (s : State) : (countTrk f s).pending = s.pending := rfl
@[simp] theorem countTrk_nowUs (f : Trk → Trk) (s : State) : (countTrk f s).nowUs = s.nowUs := rfl
@[simp] theorem countTrk_freeCtr (f : Trk → Trk) (s : State) : (countTrk f s).freeCtr = s.freeCtr := rfl
@[simp] theorem countTrk_pins (f : Trk → Trk) (s : State) : (countTrk f s).pins = s.pins := rfl
@[simp] theorem countTrk_out (f : Trk → Trk) (s : State) : (countTrk f s).out = s.out := rfl
@[simp] theorem countTrk_access (f : Trk → Trk) (s : State) : (countTrk f s).access = s.access := rfl
@[simp] theorem countTrk_power (f : Trk → Trk) (s : State) : (countTrk f s).power = s.power := rfl
@[simp] theorem countTrk_fur (f : Trk → Trk) (s : State) : (countTrk f s).fur = s.fur := rfl
@[simp] theorem countTrk_ports (f : Trk → Trk) (s : State) : (countTrk f s).ports = s.ports := rfl
@[simp] theorem countTrk_route (f : Trk → Trk) (s : State) : (countTrk f s).route = s.route := rfl
@[simp] theorem countTrk_memReqs (f : Trk → Trk) (s : State) : (countTrk f s).memReqs = s.memReqs := rfl
@[simp] theorem countTrk_memWaiting (f : Trk → Trk) (s : State) : (countTrk f s).memWaiting = s.memWaiting := rfl
@[simp] theorem countTrk_loopback (f : Trk → Trk) (s : State) : (countTrk f s).loopback = s.loopback := rfl
@[simp] theorem countTrk_aper (f : Trk → Trk) (s : State) : (countTrk f s).aper = s.aper := rfl
@[simp] theorem countTrk_cq (f : Trk → Trk) (s : State) : (countTrk f s).cq = s.cq := rfl
@[simp] theorem countTrk_xlt (f : Trk → Trk) (s : State) : (countTrk f s).xlt = s.xlt := rfl
@[simp] theorem countTrk_hbx (f : Trk → Trk) (s : State) : (countTrk f s).hbx = s.hbx := rfl
@[simp] theorem countTrk_btr (f : Trk → Trk) (s : State) : (countTrk f s).btr = s.btr := rfl
@[simp] theorem countTrk_vat (f : Trk → Trk) (s : State) : (countTrk f s).vat = s.vat := rfl
@[simp] theorem countTrk_par (f : Trk → Trk) (s : State) : (countTrk f s).par = s.par := rfl
@[simp] theorem countTrk_err (f : Trk → Trk) (s : State) : (countTrk f s).err = s.err := rfl
@[simp] theorem countTrk_sec (f : Trk → Trk) (s : State) : (countTrk f s).sec = s.sec := rfl

/-! ### `countXlt` -/

@[simp] theorem countXlt_pending (f : Xlt → Xlt) (s : State) : (countXlt f s).pending = s.pending := rfl
@[simp] theorem countXlt_nowUs (f : Xlt → Xlt) (s : State) : (countXlt f s).nowUs = s.nowUs := rfl
@[simp] theorem countXlt_freeCtr (f : Xlt → Xlt) (s : State) : (countXlt f s).freeCtr = s.freeCtr := rfl
@[simp] theorem countXlt_pins (f : Xlt → Xlt) (s : State) : (countXlt f s).pins = s.pins := rfl
@[simp] theorem countXlt_out (f : Xlt → Xlt) (s : State) : (countXlt f s).out = s.out := rfl
@[simp] theorem countXlt_access (f : Xlt → Xlt) (s : State) : (countXlt f s).access = s.access := rfl
@[simp] theorem countXlt_power (f : Xlt → Xlt) (s : State) : (countXlt f s).power = s.power := rfl
@[simp] theorem countXlt_fur (f : Xlt → Xlt) (s : State) : (countXlt f s).fur = s.fur := rfl
@[simp] theorem countXlt_ports (f : Xlt → Xlt) (s : State) : (countXlt f s).ports = s.ports := rfl
@[simp] theorem countXlt_route (f : Xlt → Xlt) (s : State) : (countXlt f s).route = s.route := rfl
@[simp] theorem countXlt_memReqs (f : Xlt → Xlt) (s : State) : (countXlt f s).memReqs = s.memReqs := rfl
@[simp] theorem countXlt_memWaiting (f : Xlt → Xlt) (s : State) : (countXlt f s).memWaiting = s.memWaiting := rfl
@[simp] theorem countXlt_loopback (f : Xlt → Xlt) (s : State) : (countXlt f s).loopback = s.loopback := rfl
@[simp] theorem countXlt_trk (f : Xlt → Xlt) (s : State) : (countXlt f s).trk = s.trk := rfl
@[simp] theorem countXlt_aper (f : Xlt → Xlt) (s : State) : (countXlt f s).aper = s.aper := rfl
@[simp] theorem countXlt_cq (f : Xlt → Xlt) (s : State) : (countXlt f s).cq = s.cq := rfl
@[simp] theorem countXlt_hbx (f : Xlt → Xlt) (s : State) : (countXlt f s).hbx = s.hbx := rfl
@[simp] theorem countXlt_btr (f : Xlt → Xlt) (s : State) : (countXlt f s).btr = s.btr := rfl
@[simp] theorem countXlt_vat (f : Xlt → Xlt) (s : State) : (countXlt f s).vat = s.vat := rfl
@[simp] theorem countXlt_par (f : Xlt → Xlt) (s : State) : (countXlt f s).par = s.par := rfl
@[simp] theorem countXlt_err (f : Xlt → Xlt) (s : State) : (countXlt f s).err = s.err := rfl
@[simp] theorem countXlt_sec (f : Xlt → Xlt) (s : State) : (countXlt f s).sec = s.sec := rfl

/-! ### `countHbx` -/

@[simp] theorem countHbx_pending (f : Hbx → Hbx) (s : State) : (countHbx f s).pending = s.pending := rfl
@[simp] theorem countHbx_nowUs (f : Hbx → Hbx) (s : State) : (countHbx f s).nowUs = s.nowUs := rfl
@[simp] theorem countHbx_freeCtr (f : Hbx → Hbx) (s : State) : (countHbx f s).freeCtr = s.freeCtr := rfl
@[simp] theorem countHbx_pins (f : Hbx → Hbx) (s : State) : (countHbx f s).pins = s.pins := rfl
@[simp] theorem countHbx_out (f : Hbx → Hbx) (s : State) : (countHbx f s).out = s.out := rfl
@[simp] theorem countHbx_access (f : Hbx → Hbx) (s : State) : (countHbx f s).access = s.access := rfl
@[simp] theorem countHbx_power (f : Hbx → Hbx) (s : State) : (countHbx f s).power = s.power := rfl
@[simp] theorem countHbx_fur (f : Hbx → Hbx) (s : State) : (countHbx f s).fur = s.fur := rfl
@[simp] theorem countHbx_ports (f : Hbx → Hbx) (s : State) : (countHbx f s).ports = s.ports := rfl
@[simp] theorem countHbx_route (f : Hbx → Hbx) (s : State) : (countHbx f s).route = s.route := rfl
@[simp] theorem countHbx_memReqs (f : Hbx → Hbx) (s : State) : (countHbx f s).memReqs = s.memReqs := rfl
@[simp] theorem countHbx_memWaiting (f : Hbx → Hbx) (s : State) : (countHbx f s).memWaiting = s.memWaiting := rfl
@[simp] theorem countHbx_loopback (f : Hbx → Hbx) (s : State) : (countHbx f s).loopback = s.loopback := rfl
@[simp] theorem countHbx_trk (f : Hbx → Hbx) (s : State) : (countHbx f s).trk = s.trk := rfl
@[simp] theorem countHbx_aper (f : Hbx → Hbx) (s : State) : (countHbx f s).aper = s.aper := rfl
@[simp] theorem countHbx_cq (f : Hbx → Hbx) (s : State) : (countHbx f s).cq = s.cq := rfl
@[simp] theorem countHbx_xlt (f : Hbx → Hbx) (s : State) : (countHbx f s).xlt = s.xlt := rfl
@[simp] theorem countHbx_btr (f : Hbx → Hbx) (s : State) : (countHbx f s).btr = s.btr := rfl
@[simp] theorem countHbx_vat (f : Hbx → Hbx) (s : State) : (countHbx f s).vat = s.vat := rfl
@[simp] theorem countHbx_par (f : Hbx → Hbx) (s : State) : (countHbx f s).par = s.par := rfl
@[simp] theorem countHbx_err (f : Hbx → Hbx) (s : State) : (countHbx f s).err = s.err := rfl
@[simp] theorem countHbx_sec (f : Hbx → Hbx) (s : State) : (countHbx f s).sec = s.sec := rfl

/-! ### `modFur` -/

@[simp] theorem modFur_pending (f : Furnish → Furnish) (s : State) : (modFur f s).pending = s.pending := rfl
@[simp] theorem modFur_nowUs (f : Furnish → Furnish) (s : State) : (modFur f s).nowUs = s.nowUs := rfl
@[simp] theorem modFur_freeCtr (f : Furnish → Furnish) (s : State) : (modFur f s).freeCtr = s.freeCtr := rfl
@[simp] theorem modFur_pins (f : Furnish → Furnish) (s : State) : (modFur f s).pins = s.pins := rfl
@[simp] theorem modFur_out (f : Furnish → Furnish) (s : State) : (modFur f s).out = s.out := rfl
@[simp] theorem modFur_access (f : Furnish → Furnish) (s : State) : (modFur f s).access = s.access := rfl
@[simp] theorem modFur_power (f : Furnish → Furnish) (s : State) : (modFur f s).power = s.power := rfl
@[simp] theorem modFur_ports (f : Furnish → Furnish) (s : State) : (modFur f s).ports = s.ports := rfl
@[simp] theorem modFur_route (f : Furnish → Furnish) (s : State) : (modFur f s).route = s.route := rfl
@[simp] theorem modFur_memReqs (f : Furnish → Furnish) (s : State) : (modFur f s).memReqs = s.memReqs := rfl
@[simp] theorem modFur_memWaiting (f : Furnish → Furnish) (s : State) : (modFur f s).memWaiting = s.memWaiting := rfl
@[simp] theorem modFur_loopback (f : Furnish → Furnish) (s : State) : (modFur f s).loopback = s.loopback := rfl
@[simp] theorem modFur_trk (f : Furnish → Furnish) (s : State) : (modFur f s).trk = s.trk := rfl
@[simp] theorem modFur_aper (f : Furnish → Furnish) (s : State) : (modFur f s).aper = s.aper := rfl
@[simp] theorem modFur_cq (f : Furnish → Furnish) (s : State) : (modFur f s).cq = s.cq := rfl
@[simp] theorem modFur_xlt (f : Furnish → Furnish) (s : State) : (modFur f s).xlt = s.xlt := rfl
@[simp] theorem modFur_hbx (f : Furnish → Furnish) (s : State) : (modFur f s).hbx = s.hbx := rfl
@[simp] theorem modFur_btr (f : Furnish → Furnish) (s : State) : (modFur f s).btr = s.btr := rfl
@[simp] theorem modFur_vat (f : Furnish → Furnish) (s : State) : (modFur f s).vat = s.vat := rfl
@[simp] theorem modFur_par (f : Furnish → Furnish) (s : State) : (modFur f s).par = s.par := rfl
@[simp] theorem modFur_err (f : Furnish → Furnish) (s : State) : (modFur f s).err = s.err := rfl
@[simp] theorem modFur_sec (f : Furnish → Furnish) (s : State) : (modFur f s).sec = s.sec := rfl

/-! ### `setRsp` -/

@[simp] theorem setRsp_pending (r : SbRsp) (s : State) : (setRsp r s).pending = s.pending := rfl
@[simp] theorem setRsp_nowUs (r : SbRsp) (s : State) : (setRsp r s).nowUs = s.nowUs := rfl
@[simp] theorem setRsp_freeCtr (r : SbRsp) (s : State) : (setRsp r s).freeCtr = s.freeCtr := rfl
@[simp] theorem setRsp_pins (r : SbRsp) (s : State) : (setRsp r s).pins = s.pins := rfl
@[simp] theorem setRsp_access (r : SbRsp) (s : State) : (setRsp r s).access = s.access := rfl
@[simp] theorem setRsp_power (r : SbRsp) (s : State) : (setRsp r s).power = s.power := rfl
@[simp] theorem setRsp_fur (r : SbRsp) (s : State) : (setRsp r s).fur = s.fur := rfl
@[simp] theorem setRsp_ports (r : SbRsp) (s : State) : (setRsp r s).ports = s.ports := rfl
@[simp] theorem setRsp_route (r : SbRsp) (s : State) : (setRsp r s).route = s.route := rfl
@[simp] theorem setRsp_memReqs (r : SbRsp) (s : State) : (setRsp r s).memReqs = s.memReqs := rfl
@[simp] theorem setRsp_memWaiting (r : SbRsp) (s : State) : (setRsp r s).memWaiting = s.memWaiting := rfl
@[simp] theorem setRsp_loopback (r : SbRsp) (s : State) : (setRsp r s).loopback = s.loopback := rfl
@[simp] theorem setRsp_trk (r : SbRsp) (s : State) : (setRsp r s).trk = s.trk := rfl
@[simp] theorem setRsp_aper (r : SbRsp) (s : State) : (setRsp r s).aper = s.aper := rfl
@[simp] theorem setRsp_cq (r : SbRsp) (s : State) : (setRsp r s).cq = s.cq := rfl
@[simp] theorem setRsp_xlt (r : SbRsp) (s : State) : (setRsp r s).xlt = s.xlt := rfl
@[simp] theorem setRsp_hbx (r : SbRsp) (s : State) : (setRsp r s).hbx = s.hbx := rfl
@[simp] theorem setRsp_btr (r : SbRsp) (s : State) : (setRsp r s).btr = s.btr := rfl
@[simp] theorem setRsp_vat (r : SbRsp) (s : State) : (setRsp r s).vat = s.vat := rfl
@[simp] theorem setRsp_par (r : SbRsp) (s : State) : (setRsp r s).par = s.par := rfl
@[simp] theorem setRsp_err (r : SbRsp) (s : State) : (setRsp r s).err = s.err := rfl
@[simp] theorem setRsp_sec (r : SbRsp) (s : State) : (setRsp r s).sec = s.sec := rfl

/-! ### `takeFree` -/

@[simp] theorem takeFree_pending (s : State) : (takeFree s).2.pending = s.pending := rfl
@[simp] theorem takeFree_nowUs (s : State) : (takeFree s).2.nowUs = s.nowUs := rfl
@[simp] theorem takeFree_pins (s : State) : (takeFree s).2.pins = s.pins := rfl
@[simp] theorem takeFree_out (s : State) : (takeFree s).2.out = s.out := rfl
@[simp] theorem takeFree_access (s : State) : (takeFree s).2.access = s.access := rfl
@[simp] theorem takeFree_power (s : State) : (takeFree s).2.power = s.power := rfl
@[simp] theorem takeFree_fur (s : State) : (takeFree s).2.fur = s.fur := rfl
@[simp] theorem takeFree_ports (s : State) : (takeFree s).2.ports = s.ports := rfl
@[simp] theorem takeFree_route (s : State) : (takeFree s).2.route = s.route := rfl
@[simp] theorem takeFree_memReqs (s : State) : (takeFree s).2.memReqs = s.memReqs := rfl
@[simp] theorem takeFree_memWaiting (s : State) : (takeFree s).2.memWaiting = s.memWaiting := rfl
@[simp] theorem takeFree_loopback (s : State) : (takeFree s).2.loopback = s.loopback := rfl
@[simp] theorem takeFree_trk (s : State) : (takeFree s).2.trk = s.trk := rfl
@[simp] theorem takeFree_aper (s : State) : (takeFree s).2.aper = s.aper := rfl
@[simp] theorem takeFree_cq (s : State) : (takeFree s).2.cq = s.cq := rfl
@[simp] theorem takeFree_xlt (s : State) : (takeFree s).2.xlt = s.xlt := rfl
@[simp] theorem takeFree_hbx (s : State) : (takeFree s).2.hbx = s.hbx := rfl
@[simp] theorem takeFree_btr (s : State) : (takeFree s).2.btr = s.btr := rfl
@[simp] theorem takeFree_vat (s : State) : (takeFree s).2.vat = s.vat := rfl
@[simp] theorem takeFree_par (s : State) : (takeFree s).2.par = s.par := rfl
@[simp] theorem takeFree_err (s : State) : (takeFree s).2.err = s.err := rfl
@[simp] theorem takeFree_sec (s : State) : (takeFree s).2.sec = s.sec := rfl
@[simp] theorem takeFree_freeCtr (s : State) : (takeFree s).2.freeCtr = s.freeCtr + 1 := rfl
@[simp] theorem takeFree_fst (s : State) : (takeFree s).1 = s.freeCtr := rfl

/-! ### `modInv` -/

@[simp] theorem modInv_pending (r : Nat) (f : InvSlot → InvSlot) (s : State) : (modInv r f s).pending = s.pending := rfl
@[simp] theorem modInv_nowUs (r : Nat) (f : InvSlot → InvSlot) (s : State) : (modInv r f s).nowUs = s.nowUs := rfl
@[simp] theorem modInv_freeCtr (r : Nat) (f : InvSlot → InvSlot) (s : State) : (modInv r f s).freeCtr = s.freeCtr := rfl
@[simp] theorem modInv_pins (r : Nat) (f : InvSlot → InvSlot) (s : State) : (modInv r f s).pins = s.pins := rfl
@[simp] theorem modInv_out (r : Nat) (f : InvSlot → InvSlot) (s : State) : (modInv r f s).out = s.out := rfl
@[simp] theorem modInv_access (r : Nat) (f : InvSlot → InvSlot) (s : State) : (modInv r f s).access = s.access := rfl
@[simp] theorem modInv_power (r : Nat) (f : InvSlot → InvSlot) (s : State) : (modInv r f s).power = s.power := rfl
@[simp] theorem modInv_fur (r : Nat) (f : InvSlot → InvSlot) (s : State) : (modInv r f s).fur = s.fur := rfl
@[simp] theorem modInv_ports (r : Nat) (f : InvSlot → InvSlot) (s : State) : (modInv r f s).ports = s.ports := rfl
@[simp] theorem modInv_route (r : Nat) (f : InvSlot → InvSlot) (s : State) : (modInv r f s).route = s.route := rfl
@[simp] theorem modInv_memReqs (r : Nat) (f : InvSlot → InvSlot) (s : State) : (modInv r f s).memReqs = s.memReqs := rfl
@[simp] theorem modInv_memWaiting (r : Nat) (f : InvSlot → InvSlot) (s : State) : (modInv r f s).memWaiting = s.memWaiting := rfl
@[simp] theorem modInv_loopback (r : Nat) (f : InvSlot → InvSlot) (s : State) : (modInv r f s).loopback = s.loopback := rfl
@[simp] theorem modInv_trk (r : Nat) (f : InvSlot → InvSlot) (s : State) : (modInv r f s).trk = s.trk := rfl
@[simp] theorem modInv_aper (r : Nat) (f : InvSlot → InvSlot) (s : State) : (modInv r f s).aper = s.aper := rfl
@[simp] theorem modInv_cq (r : Nat) (f : InvSlot → InvSlot) (s : State) : (modInv r f s).cq = s.cq := rfl
@[simp] theorem modInv_hbx (r : Nat) (f : InvSlot → InvSlot) (s : State) : (modInv r f s).hbx = s.hbx := rfl
@[simp] theorem modInv_btr (r : Nat) (f : InvSlot → InvSlot) (s : State) : (modInv r f s).btr = s.btr := rfl
@[simp] theorem modInv_vat (r : Nat) (f : InvSlot → InvSlot) (s : State) : (modInv r f s).vat = s.vat := rfl
@[simp] theorem modInv_par (r : Nat) (f : InvSlot → InvSlot) (s : State) : (modInv r f s).par = s.par := rfl
@[simp] theorem modInv_err (r : Nat) (f : InvSlot → InvSlot) (s : State) : (modInv r f s).err = s.err := rfl
@[simp] theorem modInv_sec (r : Nat) (f : InvSlot → InvSlot) (s : State) : (modInv r f s).sec = s.sec := rfl

/-! ### `modAper` -/

@[simp] theorem modAper_pending (id : Nat) (f : Aperture → Aperture) (s : State) : (modAper id f s).pending = s.pending := rfl
@[simp] theorem modAper_nowUs (id : Nat) (f : Aperture → Aperture) (s : State) : (modAper id f s).nowUs = s.nowUs := rfl
@[simp] theorem modAper_freeCtr (id : Nat) (f : Aperture → Aperture) (s : State) : (modAper id f s).freeCtr = s.freeCtr := rfl
@[simp] theorem modAper_pins (id : Nat) (f : Aperture → Aperture) (s : State) : (modAper id f s).pins = s.pins := rfl
@[simp] theorem modAper_out (id : Nat) (f : Aperture → Aperture) (s : State) : (modAper id f s).out = s.out := rfl
@[simp] theorem modAper_access (id : Nat) (f : Aperture → Aperture) (s : State) : (modAper id f s).access = s.access := rfl
@[simp] theorem modAper_power (id : Nat) (f : Aperture → Aperture) (s : State) : (modAper id f s).power = s.power := rfl
@[simp] theorem modAper_fur (id : Nat) (f : Aperture → Aperture) (s : State) : (modAper id f s).fur = s.fur := rfl
@[simp] theorem modAper_ports (id : Nat) (f : Aperture → Aperture) (s : State) : (modAper id f s).ports = s.ports := rfl
@[simp] theorem modAper_route (id : Nat) (f : Aperture → Aperture) (s : State) : (modAper id f s).route = s.route := rfl
@[simp] theorem modAper_memReqs (id : Nat) (f : Aperture → Aperture) (s : State) : (modAper id f s).memReqs = s.memReqs := rfl
@[simp] theorem modAper_memWaiting (id : Nat) (f : Aperture → Aperture) (s : State) : (modAper id f s).memWaiting = s.memWaiting := rfl
@[simp] theorem modAper_loopback (id : Nat) (f : Aperture → Aperture) (s : State) : (modAper id f s).loopback = s.loopback := rfl
@[simp] theorem modAper_trk (id : Nat) (f : Aperture → Aperture) (s : State) : (modAper id f s).trk = s.trk := rfl
@[simp] theorem modAper_cq (id : Nat) (f : Aperture → Aperture) (s : State) : (modAper id f s).cq = s.cq := rfl
@[simp] theorem modAper_xlt (id : Nat) (f : Aperture → Aperture) (s : State) : (modAper id f s).xlt = s.xlt := rfl
@[simp] theorem modAper_hbx (id : Nat) (f : Aperture → Aperture) (s : State) : (modAper id f s).hbx = s.hbx := rfl
@[simp] theorem modAper_btr (id : Nat) (f : Aperture → Aperture) (s : State) : (modAper id f s).btr = s.btr := rfl
@[simp] theorem modAper_vat (id : Nat) (f : Aperture → Aperture) (s : State) : (modAper id f s).vat = s.vat := rfl
@[simp] theorem modAper_par (id : Nat) (f : Aperture → Aperture) (s : State) : (modAper id f s).par = s.par := rfl
@[simp] theorem modAper_err (id : Nat) (f : Aperture → Aperture) (s : State) : (modAper id f s).err = s.err := rfl
@[simp] theorem modAper_sec (id : Nat) (f : Aperture → Aperture) (s : State) : (modAper id f s).sec = s.sec := rfl

/-! ### `dropReq` -/

@[simp] theorem dropReq_pending (r : MemReq) (s : State) : (dropReq r s).pending = s.pending := rfl
@[simp] theorem dropReq_nowUs (r : MemReq) (s : State) : (dropReq r s).nowUs = s.nowUs := rfl
@[simp] theorem dropReq_freeCtr (r : MemReq) (s : State) : (dropReq r s).freeCtr = s.freeCtr := rfl
@[simp] theorem dropReq_pins (r : MemReq) (s : State) : (dropReq r s).pins = s.pins := rfl
@[simp] theorem dropReq_out (r : MemReq) (s : State) : (dropReq r s).out = s.out := rfl
@[simp] theorem dropReq_access (r : MemReq) (s : State) : (dropReq r s).access = s.access := rfl
@[simp] theorem dropReq_power (r : MemReq) (s : State) : (dropReq r s).power = s.power := rfl
@[simp] theorem dropReq_fur (r : MemReq) (s : State) : (dropReq r s).fur = s.fur := rfl
@[simp] theorem dropReq_ports (r : MemReq) (s : State) : (dropReq r s).ports = s.ports := rfl
@[simp] theorem dropReq_route (r : MemReq) (s : State) : (dropReq r s).route = s.route := rfl
@[simp] theorem dropReq_memWaiting (r : MemReq) (s : State) : (dropReq r s).memWaiting = s.memWaiting := rfl
@[simp] theorem dropReq_loopback (r : MemReq) (s : State) : (dropReq r s).loopback = s.loopback := rfl
@[simp] theorem dropReq_trk (r : MemReq) (s : State) : (dropReq r s).trk = s.trk := rfl
@[simp] theorem dropReq_aper (r : MemReq) (s : State) : (dropReq r s).aper = s.aper := rfl
@[simp] theorem dropReq_cq (r : MemReq) (s : State) : (dropReq r s).cq = s.cq := rfl
@[simp] theorem dropReq_xlt (r : MemReq) (s : State) : (dropReq r s).xlt = s.xlt := rfl
@[simp] theorem dropReq_hbx (r : MemReq) (s : State) : (dropReq r s).hbx = s.hbx := rfl
@[simp] theorem dropReq_btr (r : MemReq) (s : State) : (dropReq r s).btr = s.btr := rfl
@[simp] theorem dropReq_vat (r : MemReq) (s : State) : (dropReq r s).vat = s.vat := rfl
@[simp] theorem dropReq_par (r : MemReq) (s : State) : (dropReq r s).par = s.par := rfl
@[simp] theorem dropReq_err (r : MemReq) (s : State) : (dropReq r s).err = s.err := rfl
@[simp] theorem dropReq_sec (r : MemReq) (s : State) : (dropReq r s).sec = s.sec := rfl

/-! ### `writeRank` -/

@[simp] theorem writeRank_pending (r : Nat) (e : BitVec 32) (s : State) : (writeRank r e s).pending = s.pending := rfl
@[simp] theorem writeRank_nowUs (r : Nat) (e : BitVec 32) (s : State) : (writeRank r e s).nowUs = s.nowUs := rfl
@[simp] theorem writeRank_freeCtr (r : Nat) (e : BitVec 32) (s : State) : (writeRank r e s).freeCtr = s.freeCtr := rfl
@[simp] theorem writeRank_pins (r : Nat) (e : BitVec 32) (s : State) : (writeRank r e s).pins = s.pins := rfl
@[simp] theorem writeRank_out (r : Nat) (e : BitVec 32) (s : State) : (writeRank r e s).out = s.out := rfl
@[simp] theorem writeRank_access (r : Nat) (e : BitVec 32) (s : State) : (writeRank r e s).access = s.access := rfl
@[simp] theorem writeRank_power (r : Nat) (e : BitVec 32) (s : State) : (writeRank r e s).power = s.power := rfl
@[simp] theorem writeRank_fur (r : Nat) (e : BitVec 32) (s : State) : (writeRank r e s).fur = s.fur := rfl
@[simp] theorem writeRank_ports (r : Nat) (e : BitVec 32) (s : State) : (writeRank r e s).ports = s.ports := rfl
@[simp] theorem writeRank_memReqs (r : Nat) (e : BitVec 32) (s : State) : (writeRank r e s).memReqs = s.memReqs := rfl
@[simp] theorem writeRank_memWaiting (r : Nat) (e : BitVec 32) (s : State) : (writeRank r e s).memWaiting = s.memWaiting := rfl
@[simp] theorem writeRank_loopback (r : Nat) (e : BitVec 32) (s : State) : (writeRank r e s).loopback = s.loopback := rfl
@[simp] theorem writeRank_trk (r : Nat) (e : BitVec 32) (s : State) : (writeRank r e s).trk = s.trk := rfl
@[simp] theorem writeRank_aper (r : Nat) (e : BitVec 32) (s : State) : (writeRank r e s).aper = s.aper := rfl
@[simp] theorem writeRank_cq (r : Nat) (e : BitVec 32) (s : State) : (writeRank r e s).cq = s.cq := rfl
@[simp] theorem writeRank_xlt (r : Nat) (e : BitVec 32) (s : State) : (writeRank r e s).xlt = s.xlt := rfl
@[simp] theorem writeRank_hbx (r : Nat) (e : BitVec 32) (s : State) : (writeRank r e s).hbx = s.hbx := rfl
@[simp] theorem writeRank_btr (r : Nat) (e : BitVec 32) (s : State) : (writeRank r e s).btr = s.btr := rfl
@[simp] theorem writeRank_vat (r : Nat) (e : BitVec 32) (s : State) : (writeRank r e s).vat = s.vat := rfl
@[simp] theorem writeRank_par (r : Nat) (e : BitVec 32) (s : State) : (writeRank r e s).par = s.par := rfl
@[simp] theorem writeRank_sec (r : Nat) (e : BitVec 32) (s : State) : (writeRank r e s).sec = s.sec := rfl

/-! ### `countIgnored` -/

@[simp] theorem countIgnored_pending (s : State) : (countIgnored s).pending = s.pending := rfl
@[simp] theorem countIgnored_nowUs (s : State) : (countIgnored s).nowUs = s.nowUs := rfl
@[simp] theorem countIgnored_freeCtr (s : State) : (countIgnored s).freeCtr = s.freeCtr := rfl
@[simp] theorem countIgnored_pins (s : State) : (countIgnored s).pins = s.pins := rfl
@[simp] theorem countIgnored_out (s : State) : (countIgnored s).out = s.out := rfl
@[simp] theorem countIgnored_access (s : State) : (countIgnored s).access = s.access := rfl
@[simp] theorem countIgnored_power (s : State) : (countIgnored s).power = s.power := rfl
@[simp] theorem countIgnored_fur (s : State) : (countIgnored s).fur = s.fur := rfl
@[simp] theorem countIgnored_ports (s : State) : (countIgnored s).ports = s.ports := rfl
@[simp] theorem countIgnored_route (s : State) : (countIgnored s).route = s.route := rfl
@[simp] theorem countIgnored_memReqs (s : State) : (countIgnored s).memReqs = s.memReqs := rfl
@[simp] theorem countIgnored_memWaiting (s : State) : (countIgnored s).memWaiting = s.memWaiting := rfl
@[simp] theorem countIgnored_loopback (s : State) : (countIgnored s).loopback = s.loopback := rfl
@[simp] theorem countIgnored_trk (s : State) : (countIgnored s).trk = s.trk := rfl
@[simp] theorem countIgnored_aper (s : State) : (countIgnored s).aper = s.aper := rfl
@[simp] theorem countIgnored_xlt (s : State) : (countIgnored s).xlt = s.xlt := rfl
@[simp] theorem countIgnored_hbx (s : State) : (countIgnored s).hbx = s.hbx := rfl
@[simp] theorem countIgnored_btr (s : State) : (countIgnored s).btr = s.btr := rfl
@[simp] theorem countIgnored_vat (s : State) : (countIgnored s).vat = s.vat := rfl
@[simp] theorem countIgnored_par (s : State) : (countIgnored s).par = s.par := rfl
@[simp] theorem countIgnored_err (s : State) : (countIgnored s).err = s.err := rfl
@[simp] theorem countIgnored_sec (s : State) : (countIgnored s).sec = s.sec := rfl

/-! ### `bumpEpoch` -/

@[simp] theorem bumpEpoch_pending (s : State) : (bumpEpoch s).pending = s.pending := rfl
@[simp] theorem bumpEpoch_nowUs (s : State) : (bumpEpoch s).nowUs = s.nowUs := rfl
@[simp] theorem bumpEpoch_freeCtr (s : State) : (bumpEpoch s).freeCtr = s.freeCtr := rfl
@[simp] theorem bumpEpoch_pins (s : State) : (bumpEpoch s).pins = s.pins := rfl
@[simp] theorem bumpEpoch_out (s : State) : (bumpEpoch s).out = s.out := rfl
@[simp] theorem bumpEpoch_access (s : State) : (bumpEpoch s).access = s.access := rfl
@[simp] theorem bumpEpoch_power (s : State) : (bumpEpoch s).power = s.power := rfl
@[simp] theorem bumpEpoch_fur (s : State) : (bumpEpoch s).fur = s.fur := rfl
@[simp] theorem bumpEpoch_ports (s : State) : (bumpEpoch s).ports = s.ports := rfl
@[simp] theorem bumpEpoch_route (s : State) : (bumpEpoch s).route = s.route := rfl
@[simp] theorem bumpEpoch_memReqs (s : State) : (bumpEpoch s).memReqs = s.memReqs := rfl
@[simp] theorem bumpEpoch_memWaiting (s : State) : (bumpEpoch s).memWaiting = s.memWaiting := rfl
@[simp] theorem bumpEpoch_loopback (s : State) : (bumpEpoch s).loopback = s.loopback := rfl
@[simp] theorem bumpEpoch_trk (s : State) : (bumpEpoch s).trk = s.trk := rfl
@[simp] theorem bumpEpoch_aper (s : State) : (bumpEpoch s).aper = s.aper := rfl
@[simp] theorem bumpEpoch_cq (s : State) : (bumpEpoch s).cq = s.cq := rfl
@[simp] theorem bumpEpoch_xlt (s : State) : (bumpEpoch s).xlt = s.xlt := rfl
@[simp] theorem bumpEpoch_hbx (s : State) : (bumpEpoch s).hbx = s.hbx := rfl
@[simp] theorem bumpEpoch_btr (s : State) : (bumpEpoch s).btr = s.btr := rfl
@[simp] theorem bumpEpoch_vat (s : State) : (bumpEpoch s).vat = s.vat := rfl
@[simp] theorem bumpEpoch_par (s : State) : (bumpEpoch s).par = s.par := rfl
@[simp] theorem bumpEpoch_err (s : State) : (bumpEpoch s).err = s.err := rfl

/-! ### `vatSleep` -/

@[simp] theorem vatSleep_pending (s : State) : (vatSleep s).pending = s.pending := rfl
@[simp] theorem vatSleep_nowUs (s : State) : (vatSleep s).nowUs = s.nowUs := rfl
@[simp] theorem vatSleep_freeCtr (s : State) : (vatSleep s).freeCtr = s.freeCtr := rfl
@[simp] theorem vatSleep_pins (s : State) : (vatSleep s).pins = s.pins := rfl
@[simp] theorem vatSleep_out (s : State) : (vatSleep s).out = s.out := rfl
@[simp] theorem vatSleep_access (s : State) : (vatSleep s).access = s.access := rfl
@[simp] theorem vatSleep_power (s : State) : (vatSleep s).power = s.power := rfl
@[simp] theorem vatSleep_fur (s : State) : (vatSleep s).fur = s.fur := rfl
@[simp] theorem vatSleep_ports (s : State) : (vatSleep s).ports = s.ports := rfl
@[simp] theorem vatSleep_route (s : State) : (vatSleep s).route = s.route := rfl
@[simp] theorem vatSleep_memReqs (s : State) : (vatSleep s).memReqs = s.memReqs := rfl
@[simp] theorem vatSleep_memWaiting (s : State) : (vatSleep s).memWaiting = s.memWaiting := rfl
@[simp] theorem vatSleep_loopback (s : State) : (vatSleep s).loopback = s.loopback := rfl
@[simp] theorem vatSleep_trk (s : State) : (vatSleep s).trk = s.trk := rfl
@[simp] theorem vatSleep_aper (s : State) : (vatSleep s).aper = s.aper := rfl
@[simp] theorem vatSleep_cq (s : State) : (vatSleep s).cq = s.cq := rfl
@[simp] theorem vatSleep_xlt (s : State) : (vatSleep s).xlt = s.xlt := rfl
@[simp] theorem vatSleep_hbx (s : State) : (vatSleep s).hbx = s.hbx := rfl
@[simp] theorem vatSleep_btr (s : State) : (vatSleep s).btr = s.btr := rfl
@[simp] theorem vatSleep_par (s : State) : (vatSleep s).par = s.par := rfl
@[simp] theorem vatSleep_err (s : State) : (vatSleep s).err = s.err := rfl
@[simp] theorem vatSleep_sec (s : State) : (vatSleep s).sec = s.sec := rfl

/-! ### `vatWake` -/

@[simp] theorem vatWake_pending (s : State) : (vatWake s).pending = s.pending := rfl
@[simp] theorem vatWake_nowUs (s : State) : (vatWake s).nowUs = s.nowUs := rfl
@[simp] theorem vatWake_freeCtr (s : State) : (vatWake s).freeCtr = s.freeCtr := rfl
@[simp] theorem vatWake_pins (s : State) : (vatWake s).pins = s.pins := rfl
@[simp] theorem vatWake_out (s : State) : (vatWake s).out = s.out := rfl
@[simp] theorem vatWake_access (s : State) : (vatWake s).access = s.access := rfl
@[simp] theorem vatWake_power (s : State) : (vatWake s).power = s.power := rfl
@[simp] theorem vatWake_fur (s : State) : (vatWake s).fur = s.fur := rfl
@[simp] theorem vatWake_ports (s : State) : (vatWake s).ports = s.ports := rfl
@[simp] theorem vatWake_route (s : State) : (vatWake s).route = s.route := rfl
@[simp] theorem vatWake_memReqs (s : State) : (vatWake s).memReqs = s.memReqs := rfl
@[simp] theorem vatWake_memWaiting (s : State) : (vatWake s).memWaiting = s.memWaiting := rfl
@[simp] theorem vatWake_loopback (s : State) : (vatWake s).loopback = s.loopback := rfl
@[simp] theorem vatWake_trk (s : State) : (vatWake s).trk = s.trk := rfl
@[simp] theorem vatWake_aper (s : State) : (vatWake s).aper = s.aper := rfl
@[simp] theorem vatWake_cq (s : State) : (vatWake s).cq = s.cq := rfl
@[simp] theorem vatWake_xlt (s : State) : (vatWake s).xlt = s.xlt := rfl
@[simp] theorem vatWake_hbx (s : State) : (vatWake s).hbx = s.hbx := rfl
@[simp] theorem vatWake_btr (s : State) : (vatWake s).btr = s.btr := rfl
@[simp] theorem vatWake_par (s : State) : (vatWake s).par = s.par := rfl
@[simp] theorem vatWake_err (s : State) : (vatWake s).err = s.err := rfl
@[simp] theorem vatWake_sec (s : State) : (vatWake s).sec = s.sec := rfl

/-! ### `freshWord` -/

@[simp] theorem freshWord_pending (w : RamWord) (s : State) : (freshWord w s).pending = s.pending := rfl
@[simp] theorem freshWord_nowUs (w : RamWord) (s : State) : (freshWord w s).nowUs = s.nowUs := rfl
@[simp] theorem freshWord_freeCtr (w : RamWord) (s : State) : (freshWord w s).freeCtr = s.freeCtr := rfl
@[simp] theorem freshWord_pins (w : RamWord) (s : State) : (freshWord w s).pins = s.pins := rfl
@[simp] theorem freshWord_out (w : RamWord) (s : State) : (freshWord w s).out = s.out := rfl
@[simp] theorem freshWord_access (w : RamWord) (s : State) : (freshWord w s).access = s.access := rfl
@[simp] theorem freshWord_power (w : RamWord) (s : State) : (freshWord w s).power = s.power := rfl
@[simp] theorem freshWord_fur (w : RamWord) (s : State) : (freshWord w s).fur = s.fur := rfl
@[simp] theorem freshWord_ports (w : RamWord) (s : State) : (freshWord w s).ports = s.ports := rfl
@[simp] theorem freshWord_route (w : RamWord) (s : State) : (freshWord w s).route = s.route := rfl
@[simp] theorem freshWord_memReqs (w : RamWord) (s : State) : (freshWord w s).memReqs = s.memReqs := rfl
@[simp] theorem freshWord_memWaiting (w : RamWord) (s : State) : (freshWord w s).memWaiting = s.memWaiting := rfl
@[simp] theorem freshWord_loopback (w : RamWord) (s : State) : (freshWord w s).loopback = s.loopback := rfl
@[simp] theorem freshWord_trk (w : RamWord) (s : State) : (freshWord w s).trk = s.trk := rfl
@[simp] theorem freshWord_aper (w : RamWord) (s : State) : (freshWord w s).aper = s.aper := rfl
@[simp] theorem freshWord_cq (w : RamWord) (s : State) : (freshWord w s).cq = s.cq := rfl
@[simp] theorem freshWord_xlt (w : RamWord) (s : State) : (freshWord w s).xlt = s.xlt := rfl
@[simp] theorem freshWord_hbx (w : RamWord) (s : State) : (freshWord w s).hbx = s.hbx := rfl
@[simp] theorem freshWord_btr (w : RamWord) (s : State) : (freshWord w s).btr = s.btr := rfl
@[simp] theorem freshWord_vat (w : RamWord) (s : State) : (freshWord w s).vat = s.vat := rfl
@[simp] theorem freshWord_par (w : RamWord) (s : State) : (freshWord w s).par = s.par := rfl
@[simp] theorem freshWord_sec (w : RamWord) (s : State) : (freshWord w s).sec = s.sec := rfl

/-! ### `keepInputs` -/

@[simp] theorem keepInputs_pending (s t : State) : (keepInputs s t).pending = s.pending := rfl
@[simp] theorem keepInputs_nowUs (s t : State) : (keepInputs s t).nowUs = s.nowUs := rfl
@[simp] theorem keepInputs_freeCtr (s t : State) : (keepInputs s t).freeCtr = t.freeCtr := rfl
@[simp] theorem keepInputs_out (s t : State) : (keepInputs s t).out = t.out := rfl
@[simp] theorem keepInputs_access (s t : State) : (keepInputs s t).access = t.access := rfl
@[simp] theorem keepInputs_power (s t : State) : (keepInputs s t).power = t.power := rfl
@[simp] theorem keepInputs_fur (s t : State) : (keepInputs s t).fur = t.fur := rfl
@[simp] theorem keepInputs_ports (s t : State) : (keepInputs s t).ports = t.ports := rfl
@[simp] theorem keepInputs_route (s t : State) : (keepInputs s t).route = t.route := rfl
@[simp] theorem keepInputs_memReqs (s t : State) : (keepInputs s t).memReqs = t.memReqs := rfl
@[simp] theorem keepInputs_memWaiting (s t : State) : (keepInputs s t).memWaiting = t.memWaiting := rfl
@[simp] theorem keepInputs_loopback (s t : State) : (keepInputs s t).loopback = t.loopback := rfl
@[simp] theorem keepInputs_trk (s t : State) : (keepInputs s t).trk = t.trk := rfl
@[simp] theorem keepInputs_aper (s t : State) : (keepInputs s t).aper = t.aper := rfl
@[simp] theorem keepInputs_cq (s t : State) : (keepInputs s t).cq = t.cq := rfl
@[simp] theorem keepInputs_xlt (s t : State) : (keepInputs s t).xlt = t.xlt := rfl
@[simp] theorem keepInputs_hbx (s t : State) : (keepInputs s t).hbx = t.hbx := rfl
@[simp] theorem keepInputs_btr (s t : State) : (keepInputs s t).btr = t.btr := rfl
@[simp] theorem keepInputs_vat (s t : State) : (keepInputs s t).vat = t.vat := rfl
@[simp] theorem keepInputs_par (s t : State) : (keepInputs s t).par = t.par := rfl
@[simp] theorem keepInputs_err (s t : State) : (keepInputs s t).err = t.err := rfl
@[simp] theorem keepInputs_sec (s t : State) : (keepInputs s t).sec = t.sec := rfl
@[simp] theorem keepInputs_ready (s t : State) : (keepInputs s t).pins.ready = t.pins.ready := rfl
@[simp] theorem keepInputs_live (s t : State) : live (keepInputs s t) = live s := rfl
@[simp] theorem keepInputs_self (s : State) : keepInputs s s = s := rfl

end Sys2Proof.Machine
end

