-- ==== Sys2Proof/Laws/Exec.lean ====
section
/-! SUPPORT. What each arm of `exec` is: the meaning of the command, unfolded to the shared operation that it calls. -/

namespace Sys2Proof.Machine

theorem exec_coldResetAssert (s : State) :
    exec (.coldResetAssert) s = .next (doColdReset s) := rfl
theorem exec_coldStart (sbAddr : BitVec 2) (lowUs : Nat) (s : State) :
    exec (.coldStart sbAddr lowUs) s = .next (doColdStart sbAddr lowUs s) := rfl
theorem exec_rootPllLock (s : State) :
    exec (.rootPllLock) s = .next (doPllLock s) := rfl
theorem exec_rootPllUnlock (s : State) :
    exec (.rootPllUnlock) s = .next (doPllUnlock s) := rfl
theorem exec_railOutOfTolerance (s : State) :
    exec (.railOutOfTolerance) s = .next (doRailOut s) := rfl
theorem exec_lanePllUnlock (port : PortNo) (s : State) :
    exec (.lanePllUnlock port) s = act (doLanePllUnlock port) s := rfl
theorem exec_phaseEnd (obs : PhaseObs) (s : State) :
    exec (.phaseEnd obs) s = act (doPhaseEnd obs) s := rfl
theorem exec_registerWrite (offset : BitVec 24) (a : RegAcc) (s : State) :
    exec (.registerWrite offset a) s = act (cmdWrite offset.toNat a) s := rfl
theorem exec_memReadData (ch : Fin 16) (tag : Fin 512) (data : List Byte) (err : BitVec 2) (s : State) :
    exec (.memReadData ch tag data err) s =
      act (fun s => match findReq s ch false tag with | some r => takeBeat r data err s | none => s) s := rfl
theorem exec_memWriteResponse (ch : Fin 16) (tag : Fin 512) (err : BitVec 2) (s : State) :
    exec (.memWriteResponse ch tag err) s =
      act (fun s => match findReq s ch true tag with | some r => takeWriteRsp r err s | none => s) s := rfl
theorem exec_load (r : LsaReq) (s : State) :
    exec (.load r) s = act (aperRequest .load false r) s := rfl
theorem exec_loadRelaxed (r : LsaReq) (s : State) :
    exec (.loadRelaxed r) s = act (aperRequest .load true r) s := rfl
theorem exec_store (r : LsaReq) (s : State) :
    exec (.store r) s = act (aperRequest .store false r) s := rfl
theorem exec_storeRelaxed (r : LsaReq) (s : State) :
    exec (.storeRelaxed r) s = act (aperRequest .store true r) s := rfl
theorem exec_apertureAtomic (r : LsaReq) (s : State) :
    exec (.apertureAtomic r) s = act (aperRequest .atomic false r) s := rfl
theorem exec_atomicRelaxed (r : LsaReq) (s : State) :
    exec (.atomicRelaxed r) s = act (aperRequest .atomic true r) s := rfl
theorem exec_apertureFence (r : LsaReq) (s : State) :
    exec (.apertureFence r) s = act (fenceRequest r) s := rfl
theorem exec_interruptMessageTransfer (s : State) :
    exec (.interruptMessageTransfer) s = act (fun s => onlyIf s.pins.ready doInterruptTransfer s) s := rfl
theorem exec_interruptTimeLimit (p v : PartNo) (s : State) :
    exec (.interruptTimeLimit p v) s = act (doInterruptTimeLimit p v) s := rfl
theorem exec_translationReply (data : BitVec 256) (s : State) :
    exec (.translationReply data) s = act (doReply data) s := rfl
theorem exec_translationTimeout (tag : Byte) (s : State) :
    exec (.translationTimeout tag) s = act (doXltTimeout tag) s := rfl
theorem exec_tagSetAsideExpiry (tag : Byte) (s : State) :
    exec (.tagSetAsideExpiry tag) s = act (doTagBack tag) s := rfl
theorem exec_faultRecordWritten (p : PartNo) (err : BitVec 2) (s : State) :
    exec (.faultRecordWritten p err) s = act (doFaultRecordWritten p err) s := rfl
theorem exec_result (m : RotMsg) (s : State) :
    exec (.result m) s = act (doResult m) s := rfl
theorem exec_rotRequestTimeout (tag : BitVec 16) (s : State) :
    exec (.rotRequestTimeout tag) s = act (doRotTimeout tag) s := rfl
theorem exec_setPolicy (m : RotMsg) (s : State) :
    exec (.setPolicy m) s = act (doSetPolicy m) s := rfl
theorem exec_telemetrySample (core lane09 lane12 : Option RailRead) (s : State) :
    exec (.telemetrySample core lane09 lane12) s = act (doTelemetry core lane09 lane12) s := rfl
theorem exec_policy (a : RegAcc) (s : State) :
    exec (.policy a) s = act (cmdWrite 0x10008 a) s := rfl
theorem exec_electricalIdleEntry (port : PortNo) (s : State) :
    exec (.electricalIdleEntry port) s = act (doIdleEnter port) s := rfl
theorem exec_electricalIdleExit (port : PortNo) (s : State) :
    exec (.electricalIdleExit port) s = act (doIdleExit port) s := rfl
theorem exec_idleExitTimeout (port : PortNo) (s : State) :
    exec (.idleExitTimeout port) s = act (doIdleExitTimeout port) s := rfl
theorem exec_setPower (pec : Bool) (target : Byte) (s : State) :
    exec (.setPower pec target) s = sideband pec 0x06 (sbPower target) s := rfl
theorem exec_p2DrainComplete (s : State) :
    exec (.p2DrainComplete) s = act doP2Drained s := rfl
theorem exec_p2DrainTimeout (s : State) :
    exec (.p2DrainTimeout) s = act doP2Timeout s := rfl
theorem exec_powerTransitionComplete (s : State) :
    exec (.powerTransitionComplete) s = act doTransition s := rfl
theorem exec_setCeiling (pec : Bool) (ceil : BitVec 16) (shed : Byte) (s : State) :
    exec (.setCeiling pec ceil shed) s = sideband pec 0x05 (sbCeiling ceil shed) s := rfl
theorem exec_hostCeil (a : RegAcc) (s : State) :
    exec (.hostCeil a) s = act (cmdWrite 0x10018 a) s := rfl
theorem exec_throttleTick (s : State) :
    exec (.throttleTick) s = act doThrottleTick s := rfl
theorem exec_throttleInterval (port : PortNo) (begins : Bool) (s : State) :
    exec (.throttleInterval port begins) s = act (doThrottleInterval port begins) s := rfl
theorem exec_detectPulse (port : PortNo) (s : State) :
    exec (.detectPulse port) s = act (doDetectPulse port) s := rfl
theorem exec_partnerSignalDetect (port : PortNo) (lanes : BitVec 9) (s : State) :
    exec (.partnerSignalDetect port lanes) s = act (doPartnerSignal port lanes) s := rfl
theorem exec_trainingRetryTimer (port : PortNo) (s : State) :
    exec (.trainingRetryTimer port) s = act (doTrainingRetry port) s := rfl
theorem exec_trainingStepComplete (port : PortNo) (obs : TrainObs) (s : State) :
    exec (.trainingStepComplete port obs) s = act (doTrainingStep port obs) s := rfl
theorem exec_laneBlock (port : PortNo) (lane : LaneNo) (header : BitVec 2) (payload : BitVec 128) (s : State) :
    exec (.laneBlock port lane header payload) s = act (doLaneBlock port lane header payload) s := rfl
theorem exec_marker (port : PortNo) (lane : LaneNo) (payload : BitVec 128) (s : State) :
    exec (.marker port lane payload) s = act (doMarker port lane payload) s := rfl
theorem exec_train (port : PortNo) (lane : LaneNo) (payload : BitVec 128) (s : State) :
    exec (.train port lane payload) s = act (doTrain port lane payload) s := rfl
theorem exec_burst (port : PortNo) (lane : LaneNo) (s : State) :
    exec (.burst port lane) s = act (doBurst port lane) s := rfl
theorem exec_idleEntry (port : PortNo) (lane : LaneNo) (s : State) :
    exec (.idleEntry port lane) s = act (doIdleEntry port lane) s := rfl
theorem exec_calender (port : PortNo) (logical : Fin 8) (spare : LaneNo) (epoch : Byte) (s : State) :
    exec (.calender port logical spare epoch) s = act (doCalender port logical spare epoch) s := rfl
theorem exec_loopReq (port : PortNo) (close : Bool) (lanes : BitVec 9) (s : State) :
    exec (.loopReq port close lanes) s = act (doLoopReq port close lanes) s := rfl
theorem exec_laneErrorWindow (port : PortNo) (corrected : List Nat) (s : State) :
    exec (.laneErrorWindow port corrected) s = act (doLaneWindow port corrected) s := rfl
theorem exec_laneTemperatureRead (port : PortNo) (temp : BitVec 10) (s : State) :
    exec (.laneTemperatureRead port temp) s = act (doTemperature port temp) s := rfl
theorem exec_calenderStep (port : PortNo) (differing : Nat) (s : State) :
    exec (.calenderStep port differing) s = act (doCalenderStep port differing) s := rfl
theorem exec_calenderRetryTimer (port : PortNo) (s : State) :
    exec (.calenderRetryTimer port) s = act (doCalenderRetry port) s := rfl
theorem exec_calenderAnswerTimeout (port : PortNo) (s : State) :
    exec (.calenderAnswerTimeout port) s = act (doCalenderAnswer port) s := rfl
theorem exec_calenderDeferExpiry (port : PortNo) (s : State) :
    exec (.calenderDeferExpiry port) s = act (doCalenderDefer port) s := rfl
theorem exec_portRetrain (port : PortNo) (a : RegAcc) (s : State) :
    exec (.portRetrain port a) s = act (cmdWrite (0x1002C0 + 0x10000 * port) a) s := rfl
theorem exec_passNow (port : PortNo) (a : RegAcc) (s : State) :
    exec (.passNow port a) s = act (cmdWrite (0x1002C0 + 0x10000 * port) a) s := rfl
theorem exec_portLoopCtrl (port : PortNo) (a : RegAcc) (s : State) :
    exec (.portLoopCtrl port a) s = act (cmdWrite (0x100270 + 0x10000 * port) a) s := rfl
theorem exec_flitReceived (port : PortNo) (bytes : List Byte) (badCodeword : Bool) (s : State) :
    exec (.flitReceived port bytes badCodeword) s = act (recvFlit port bytes badCodeword) s := rfl
theorem exec_flitTransmit (port : PortNo) (s : State) :
    exec (.flitTransmit port) s = act (sendFlit port) s := rfl
theorem exec_ackOwedTimeout (port : PortNo) (s : State) :
    exec (.ackOwedTimeout port) s = act (doAckOwed port) s := rfl
theorem exec_linkInit (port : PortNo) (protocol version : BitVec 16) (endpoint : BitVec 32) (peerPort width : Byte) (broke rxbuf : BitVec 16) (s : State) :
    exec (.linkInit port protocol version endpoint peerPort width broke rxbuf) s = act (onPacket port tyLinkInit false (leBytes 2 protocol.toNat ++ leBytes 2 version.toNat ++ leBytes 4 endpoint.toNat ++ [peerPort, width] ++ leBytes 2 broke.toNat ++ leBytes 2 rxbuf.toNat) (doLinkInit port protocol endpoint peerPort broke)) s := rfl
theorem exec_rttProbe (port : PortNo) (tag : Word) (s : State) :
    exec (.rttProbe port tag) s = act (onPacket port tyRttProbe false (leBytes 8 tag.toNat) (doRttProbe port tag)) s := rfl
theorem exec_rttEcho (port : PortNo) (tag : Word) (turn : BitVec 32) (measured : BitVec 16) (s : State) :
    exec (.rttEcho port tag turn measured) s = act (onPacket port tyRttEcho false (leBytes 8 tag.toNat ++ leBytes 4 turn.toNat) (doRttEcho port tag turn measured)) s := rfl
theorem exec_nak (port : PortNo) (expected : Count) (reason : Byte) (s : State) :
    exec (.nak port expected reason) s = act (onPacket port tyNak false (leBytes 5 expected.toNat ++ [reason]) (doNak port expected)) s := rfl
theorem exec_replayStart (port : PortNo) (first : Count) (cause : Byte) (s : State) :
    exec (.replayStart port first cause) s = act (onPacket port tyReplayStart false (leBytes 5 first.toNat ++ [cause]) (doReplayStart port first)) s := rfl
theorem exec_cnak (port : PortNo) (cexpected : BitVec 16) (s : State) :
    exec (.cnak port cexpected) s = act (onPacket port tyCnak false (leBytes 2 cexpected.toNat) (doCnak port cexpected)) s := rfl
theorem exec_replayTimeout (port : PortNo) (s : State) :
    exec (.replayTimeout port) s = act (doReplayTimeout port) s := rfl
theorem exec_replayStartWaitTimeout (port : PortNo) (s : State) :
    exec (.replayStartWaitTimeout port) s = act (doReplayStartWait port) s := rfl
theorem exec_controlReplayTimeout (port : PortNo) (s : State) :
    exec (.controlReplayTimeout port) s = act (doControlTimeout port) s := rfl
theorem exec_pauseLimitExpiry (port : PortNo) (vcb : Fin 8) (s : State) :
    exec (.pauseLimitExpiry port vcb) s = act (doPauseLimit port vcb) s := rfl
theorem exec_handover (port : PortNo) (deadPort : Byte) (expected nextTx : Count) (s : State) :
    exec (.handover port deadPort expected nextTx) s = act (onPacket port tyHandover false ([deadPort] ++ leBytes 5 expected.toNat ++ leBytes 5 nextTx.toNat) (doHandover port expected)) s := rfl
theorem exec_handoverDone (port : PortNo) (deadPort : Byte) (flits : BitVec 16) (s : State) :
    exec (.handoverDone port deadPort flits) s = act (onPacket port tyHandoverDone false ([deadPort] ++ leBytes 2 flits.toNat) (id)) s := rfl
theorem exec_handoverTimeout (port : PortNo) (s : State) :
    exec (.handoverTimeout port) s = act (doHandoverTimeout port) s := rfl
theorem exec_twinHoldRelease (port : PortNo) (s : State) :
    exec (.twinHoldRelease port) s = act (doHoldRelease port) s := rfl
theorem exec_handbackMark (port : PortNo) (restored : Byte) (s : State) :
    exec (.handbackMark port restored) s = act (onPacket port tyHandbackMark false ([restored]) (doHandbackMark port)) s := rfl
theorem exec_park (port : PortNo) (parking : Byte) (s : State) :
    exec (.park port parking) s = act (onPacket port tyPark false ([parking]) (doPark port parking)) s := rfl
theorem exec_retrainReq (port : PortNo) (fullCal : Byte) (s : State) :
    exec (.retrainReq port fullCal) s = act (onPacket port tyRetrainReq false ([fullCal]) (doRetrainReq port fullCal)) s := rfl
theorem exec_fenceNotice (port : PortNo) (cause : Byte) (s : State) :
    exec (.fenceNotice port cause) s = act (onPacket port tyFenceNotice false ([cause]) (doFenceNotice port cause)) s := rfl
theorem exec_stuckNotice (port : PortNo) (vcb : Byte) (s : State) :
    exec (.stuckNotice port vcb) s = act (onPacket port tyStuckNotice false ([vcb]) (doStuckNotice port)) s := rfl
theorem exec_misbehaviourWindow (port : PortNo) (s : State) :
    exec (.misbehaviourWindow port) s = act (doMisbehaviourWindow port) s := rfl
theorem exec_admitId (port : PortNo) (machineId : BitVec 128) (endpoint : BitVec 32) (peerPort : Byte) (s : State) :
    exec (.admitId port machineId endpoint peerPort) s = act (onPacket port tyAdmitId false (leBytes 16 machineId.toNat ++ leBytes 4 endpoint.toNat ++ [peerPort]) (doAdmitId port machineId endpoint peerPort)) s := rfl
theorem exec_admitNonce (port : PortNo) (nonce : BitVec 192) (s : State) :
    exec (.admitNonce port nonce) s = act (onPacket port tyAdmitNonce false (leBytes 24 nonce.toNat) (doAdmitNonce port nonce)) s := rfl
theorem exec_admitMac (port : PortNo) (part : Bool) (half : BitVec 192) (s : State) :
    exec (.admitMac port part half) s = act (onPacket port tyAdmitMac part (leBytes 24 half.toNat) (doAdmitMac port part half)) s := rfl
theorem exec_admitResult (port : PortNo) (res cause : Byte) (s : State) :
    exec (.admitResult port res cause) s = act (onPacket port tyAdmitResult false ([res, cause]) (doAdmitResult port res cause)) s := rfl
theorem exec_admissionTimeout (port : PortNo) (s : State) :
    exec (.admissionTimeout port) s = act (doAdmissionTimeout port) s := rfl
theorem exec_admissionRestartTimer (port : PortNo) (s : State) :
    exec (.admissionRestartTimer port) s = act (doAdmissionRestart port) s := rfl
theorem exec_rankDigest (port : PortNo) (part : Bool) (half : BitVec 192) (s : State) :
    exec (.rankDigest port part half) s = act (onPacket port tyRankDigest part (leBytes 24 half.toNat) (takeDigest port part half)) s := rfl
theorem exec_routeBreak (port : PortNo) (dim link state : Byte) (origin : BitVec 32) (seq : BitVec 16) (s : State) :
    exec (.routeBreak port dim link state origin seq) s = act (onPacket port tyRouteBreak false ([dim, link, state, 0] ++ leBytes 4 origin.toNat ++ leBytes 2 seq.toNat) (takeNotice port dim.toNat link.toNat state.toNat origin seq)) s := rfl
theorem exec_routeRestoreHoldExpiry (dir : Fin 6) (s : State) :
    exec (.routeRestoreHoldExpiry dir) s = act (doRestoreHold dir) s := rfl
theorem exec_transitForward (port : PortNo) (vcb : Fin 8) (m : Msg) (s : State) :
    exec (.transitForward port vcb m) s = act (doTransit port vcb m) s := rfl
theorem exec_rteRank (w : Fin 65536) (a : RegAcc) (s : State) :
    exec (.rteRank w a) s = act (cmdWrite (0x280000 + 8 * w) a) s := rfl
theorem exec_rteRankCommit (a : RegAcc) (s : State) :
    exec (.rteRankCommit a) s = act (cmdWrite 0x200040 a) s := rfl
theorem exec_digestComputed (s : State) :
    exec (.digestComputed) s = act doDigestComputed s := rfl
theorem exec_read (arr : Arrival) (m : Msg) (s : State) :
    exec (.read arr m) s = act (onlyIf (ownMessage .read m.opcode) (doRead arr m)) s := rfl
theorem exec_write (arr : Arrival) (m : Msg) (s : State) :
    exec (.write arr m) s = act (onlyIf (ownMessage .write m.opcode) (doWrite arr m)) s := rfl
theorem exec_cont (arr : Arrival) (m : Msg) (s : State) :
    exec (.cont arr m) s = act (onlyIf (ownMessage .cont m.opcode) (doCont arr m)) s := rfl
theorem exec_fillMessage (arr : Arrival) (m : Msg) (s : State) :
    exec (.fillMessage arr m) s = act (onlyIf (ownMessage .fill m.opcode) (doFill arr m)) s := rfl
theorem exec_atomic (arr : Arrival) (m : Msg) (s : State) :
    exec (.atomic arr m) s = act (onlyIf (ownMessage .atomic m.opcode) (doAtomic arr m)) s := rfl
theorem exec_ack (arr : Arrival) (m : Msg) (s : State) :
    exec (.ack arr m) s = act (onlyIf (ownMessage .ack m.opcode) (doAck arr m)) s := rfl
theorem exec_readData (arr : Arrival) (m : Msg) (s : State) :
    exec (.readData arr m) s = act (onlyIf (ownMessage .readData m.opcode) (doReadData arr m)) s := rfl
theorem exec_atomicResult (arr : Arrival) (m : Msg) (s : State) :
    exec (.atomicResult arr m) s = act (onlyIf (ownMessage .atomicResult m.opcode) (doAtomicResult arr m)) s := rfl
theorem exec_release (arr : Arrival) (m : Msg) (s : State) :
    exec (.release arr m) s = act (onlyIf (ownMessage .release m.opcode) (doRelease arr m)) s := rfl
theorem exec_managementMessage (arr : Arrival) (m : Msg) (s : State) :
    exec (.managementMessage arr m) s = act (onlyIf (ownMessage .management m.opcode) (doManagement arr m)) s := rfl
theorem exec_openRunGapExpiry (source tag : BitVec 32) (s : State) :
    exec (.openRunGapExpiry source tag) s = act (doOpenRunGap source tag) s := rfl
theorem exec_responseTimeout (tracker : Fin 131072) (s : State) :
    exec (.responseTimeout tracker) s = act (doResponseTimeout tracker) s := rfl
theorem exec_replayEntryExpiry (source tag : BitVec 32) (s : State) :
    exec (.replayEntryExpiry source tag) s = act (fun s => retryStalled (doReplayExpiry source tag s)) s := rfl
theorem exec_doorbell (q : QueueNo) (a : RegAcc) (s : State) :
    exec (.doorbell q a) s = act (cmdWrite (0x400000 + 0x40 * q) a) s := rfl
theorem exec_ctxOpen (c : CtxCmd) (s : State) :
    exec (.ctxOpen c) s = act (ctxCommand cmdCtxOpen c) s := rfl
theorem exec_ctxClose (c : CtxCmd) (s : State) :
    exec (.ctxClose c) s = act (ctxCommand cmdCtxClose c) s := rfl
theorem exec_qBind (c : CtxCmd) (s : State) :
    exec (.qBind c) s = act (ctxCommand cmdQBind c) s := rfl
theorem exec_qUnbind (c : CtxCmd) (s : State) :
    exec (.qUnbind c) s = act (ctxCommand cmdQUnbind c) s := rfl
theorem exec_qEnable (c : CtxCmd) (s : State) :
    exec (.qEnable c) s = act (ctxCommand cmdQEnable c) s := rfl
theorem exec_qHalt (c : CtxCmd) (s : State) :
    exec (.qHalt c) s = act (ctxCommand cmdQHalt c) s := rfl
theorem exec_qResume (c : CtxCmd) (s : State) :
    exec (.qResume c) s = act (ctxCommand cmdQResume c) s := rfl
theorem exec_descriptorStart (q : QueueNo) (s : State) :
    exec (.descriptorStart q) s = act (startNext q) s := rfl
theorem exec_copy (run : Nat) (s : State) :
    exec (.copy run) s = act (onRun dCopy run (fun r => moverTurn r.id)) s := rfl
theorem exec_fill (run : Nat) (s : State) :
    exec (.fill run) s = act (onRun dFill run (fun r => moverTurn r.id)) s := rfl
theorem exec_digest (run : Nat) (s : State) :
    exec (.digest run) s = act (onRun dDigest run (fun r => moverTurn r.id)) s := rfl
theorem exec_sealedCopy (run : Nat) (s : State) :
    exec (.sealedCopy run) s = act (onRun dSealed run sealedTurn) s := rfl
theorem exec_prefetch (run : Nat) (s : State) :
    exec (.prefetch run) s = act (onRun dPrefetch run (fun r => walkStep r.id)) s := rfl
theorem exec_advise (run : Nat) (s : State) :
    exec (.advise run) s = act (onRun dAdvise run (fun r => walkStep r.id)) s := rfl
theorem exec_wait (run : Nat) (s : State) :
    exec (.wait run) s = act (onRun dWait run waitTurn) s := rfl
theorem exec_signal (run : Nat) (s : State) :
    exec (.signal run) s = act (onRun dSignal run signalTurn) s := rfl
theorem exec_trigger (run : Nat) (s : State) :
    exec (.trigger run) s = act (onRun dTrigger run triggerTurn) s := rfl
theorem exec_triggeredOperationRun (id : Nat) (s : State) :
    exec (.triggeredOperationRun id) s = act (runTriggered id) s := rfl
theorem exec_collective (run : Nat) (s : State) :
    exec (.collective run) s = act (onRun dCollective run collTurn) s := rfl
theorem exec_nop (run : Nat) (s : State) :
    exec (.nop run) s = act (onRun dNop run (fun r => onlyIf (r.phase == .active) (endRun r.id stOk))) s := rfl
theorem exec_doneWritten (run : Nat) (s : State) :
    exec (.doneWritten run) s = act (doDoneWritten run) s := rfl
theorem exec_waitLimitExpiry (run : Nat) (s : State) :
    exec (.waitLimitExpiry run) s = act (onRun dWait run (fun r => onlyIf (r.phase == .holding && r.num 20 4 != 0) (endRun r.id stTimeout))) s := rfl
theorem exec_periodEnd (q : QueueNo) (s : State) :
    exec (.periodEnd q) s = act (doPeriodEnd q) s := rfl
theorem exec_teardownResolved (ctx : CtxNo) (s : State) :
    exec (.teardownResolved ctx) s = act (doTeardownResolved ctx) s := rfl
theorem exec_quarantineExpiry (ctx : CtxNo) (s : State) :
    exec (.quarantineExpiry ctx) s = act (doQuarantineExpiry ctx) s := rfl
theorem exec_cntValue (k : Fin 65536) (a : RegAcc) (s : State) :
    exec (.cntValue k a) s = act (cmdWrite (0x600000 + 8 * k) a) s := rfl
theorem exec_cntAdd (k : Fin 65536) (a : RegAcc) (s : State) :
    exec (.cntAdd k a) s = act (cmdWrite (0x680000 + 8 * k) a) s := rfl
theorem exec_invalidate (slot : Fin 17) (a : RegAcc) (s : State) :
    exec (.invalidate slot a) s = act (cmdWrite (0x800110 + 0x20 * slot) a) s := rfl
theorem exec_invalidateComplete (slot : Fin 17) (s : State) :
    exec (.invalidateComplete slot) s = act (invComplete slot) s := rfl
theorem exec_xltFqCfg (p : PartNo) (a : RegAcc) (s : State) :
    exec (.xltFqCfg p a) s = act (cmdWrite (0x801008 + 0x20 * p) a) s := rfl
theorem exec_xltFqPtrs (p : PartNo) (a : RegAcc) (s : State) :
    exec (.xltFqPtrs p a) s = act (cmdWrite (0x801010 + 0x20 * p) a) s := rfl
theorem exec_xltSticky (w : Fin 16) (a : RegAcc) (s : State) :
    exec (.xltSticky w a) s = act (cmdWrite (0x802000 + 8 * w) a) s := rfl
theorem exec_enable (w : Fin 4096) (a : RegAcc) (s : State) :
    exec (.enable w a) s = act (cmdWrite (0x880020 + 0x40 * w) a) s := rfl
theorem exec_withdraw (w : Fin 4096) (a : RegAcc) (s : State) :
    exec (.withdraw w a) s = act (cmdWrite (0x880020 + 0x40 * w) a) s := rfl
theorem exec_windowWithdrawalComplete (w : Fin 4096) (s : State) :
    exec (.windowWithdrawalComplete w) s = act (doWindowDone w) s := rfl
theorem exec_ringStepStart (plan : Fin 16) (level : Fin 3) (ring : Fin 4) (s : State) :
    exec (.ringStepStart plan level ring) s = act (doRingStep plan level ring) s := rfl
theorem exec_pieceSend (plan : Fin 16) (level : Fin 3) (x : SendObs) (s : State) :
    exec (.pieceSend plan level x) s = act (doPieceSend plan level x.ring x.wm) s := rfl
theorem exec_collOpen (arr : Arrival) (m : Msg) (s : State) :
    exec (.collOpen arr m) s = act (onlyIf (ownMessage .collOpen m.opcode) (doCollOpen arr m)) s := rfl
theorem exec_collCont (arr : Arrival) (m : Msg) (s : State) :
    exec (.collCont arr m) s = act (onlyIf (ownMessage .collCont m.opcode) (doCollCont arr m)) s := rfl
theorem exec_collCredit (arr : Arrival) (m : Msg) (s : State) :
    exec (.collCredit arr m) s = act (onlyIf (ownMessage .collCredit m.opcode) (doCollCredit arr m)) s := rfl
theorem exec_collAbort (arr : Arrival) (m : Msg) (s : State) :
    exec (.collAbort arr m) s = act (onlyIf (ownMessage .collAbort m.opcode) (doCollAbort arr m)) s := rfl
theorem exec_creditRepeatTimer (plan : Fin 16) (level : Fin 3) (ring : Fin 4) (s : State) :
    exec (.creditRepeatTimer plan level ring) s = act (doCreditRepeat plan level ring) s := rfl
theorem exec_beaterPieceDone (beater : Fin 8) (obs : BeatObs) (s : State) :
    exec (.beaterPieceDone beater obs) s = act (doBeaterPieceDone beater obs) s := rfl
theorem exec_recomputeDone (beater : Fin 8) (obs : BeatObs) (s : State) :
    exec (.recomputeDone beater obs) s = act (doRecomputeDone beater obs) s := rfl
theorem exec_stepLimitExpiry (plan : Fin 16) (s : State) :
    exec (.stepLimitExpiry plan) s = act (doStepLimit plan) s := rfl
theorem exec_faultStallExpiry (plan : Fin 16) (s : State) :
    exec (.faultStallExpiry plan) s = act (doFaultStall plan) s := rfl
theorem exec_scrubRow (errs : List VatErr) (s : State) :
    exec (.scrubRow errs) s = act (doScrubRow errs) s := rfl
theorem exec_vatMarch (a : RegAcc) (s : State) :
    exec (.vatMarch a) s = act (cmdWrite 0xA00028 a) s := rfl
theorem exec_marchComplete (failed : BitVec 50) (us : BitVec 16) (s : State) :
    exec (.marchComplete failed us) s = act (doMarchComplete failed us) s := rfl
theorem exec_vatWinAddr (a : RegAcc) (s : State) :
    exec (.vatWinAddr a) s = act (cmdWrite 0xA00300 a) s := rfl
theorem exec_vatWinData (isWrite : Bool) (a : RegAcc) (s : State) :
    exec (.vatWinData isWrite a) s = act (if isWrite then cmdWrite offWinData a else cmdRead offWinData a.par) s := rfl
theorem exec_btrSelftest (a : RegAcc) (s : State) :
    exec (.btrSelftest a) s = act (cmdWrite 0x901030 a) s := rfl
theorem exec_selfTestComplete (passed : BitVec 8) (us : BitVec 16) (s : State) :
    exec (.selfTestComplete passed us) s = act (doSelfTestComplete passed us) s := rfl
theorem exec_reset (p : PartNo) (a : RegAcc) (s : State) :
    exec (.reset p a) s = act (cmdWrite (0xB00100 + 0x40 * p) a) s := rfl
theorem exec_partitionResetDrained (p : PartNo) (s : State) :
    exec (.partitionResetDrained p) s = act (doPartDrained p) s := rfl
theorem exec_engineReset (a : RegAcc) (s : State) :
    exec (.engineReset a) s = act (cmdWrite 0xB00000 a) s := rfl
theorem exec_engineResetMemoryDrained (s : State) :
    exec (.engineResetMemoryDrained) s = act doEngineDrained s := rfl
theorem exec_irqVecCtrl (p v : PartNo) (a : RegAcc) (s : State) :
    exec (.irqVecCtrl p v a) s = act (cmdWrite (0xB10008 + 0x200 * p + 0x20 * v) a) s := rfl
theorem exec_hangScan (s : State) :
    exec (.hangScan) s = act doHangScan s := rfl
theorem exec_heartbeat (s : State) :
    exec (.heartbeat) s = act doHeartbeat s := rfl
theorem exec_watchdogFire (s : State) :
    exec (.watchdogFire) s = act doWatchdog s := rfl
theorem exec_stewardRestartComplete (s : State) :
    exec (.stewardRestartComplete) s = act doRestartComplete s := rfl
theorem exec_errCtrlDrain (a : RegAcc) (s : State) :
    exec (.errCtrlDrain a) s = act (cmdWrite 0xC00000 a) s := rfl
theorem exec_captureNow (a : RegAcc) (s : State) :
    exec (.captureNow a) s = act (cmdWrite 0xC00000 a) s := rfl
theorem exec_arm (a : RegAcc) (s : State) :
    exec (.arm a) s = act (cmdWrite 0xC00030 a) s := rfl
theorem exec_drainComplete (s : State) :
    exec (.drainComplete) s = act doDrainComplete s := rfl
theorem exec_identify (pec : Bool) (s : State) :
    exec (.identify pec) s = sideband pec 0x01 (fun s => (stOk, mgIdentify s, s)) s := rfl
theorem exec_getEpoch (pec : Bool) (s : State) :
    exec (.getEpoch pec) s = sideband pec 0x02 (fun s => (stOk, mgEpoch s, s)) s := rfl
theorem exec_readReg (pec : Bool) (offset : BitVec 32) (count : Byte) (s : State) :
    exec (.readReg pec offset count) s = sideband pec 0x03 (mgReadReg offset.toNat count.toNat) s := rfl
theorem exec_writeReg (pec : Bool) (offset : BitVec 32) (value : Word) (mask : BitVec 8) (s : State) :
    exec (.writeReg pec offset value mask) s = sideband pec 0x04 (mgWriteReg offset.toNat value mask) s := rfl
theorem exec_telemetry (pec : Bool) (s : State) :
    exec (.telemetry pec) s = sideband pec 0x07 (fun s => (stOk, mgTelemetry s, s)) s := rfl
theorem exec_portStatus (pec : Bool) (port : Byte) (s : State) :
    exec (.portStatus pec port) s = sideband pec 0x08 (mgPortStatus port.toNat) s := rfl
theorem exec_retrain (pec : Bool) (port fullCal : Byte) (s : State) :
    exec (.retrain pec port fullCal) s = sideband pec 0x09 (sbRetrain port fullCal) s := rfl
theorem exec_resetPartition (pec : Bool) (p : Byte) (s : State) :
    exec (.resetPartition pec p) s = sideband pec 0x0A (sbReset 1 p (orderPartReset (partNo p.toNat))) s := rfl
theorem exec_resetEngineDomain (pec : Bool) (s : State) :
    exec (.resetEngineDomain pec) s = sideband pec 0x0A (sbReset 2 0 orderEngineReset) s := rfl
theorem exec_resetSteward (pec : Bool) (s : State) :
    exec (.resetSteward pec) s = sideband pec 0x0A (sbReset 3 0 (fun s => (stOk, startRestart s))) s := rfl
theorem exec_resetCapture (pec : Bool) (s : State) :
    exec (.resetCapture pec) s = sideband pec 0x0A (sbReset 4 0 (fun s => (stOk, capture 6 .all 0 s))) s := rfl
theorem exec_drain (pec : Bool) (s : State) :
    exec (.drain pec) s = sideband pec 0x0B sbDrain s := rfl
theorem exec_rankWrite (pec : Bool) (first : BitVec 32) (entries : List (BitVec 32)) (s : State) :
    exec (.rankWrite pec first entries) s = sideband pec 0x0C (sbRankWrite first.toNat entries) s := rfl
theorem exec_rankCommit (pec : Bool) (s : State) :
    exec (.rankCommit pec) s = sideband pec 0x0D sbRankCommit s := rfl
theorem exec_reports (pec : Bool) (ackSeq : BitVec 32) (s : State) :
    exec (.reports pec ackSeq) s = sideband pec 0x0E (sbReports ackSeq) s := rfl
theorem exec_directedHold (pec : Bool) (s : State) :
    exec (.directedHold pec) s = sideband pec 0x10 sbHold s := rfl
theorem exec_directedStep (pec : Bool) (s : State) :
    exec (.directedStep pec) s = sideband pec 0x10 sbStep s := rfl
theorem exec_directedResume (pec : Bool) (s : State) :
    exec (.directedResume pec) s = sideband pec 0x10 sbResume s := rfl
theorem exec_directedLeave (pec : Bool) (s : State) :
    exec (.directedLeave pec) s = sideband pec 0x10 sbLeave s := rfl
theorem exec_testDestructiveMarch (pec : Bool) (s : State) :
    exec (.testDestructiveMarch pec) s = sideband pec 0x11 (sbTest 1 (testMarch false)) s := rfl
theorem exec_testPreservingMarch (pec : Bool) (s : State) :
    exec (.testPreservingMarch pec) s = sideband pec 0x11 (sbTest 2 (testMarch true)) s := rfl
theorem exec_testBeaterSelfTest (pec : Bool) (s : State) :
    exec (.testBeaterSelfTest pec) s = sideband pec 0x11 (sbTest 3 testBeaters) s := rfl
theorem exec_testPortEnter (pec : Bool) (port : Byte) (s : State) :
    exec (.testPortEnter pec port) s = sideband pec 0x11 (sbPortTest 4 port testEnter) s := rfl
theorem exec_testPortExit (pec : Bool) (port : Byte) (s : State) :
    exec (.testPortExit pec port) s = sideband pec 0x11 (sbPortTest 5 port testExit) s := rfl
theorem exec_testLoop (pec : Bool) (port : Byte) (bits : BitVec 16) (s : State) :
    exec (.testLoop pec port bits) s = sideband pec 0x11 (sbPortTest 6 port (fun n => testLoops n bits)) s := rfl
theorem exec_nvmRead (pec : Bool) (offset : BitVec 32) (len : Byte) (s : State) :
    exec (.nvmRead pec offset len) s = sideband pec 0x20 (mgNvmRead offset.toNat len.toNat) s := rfl
theorem exec_nvmErase (pec : Bool) (offset : BitVec 32) (size : Byte) (s : State) :
    exec (.nvmErase pec offset size) s = sideband pec 0x21 (mgNvmErase false offset.toNat size) s := rfl
theorem exec_nvmWrite (pec : Bool) (offset : BitVec 32) (data : List Byte) (s : State) :
    exec (.nvmWrite pec offset data) s = sideband pec 0x22 (mgNvmWrite false offset.toNat data) s := rfl
theorem exec_nvmCheck (pec : Bool) (slot : Byte) (s : State) :
    exec (.nvmCheck pec slot) s = sideband pec 0x23 (mgNvmCheck false slot) s := rfl
theorem exec_opState (pec : Bool) (s : State) :
    exec (.opState pec) s = sideband pec 0x24 (fun s => (stOk, mgOpState false s, s)) s := rfl
theorem exec_longCommandComplete (s : State) :
    exec (.longCommandComplete) s = act doLongComplete s := rfl
theorem exec_alertResponse (s : State) :
    exec (.alertResponse) s = act doAlertResponse s := rfl
theorem exec_busReset (s : State) :
    exec (.busReset) s = act doBusReset s := rfl
theorem exec_stwMboxCmd (a : RegAcc) (s : State) :
    exec (.stwMboxCmd a) s = act (cmdWrite 0xD00200 a) s := rfl
theorem exec_fenceDescriptor (run : Nat) (s : State) :
    exec (.fenceDescriptor run) s = act (onRun dFence run fenceTurn) s := rfl

/-- A command that is no event of the pins acts on a running block only, and by `act`. -/
theorem exec_is_act (c : Instr) (s : State) (hp : pinEvent c = false) :
    ∃ f, exec c s = act f s := by
  cases c with
  | coldResetAssert => cases hp
  | coldStart _ _ => cases hp
  | rootPllLock => cases hp
  | rootPllUnlock => cases hp
  | railOutOfTolerance => cases hp
  | lanePllUnlock port => exact ⟨_, exec_lanePllUnlock port s⟩
  | phaseEnd obs => exact ⟨_, exec_phaseEnd obs s⟩
  | registerWrite offset a => exact ⟨_, exec_registerWrite offset a s⟩
  | memReadData ch tag data err => exact ⟨_, exec_memReadData ch tag data err s⟩
  | memWriteResponse ch tag err => exact ⟨_, exec_memWriteResponse ch tag err s⟩
  | load r => exact ⟨_, exec_load r s⟩
  | loadRelaxed r => exact ⟨_, exec_loadRelaxed r s⟩
  | store r => exact ⟨_, exec_store r s⟩
  | storeRelaxed r => exact ⟨_, exec_storeRelaxed r s⟩
  | apertureAtomic r => exact ⟨_, exec_apertureAtomic r s⟩
  | atomicRelaxed r => exact ⟨_, exec_atomicRelaxed r s⟩
  | apertureFence r => exact ⟨_, exec_apertureFence r s⟩
  | interruptMessageTransfer => exact ⟨_, exec_interruptMessageTransfer s⟩
  | interruptTimeLimit p v => exact ⟨_, exec_interruptTimeLimit p v s⟩
  | translationReply data => exact ⟨_, exec_translationReply data s⟩
  | translationTimeout tag => exact ⟨_, exec_translationTimeout tag s⟩
  | tagSetAsideExpiry tag => exact ⟨_, exec_tagSetAsideExpiry tag s⟩
  | faultRecordWritten p err => exact ⟨_, exec_faultRecordWritten p err s⟩
  | result m => exact ⟨_, exec_result m s⟩
  | rotRequestTimeout tag => exact ⟨_, exec_rotRequestTimeout tag s⟩
  | setPolicy m => exact ⟨_, exec_setPolicy m s⟩
  | telemetrySample core lane09 lane12 => exact ⟨_, exec_telemetrySample core lane09 lane12 s⟩
  | policy a => exact ⟨_, exec_policy a s⟩
  | electricalIdleEntry port => exact ⟨_, exec_electricalIdleEntry port s⟩
  | electricalIdleExit port => exact ⟨_, exec_electricalIdleExit port s⟩
  | idleExitTimeout port => exact ⟨_, exec_idleExitTimeout port s⟩
  | setPower pec target => exact ⟨_, exec_setPower pec target s⟩
  | p2DrainComplete => exact ⟨_, exec_p2DrainComplete s⟩
  | p2DrainTimeout => exact ⟨_, exec_p2DrainTimeout s⟩
  | powerTransitionComplete => exact ⟨_, exec_powerTransitionComplete s⟩
  | setCeiling pec ceil shed => exact ⟨_, exec_setCeiling pec ceil shed s⟩
  | hostCeil a => exact ⟨_, exec_hostCeil a s⟩
  | throttleTick => exact ⟨_, exec_throttleTick s⟩
  | throttleInterval port begins => exact ⟨_, exec_throttleInterval port begins s⟩
  | detectPulse port => exact ⟨_, exec_detectPulse port s⟩
  | partnerSignalDetect port lanes => exact ⟨_, exec_partnerSignalDetect port lanes s⟩
  | trainingRetryTimer port => exact ⟨_, exec_trainingRetryTimer port s⟩
  | trainingStepComplete port obs => exact ⟨_, exec_trainingStepComplete port obs s⟩
  | laneBlock port lane header payload => exact ⟨_, exec_laneBlock port lane header payload s⟩
  | marker port lane payload => exact ⟨_, exec_marker port lane payload s⟩
  | train port lane payload => exact ⟨_, exec_train port lane payload s⟩
  | burst port lane => exact ⟨_, exec_burst port lane s⟩
  | idleEntry port lane => exact ⟨_, exec_idleEntry port lane s⟩
  | calender port logical spare epoch => exact ⟨_, exec_calender port logical spare epoch s⟩
  | loopReq port close lanes => exact ⟨_, exec_loopReq port close lanes s⟩
  | laneErrorWindow port corrected => exact ⟨_, exec_laneErrorWindow port corrected s⟩
  | laneTemperatureRead port temp => exact ⟨_, exec_laneTemperatureRead port temp s⟩
  | calenderStep port differing => exact ⟨_, exec_calenderStep port differing s⟩
  | calenderRetryTimer port => exact ⟨_, exec_calenderRetryTimer port s⟩
  | calenderAnswerTimeout port => exact ⟨_, exec_calenderAnswerTimeout port s⟩
  | calenderDeferExpiry port => exact ⟨_, exec_calenderDeferExpiry port s⟩
  | portRetrain port a => exact ⟨_, exec_portRetrain port a s⟩
  | passNow port a => exact ⟨_, exec_passNow port a s⟩
  | portLoopCtrl port a => exact ⟨_, exec_portLoopCtrl port a s⟩
  | flitReceived port bytes badCodeword => exact ⟨_, exec_flitReceived port bytes badCodeword s⟩
  | flitTransmit port => exact ⟨_, exec_flitTransmit port s⟩
  | ackOwedTimeout port => exact ⟨_, exec_ackOwedTimeout port s⟩
  | linkInit port protocol version endpoint peerPort width broke rxbuf => exact ⟨_, exec_linkInit port protocol version endpoint peerPort width broke rxbuf s⟩
  | rttProbe port tag => exact ⟨_, exec_rttProbe port tag s⟩
  | rttEcho port tag turn measured => exact ⟨_, exec_rttEcho port tag turn measured s⟩
  | nak port expected reason => exact ⟨_, exec_nak port expected reason s⟩
  | replayStart port first cause => exact ⟨_, exec_replayStart port first cause s⟩
  | cnak port cexpected => exact ⟨_, exec_cnak port cexpected s⟩
  | replayTimeout port => exact ⟨_, exec_replayTimeout port s⟩
  | replayStartWaitTimeout port => exact ⟨_, exec_replayStartWaitTimeout port s⟩
  | controlReplayTimeout port => exact ⟨_, exec_controlReplayTimeout port s⟩
  | pauseLimitExpiry port vcb => exact ⟨_, exec_pauseLimitExpiry port vcb s⟩
  | handover port deadPort expected nextTx => exact ⟨_, exec_handover port deadPort expected nextTx s⟩
  | handoverDone port deadPort flits => exact ⟨_, exec_handoverDone port deadPort flits s⟩
  | handoverTimeout port => exact ⟨_, exec_handoverTimeout port s⟩
  | twinHoldRelease port => exact ⟨_, exec_twinHoldRelease port s⟩
  | handbackMark port restored => exact ⟨_, exec_handbackMark port restored s⟩
  | park port parking => exact ⟨_, exec_park port parking s⟩
  | retrainReq port fullCal => exact ⟨_, exec_retrainReq port fullCal s⟩
  | fenceNotice port cause => exact ⟨_, exec_fenceNotice port cause s⟩
  | stuckNotice port vcb => exact ⟨_, exec_stuckNotice port vcb s⟩
  | misbehaviourWindow port => exact ⟨_, exec_misbehaviourWindow port s⟩
  | admitId port machineId endpoint peerPort => exact ⟨_, exec_admitId port machineId endpoint peerPort s⟩
  | admitNonce port nonce => exact ⟨_, exec_admitNonce port nonce s⟩
  | admitMac port part half => exact ⟨_, exec_admitMac port part half s⟩
  | admitResult port res cause => exact ⟨_, exec_admitResult port res cause s⟩
  | admissionTimeout port => exact ⟨_, exec_admissionTimeout port s⟩
  | admissionRestartTimer port => exact ⟨_, exec_admissionRestartTimer port s⟩
  | rankDigest port part half => exact ⟨_, exec_rankDigest port part half s⟩
  | routeBreak port dim link state origin seq => exact ⟨_, exec_routeBreak port dim link state origin seq s⟩
  | routeRestoreHoldExpiry dir => exact ⟨_, exec_routeRestoreHoldExpiry dir s⟩
  | transitForward port vcb m => exact ⟨_, exec_transitForward port vcb m s⟩
  | rteRank w a => exact ⟨_, exec_rteRank w a s⟩
  | rteRankCommit a => exact ⟨_, exec_rteRankCommit a s⟩
  | digestComputed => exact ⟨_, exec_digestComputed s⟩
  | read arr m => exact ⟨_, exec_read arr m s⟩
  | write arr m => exact ⟨_, exec_write arr m s⟩
  | cont arr m => exact ⟨_, exec_cont arr m s⟩
  | fillMessage arr m => exact ⟨_, exec_fillMessage arr m s⟩
  | atomic arr m => exact ⟨_, exec_atomic arr m s⟩
  | ack arr m => exact ⟨_, exec_ack arr m s⟩
  | readData arr m => exact ⟨_, exec_readData arr m s⟩
  | atomicResult arr m => exact ⟨_, exec_atomicResult arr m s⟩
  | release arr m => exact ⟨_, exec_release arr m s⟩
  | managementMessage arr m => exact ⟨_, exec_managementMessage arr m s⟩
  | openRunGapExpiry source tag => exact ⟨_, exec_openRunGapExpiry source tag s⟩
  | responseTimeout tracker => exact ⟨_, exec_responseTimeout tracker s⟩
  | replayEntryExpiry source tag => exact ⟨_, exec_replayEntryExpiry source tag s⟩
  | doorbell q a => exact ⟨_, exec_doorbell q a s⟩
  | ctxOpen c => exact ⟨_, exec_ctxOpen c s⟩
  | ctxClose c => exact ⟨_, exec_ctxClose c s⟩
  | qBind c => exact ⟨_, exec_qBind c s⟩
  | qUnbind c => exact ⟨_, exec_qUnbind c s⟩
  | qEnable c => exact ⟨_, exec_qEnable c s⟩
  | qHalt c => exact ⟨_, exec_qHalt c s⟩
  | qResume c => exact ⟨_, exec_qResume c s⟩
  | descriptorStart q => exact ⟨_, exec_descriptorStart q s⟩
  | copy run => exact ⟨_, exec_copy run s⟩
  | fill run => exact ⟨_, exec_fill run s⟩
  | digest run => exact ⟨_, exec_digest run s⟩
  | sealedCopy run => exact ⟨_, exec_sealedCopy run s⟩
  | prefetch run => exact ⟨_, exec_prefetch run s⟩
  | advise run => exact ⟨_, exec_advise run s⟩
  | wait run => exact ⟨_, exec_wait run s⟩
  | signal run => exact ⟨_, exec_signal run s⟩
  | trigger run => exact ⟨_, exec_trigger run s⟩
  | triggeredOperationRun id => exact ⟨_, exec_triggeredOperationRun id s⟩
  | collective run => exact ⟨_, exec_collective run s⟩
  | nop run => exact ⟨_, exec_nop run s⟩
  | doneWritten run => exact ⟨_, exec_doneWritten run s⟩
  | waitLimitExpiry run => exact ⟨_, exec_waitLimitExpiry run s⟩
  | periodEnd q => exact ⟨_, exec_periodEnd q s⟩
  | teardownResolved ctx => exact ⟨_, exec_teardownResolved ctx s⟩
  | quarantineExpiry ctx => exact ⟨_, exec_quarantineExpiry ctx s⟩
  | cntValue k a => exact ⟨_, exec_cntValue k a s⟩
  | cntAdd k a => exact ⟨_, exec_cntAdd k a s⟩
  | invalidate slot a => exact ⟨_, exec_invalidate slot a s⟩
  | invalidateComplete slot => exact ⟨_, exec_invalidateComplete slot s⟩
  | xltFqCfg p a => exact ⟨_, exec_xltFqCfg p a s⟩
  | xltFqPtrs p a => exact ⟨_, exec_xltFqPtrs p a s⟩
  | xltSticky w a => exact ⟨_, exec_xltSticky w a s⟩
  | enable w a => exact ⟨_, exec_enable w a s⟩
  | withdraw w a => exact ⟨_, exec_withdraw w a s⟩
  | windowWithdrawalComplete w => exact ⟨_, exec_windowWithdrawalComplete w s⟩
  | ringStepStart plan level ring => exact ⟨_, exec_ringStepStart plan level ring s⟩
  | pieceSend plan level x => exact ⟨_, exec_pieceSend plan level x s⟩
  | collOpen arr m => exact ⟨_, exec_collOpen arr m s⟩
  | collCont arr m => exact ⟨_, exec_collCont arr m s⟩
  | collCredit arr m => exact ⟨_, exec_collCredit arr m s⟩
  | collAbort arr m => exact ⟨_, exec_collAbort arr m s⟩
  | creditRepeatTimer plan level ring => exact ⟨_, exec_creditRepeatTimer plan level ring s⟩
  | beaterPieceDone beater obs => exact ⟨_, exec_beaterPieceDone beater obs s⟩
  | recomputeDone beater obs => exact ⟨_, exec_recomputeDone beater obs s⟩
  | stepLimitExpiry plan => exact ⟨_, exec_stepLimitExpiry plan s⟩
  | faultStallExpiry plan => exact ⟨_, exec_faultStallExpiry plan s⟩
  | scrubRow errs => exact ⟨_, exec_scrubRow errs s⟩
  | vatMarch a => exact ⟨_, exec_vatMarch a s⟩
  | marchComplete failed us => exact ⟨_, exec_marchComplete failed us s⟩
  | vatWinAddr a => exact ⟨_, exec_vatWinAddr a s⟩
  | vatWinData isWrite a => exact ⟨_, exec_vatWinData isWrite a s⟩
  | btrSelftest a => exact ⟨_, exec_btrSelftest a s⟩
  | selfTestComplete passed us => exact ⟨_, exec_selfTestComplete passed us s⟩
  | reset p a => exact ⟨_, exec_reset p a s⟩
  | partitionResetDrained p => exact ⟨_, exec_partitionResetDrained p s⟩
  | engineReset a => exact ⟨_, exec_engineReset a s⟩
  | engineResetMemoryDrained => exact ⟨_, exec_engineResetMemoryDrained s⟩
  | irqVecCtrl p v a => exact ⟨_, exec_irqVecCtrl p v a s⟩
  | hangScan => exact ⟨_, exec_hangScan s⟩
  | heartbeat => exact ⟨_, exec_heartbeat s⟩
  | watchdogFire => exact ⟨_, exec_watchdogFire s⟩
  | stewardRestartComplete => exact ⟨_, exec_stewardRestartComplete s⟩
  | errCtrlDrain a => exact ⟨_, exec_errCtrlDrain a s⟩
  | captureNow a => exact ⟨_, exec_captureNow a s⟩
  | arm a => exact ⟨_, exec_arm a s⟩
  | drainComplete => exact ⟨_, exec_drainComplete s⟩
  | identify pec => exact ⟨_, exec_identify pec s⟩
  | getEpoch pec => exact ⟨_, exec_getEpoch pec s⟩
  | readReg pec offset count => exact ⟨_, exec_readReg pec offset count s⟩
  | writeReg pec offset value mask => exact ⟨_, exec_writeReg pec offset value mask s⟩
  | telemetry pec => exact ⟨_, exec_telemetry pec s⟩
  | portStatus pec port => exact ⟨_, exec_portStatus pec port s⟩
  | retrain pec port fullCal => exact ⟨_, exec_retrain pec port fullCal s⟩
  | resetPartition pec p => exact ⟨_, exec_resetPartition pec p s⟩
  | resetEngineDomain pec => exact ⟨_, exec_resetEngineDomain pec s⟩
  | resetSteward pec => exact ⟨_, exec_resetSteward pec s⟩
  | resetCapture pec => exact ⟨_, exec_resetCapture pec s⟩
  | drain pec => exact ⟨_, exec_drain pec s⟩
  | rankWrite pec first entries => exact ⟨_, exec_rankWrite pec first entries s⟩
  | rankCommit pec => exact ⟨_, exec_rankCommit pec s⟩
  | reports pec ackSeq => exact ⟨_, exec_reports pec ackSeq s⟩
  | directedHold pec => exact ⟨_, exec_directedHold pec s⟩
  | directedStep pec => exact ⟨_, exec_directedStep pec s⟩
  | directedResume pec => exact ⟨_, exec_directedResume pec s⟩
  | directedLeave pec => exact ⟨_, exec_directedLeave pec s⟩
  | testDestructiveMarch pec => exact ⟨_, exec_testDestructiveMarch pec s⟩
  | testPreservingMarch pec => exact ⟨_, exec_testPreservingMarch pec s⟩
  | testBeaterSelfTest pec => exact ⟨_, exec_testBeaterSelfTest pec s⟩
  | testPortEnter pec port => exact ⟨_, exec_testPortEnter pec port s⟩
  | testPortExit pec port => exact ⟨_, exec_testPortExit pec port s⟩
  | testLoop pec port bits => exact ⟨_, exec_testLoop pec port bits s⟩
  | nvmRead pec offset len => exact ⟨_, exec_nvmRead pec offset len s⟩
  | nvmErase pec offset size => exact ⟨_, exec_nvmErase pec offset size s⟩
  | nvmWrite pec offset data => exact ⟨_, exec_nvmWrite pec offset data s⟩
  | nvmCheck pec slot => exact ⟨_, exec_nvmCheck pec slot s⟩
  | opState pec => exact ⟨_, exec_opState pec s⟩
  | longCommandComplete => exact ⟨_, exec_longCommandComplete s⟩
  | alertResponse => exact ⟨_, exec_alertResponse s⟩
  | busReset => exact ⟨_, exec_busReset s⟩
  | stwMboxCmd a => exact ⟨_, exec_stwMboxCmd a s⟩
  | fenceDescriptor run => exact ⟨_, exec_fenceDescriptor run s⟩

end Sys2Proof.Machine
end

