-- ==== Sys2Proof/Laws/Registers.lean ====
section
/-! SUPPORT. Register accesses: what an accepted write does, and the write that stands at the offset of each command that is a
register write (17 R457, R458). -/

namespace Sys2Proof.Machine

/-- An accepted write at an assigned offset is performed and answered 00 (17 R458). -/
theorem writeReg_done {side : Bool} {off par : Nat} {v : Word} {be : BitVec 8} {s t : State}
    (hr : noRequester par = false) (hy : (!side && !s.pins.ready) = false) (ho : outOfService par s = false)
    (ha : (readReg off s).isSome = true) (hn : off ≠ offWinData) (hw : wrAt off par v be s = some t) :
    writeReg side off par v be s = (rspDone, if be = 0 then s else t) := by
  have hi : (readReg off s).isNone = false := by
    cases h : readReg off s
    · simp [h] at ha
    · rfl
  simp [writeReg, hr, hy, ho, hi, hn, hw]

/-- The block behind a write of the command port that is accepted. -/
theorem cmdWrite_done {off : Nat} {a : RegAcc} {s t : State}
    (hr : noRequester a.par.toNat = false) (hy : s.pins.ready = true) (ho : outOfService a.par.toNat s = false)
    (ha : (readReg off s).isSome = true) (hn : off ≠ offWinData) (hb : a.be ≠ 0)
    (hw : wrAt off a.par.toNat a.value a.be s = some t) :
    cmdWrite off a s = { t with out := { t.out with cmdRsp := { rdata := 0, err := rspDone } } } := by
  unfold cmdWrite
  rw [writeReg_done (side := false) hr (by simp [hy]) ho ha hn hw, if_neg hb]

/-! ### Each block of registers answers for its own range of offsets (17 R448) -/

theorem wrAt_wrPort {o : Nat} (lo : 0x100000 ≤ o) (hi : o < 0x200000) : wrAt o = wrPort ((o - 0x100000) / 0x10000) (o % 0x10000) := by
  unfold wrAt; repeat first | rw [if_neg (by omega)] | rw [if_pos (by omega)]

theorem wrAt_wrRouting {o : Nat} (lo : 0x200000 ≤ o) (hi : o < 0x300000) : wrAt o = wrRouting (o - 0x200000) := by
  unfold wrAt; repeat first | rw [if_neg (by omega)] | rw [if_pos (by omega)]

theorem wrAt_wrDoorbellSlot {o : Nat} (lo : 0x400000 ≤ o) (hi : o < 0x500000) : wrAt o = wrDoorbellSlot (o - 0x400000) := by
  unfold wrAt; repeat first | rw [if_neg (by omega)] | rw [if_pos (by omega)]

theorem wrAt_wrContexts {o : Nat} (lo : 0x500000 ≤ o) (hi : o < 0x800000) : wrAt o = wrContexts (o - 0x500000) := by
  unfold wrAt; repeat first | rw [if_neg (by omega)] | rw [if_pos (by omega)]

theorem wrAt_wrXlt {o : Nat} (lo : 0x800000 ≤ o) (hi : o < 0x900000) : wrAt o = wrXlt (o - 0x800000) := by
  unfold wrAt; repeat first | rw [if_neg (by omega)] | rw [if_pos (by omega)]

theorem wrAt_wrPartitions {o : Nat} (lo : 0xB00000 ≤ o) (hi : o < 0xC00000) : wrAt o = wrPartitions (o - 0xB00000) := by
  unfold wrAt; repeat first | rw [if_neg (by omega)] | rw [if_pos (by omega)]

/-! ### What stands at an offset -/

theorem wrAt_pwrState : wrAt 0x10008 = privOnly wrPwrState := rfl
theorem wrAt_ceilHost : wrAt 0x10018 = privOnly wrCeilHost := rfl
theorem wrAt_rankCommit : wrAt 0x200040 = privOnly wrRankCommit := rfl
theorem wrAt_selfTest : wrAt 0x901030 = wrSelfTest := rfl
theorem wrAt_vatMarch : wrAt 0xA00028 = privOnly wrVatMarch := rfl
theorem wrAt_winAddr : wrAt 0xA00300 = wrWinAddr := rfl
theorem wrAt_parCtrl : wrAt 0xB00000 = privOnly wrParCtrl := rfl
theorem wrAt_errCtrl : wrAt 0xC00000 = privOnly wrErrCtrl := rfl
theorem wrAt_inject : wrAt 0xC00030 = privOnly wrInject := rfl
theorem wrAt_mboxCmd : wrAt 0xD00200 = privOnly wrMboxCmd := rfl

theorem wrAt_retrain (n : PortNo) : wrAt (0x1002C0 + 0x10000 * n) = privOnly (wrRetrain n) := by
  have h1 : (0x1002C0 + 0x10000 * n.val) % 0x10000 = 0x2C0 := by omega
  have h2 : (0x1002C0 + 0x10000 * n.val - 0x100000) / 0x10000 = n.val := by omega
  rw [wrAt_wrPort (by omega) (by omega), h1, h2]
  rfl

theorem wrAt_loopCtrl (n : PortNo) : wrAt (0x100270 + 0x10000 * n) = privOnly (wrLoopCtrl n) := by
  have h1 : (0x100270 + 0x10000 * n.val) % 0x10000 = 0x270 := by omega
  have h2 : (0x100270 + 0x10000 * n.val - 0x100000) / 0x10000 = n.val := by omega
  rw [wrAt_wrPort (by omega) (by omega), h1, h2]
  rfl

theorem wrAt_rank (w : Fin 65536) : wrAt (0x280000 + 8 * w) = privOnly (wrRank w) := by
  have h1 : 0x280000 + 8 * w.val - 0x200000 = 0x80000 + 8 * w.val := by omega
  have h2 : (0x80000 + 8 * w.val - 0x80000) / 8 = w.val := by omega
  rw [wrAt_wrRouting (by omega) (by omega), h1]
  unfold wrRouting
  repeat first | rw [if_neg (by omega)] | rw [if_pos (by omega)]
  rw [h2]

theorem wrAt_doorbell (q : QueueNo) : wrAt (0x400000 + 0x40 * q) = wrDoorbell q := by
  have h1 : 0x400000 + 0x40 * q.val - 0x400000 = 0x40 * q.val := by omega
  have h2 : queueNo (0x40 * q.val / 0x40) = q := Fin.ext (by show _ % 4096 = q.val; omega)
  rw [wrAt_wrDoorbellSlot (by omega) (by omega), h1]
  unfold wrDoorbellSlot
  repeat first | rw [if_neg (by omega)] | rw [if_pos (by omega)]
  rw [h2]

theorem wrAt_ctxCmd (r : Fin 17) : wrAt (0x500000 + 0x10 * r) = wrCtxCmd r := by
  have h1 : 0x500000 + 0x10 * r.val - 0x500000 = 0x10 * r.val := by omega
  have h2 : 0x10 * r.val / 0x10 = r.val := by omega
  rw [wrAt_wrContexts (by omega) (by omega), h1]
  unfold wrContexts
  repeat first | rw [if_neg (by omega)] | rw [if_pos (by omega)]
  rw [h2]

theorem wrAt_cntValue (k : Fin 65536) : wrAt (0x600000 + 8 * k) = wrCntValue k := by
  have h1 : 0x600000 + 8 * k.val - 0x500000 = 0x100000 + 8 * k.val := by omega
  have h2 : (0x100000 + 8 * k.val - 0x100000) / 8 = k.val := by omega
  rw [wrAt_wrContexts (by omega) (by omega), h1]
  unfold wrContexts
  repeat first | rw [if_neg (by omega)] | rw [if_pos (by omega)]
  rw [h2]

theorem wrAt_cntAdd (k : Fin 65536) : wrAt (0x680000 + 8 * k) = wrCntAdd k := by
  have h1 : 0x680000 + 8 * k.val - 0x500000 = 0x180000 + 8 * k.val := by omega
  have h2 : (0x180000 + 8 * k.val - 0x180000) / 8 = k.val := by omega
  rw [wrAt_wrContexts (by omega) (by omega), h1]
  unfold wrContexts
  repeat first | rw [if_neg (by omega)] | rw [if_pos (by omega)]
  rw [h2]

theorem wrAt_invCmd (r : Fin 17) : wrAt (0x800110 + 0x20 * r) = wrInvCmd r := by
  have h1 : 0x800110 + 0x20 * r.val - 0x800000 = 0x110 + 0x20 * r.val := by omega
  have h2 : (0x110 + 0x20 * r.val - 0x100) / 0x20 = r.val := by omega
  have h3 : (0x110 + 0x20 * r.val - 0x100) / 8 % 4 = 2 := by omega
  rw [wrAt_wrXlt (by omega) (by omega), h1]
  unfold wrXlt
  repeat first | rw [if_neg (by omega)] | rw [if_pos (by omega)]
  rw [h2, h3]
  rfl

theorem wrAt_fqCfg (p : PartNo) : wrAt (0x801008 + 0x20 * p) = wrFqCfg p := by
  have h1 : 0x801008 + 0x20 * p.val - 0x800000 = 0x1008 + 0x20 * p.val := by omega
  have h2 : partNo ((0x1008 + 0x20 * p.val - 0x1000) / 0x20) = p := Fin.ext (by show _ % 16 = p.val; omega)
  have h3 : (0x1008 + 0x20 * p.val - 0x1000) / 8 % 4 = 1 := by omega
  rw [wrAt_wrXlt (by omega) (by omega), h1]
  unfold wrXlt
  repeat first | rw [if_neg (by omega)] | rw [if_pos (by omega)]
  rw [h2, h3]
  rfl

theorem wrAt_fqPtrs (p : PartNo) : wrAt (0x801010 + 0x20 * p) = wrFqPtrs p := by
  have h1 : 0x801010 + 0x20 * p.val - 0x800000 = 0x1010 + 0x20 * p.val := by omega
  have h2 : partNo ((0x1010 + 0x20 * p.val - 0x1000) / 0x20) = p := Fin.ext (by show _ % 16 = p.val; omega)
  have h3 : (0x1010 + 0x20 * p.val - 0x1000) / 8 % 4 = 2 := by omega
  rw [wrAt_wrXlt (by omega) (by omega), h1]
  unfold wrXlt
  repeat first | rw [if_neg (by omega)] | rw [if_pos (by omega)]
  rw [h2, h3]
  rfl

theorem wrAt_sticky (w : Fin 16) : wrAt (0x802000 + 8 * w) = wrSticky w := by
  have h1 : 0x802000 + 8 * w.val - 0x800000 = 0x2000 + 8 * w.val := by omega
  rw [wrAt_wrXlt (by omega) (by omega), h1]
  unfold wrXlt
  repeat first | rw [if_neg (by omega)] | rw [if_pos (by omega)]
  exact congrArg wrSticky (Fin.ext (by show _ % 16 = w.val; omega))

theorem wrAt_winCtrl (w : Fin 4096) : wrAt (0x880020 + 0x40 * w) = wrWinCtrl w := by
  have h1 : 0x880020 + 0x40 * w.val - 0x800000 = 0x80020 + 0x40 * w.val := by omega
  have h2 : (0x80020 + 0x40 * w.val - 0x80000) / 0x40 = w.val := by omega
  have h3 : (0x80020 + 0x40 * w.val - 0x80000) % 0x40 = 0x20 := by omega
  rw [wrAt_wrXlt (by omega) (by omega), h1]
  unfold wrXlt
  repeat first | rw [if_neg (by omega)] | rw [if_pos (by omega)]
  rw [h2, h3]
  rfl

theorem wrAt_parState (p : PartNo) : wrAt (0xB00100 + 0x40 * p) = privOnly (wrParState p) := by
  have h1 : 0xB00100 + 0x40 * p.val - 0xB00000 = 0x100 + 0x40 * p.val := by omega
  have h2 : partNo ((0x100 + 0x40 * p.val - 0x100) / 0x40) = p := Fin.ext (by show _ % 16 = p.val; omega)
  have h3 : (0x100 + 0x40 * p.val - 0x100) % 0x40 = 0 := by omega
  rw [wrAt_wrPartitions (by omega) (by omega), h1]
  unfold wrPartitions
  repeat first | rw [if_neg (by omega)] | rw [if_pos (by omega)]
  rw [h2, h3]
  rfl

theorem wrAt_vecCtrl (p v : PartNo) : wrAt (0xB10008 + 0x200 * p + 0x20 * v) = wrVecCtrl p v := by
  have h1 : 0xB10008 + 0x200 * p.val + 0x20 * v.val - 0xB00000 = 0x10008 + 0x200 * p.val + 0x20 * v.val := by omega
  have h2 : partNo ((0x10008 + 0x200 * p.val + 0x20 * v.val - 0x10000) / 0x200) = p := Fin.ext (by show _ % 16 = p.val; omega)
  have h3 : (0x10008 + 0x200 * p.val + 0x20 * v.val - 0x10000) % 0x20 = 8 := by omega
  have h4 : partNo ((0x10008 + 0x200 * p.val + 0x20 * v.val - 0x10000) / 0x20) = v := Fin.ext (by show _ % 16 = v.val; omega)
  rw [wrAt_wrPartitions (by omega) (by omega), h1]
  unfold wrPartitions
  repeat first | rw [if_neg (by omega)] | rw [if_pos (by omega)]
  rw [h2, h3, h4]
  rfl

/-! ### Each of these offsets is assigned -/

theorem readReg_pwrState (s : State) : (readReg 0x10008 s).isSome = true := rfl

theorem readReg_ceilHost (s : State) : (readReg 0x10018 s).isSome = true := rfl

theorem readReg_rankCommit (s : State) : (readReg 0x200040 s).isSome = true := rfl

theorem readReg_selfTest (s : State) : (readReg 0x901030 s).isSome = true := rfl

theorem readReg_vatMarch (s : State) : (readReg 0xA00028 s).isSome = true := rfl

theorem readReg_winAddr (s : State) : (readReg 0xA00300 s).isSome = true := rfl

theorem readReg_winData (s : State) : (readReg 0xA00308 s).isSome = true := rfl

theorem readReg_parCtrl (s : State) : (readReg 0xB00000 s).isSome = true := rfl

theorem readReg_errCtrl (s : State) : (readReg 0xC00000 s).isSome = true := rfl

theorem readReg_inject (s : State) : (readReg 0xC00030 s).isSome = true := rfl

theorem readReg_mboxCmd (s : State) : (readReg 0xD00200 s).isSome = true := rfl

theorem readReg_retrain (n : PortNo) (s : State) : (readReg (0x1002C0 + 0x10000 * n) s).isSome = true := by
  have h : (0x1002C0 + 0x10000 * n.val) % 0x10000 = 0x2C0 := by omega
  unfold readReg
  repeat first | rw [if_neg (by omega)] | rw [if_pos (by omega)]
  rw [h]; rfl

theorem readReg_loopCtrl (n : PortNo) (s : State) : (readReg (0x100270 + 0x10000 * n) s).isSome = true := by
  have h : (0x100270 + 0x10000 * n.val) % 0x10000 = 0x270 := by omega
  unfold readReg
  repeat first | rw [if_neg (by omega)] | rw [if_pos (by omega)]
  rw [h]; rfl

theorem readReg_rank (w : Fin 65536) (s : State) : (readReg (0x280000 + 8 * w) s).isSome = true := by
  have h : 0x280000 + 8 * w.val - 0x200000 = 0x80000 + 8 * w.val := by omega
  unfold readReg
  repeat first | rw [if_neg (by omega)] | rw [if_pos (by omega)]
  rw [h]
  generalize ho : 0x80000 + 8 * w.val = o
  unfold rdRouting
  split <;> try omega
  simp only [arrayIx]
  repeat first | rw [if_neg (by omega)] | rw [if_pos (by omega)]
  rfl

theorem readReg_doorbell (q : QueueNo) (s : State) : (readReg (0x400000 + 0x40 * q) s).isSome = true := by
  unfold readReg
  repeat first | rw [if_neg (by omega)] | rw [if_pos (by omega)]
  simp only [rdDoorbell, Option.isSome_some]

theorem readReg_ctxCmd (r : Fin 17) (s : State) : (readReg (0x500000 + 0x10 * r) s).isSome = true := by
  have h : 0x500000 + 0x10 * r.val - 0x500000 = 0x10 * r.val := by omega
  unfold readReg
  repeat first | rw [if_neg (by omega)] | rw [if_pos (by omega)]
  rw [h]
  unfold rdContexts
  simp only [arrayIx]
  repeat first | rw [if_neg (by omega)] | rw [if_pos (by omega)]
  rfl

theorem readReg_cntValue (k : Fin 65536) (s : State) : (readReg (0x600000 + 8 * k) s).isSome = true := by
  have h : 0x600000 + 8 * k.val - 0x500000 = 0x100000 + 8 * k.val := by omega
  unfold readReg
  repeat first | rw [if_neg (by omega)] | rw [if_pos (by omega)]
  rw [h]
  unfold rdContexts
  simp only [arrayIx]
  repeat first | rw [if_neg (by omega)] | rw [if_pos (by omega)]
  rfl

theorem readReg_cntAdd (k : Fin 65536) (s : State) : (readReg (0x680000 + 8 * k) s).isSome = true := by
  have h : 0x680000 + 8 * k.val - 0x500000 = 0x180000 + 8 * k.val := by omega
  unfold readReg
  repeat first | rw [if_neg (by omega)] | rw [if_pos (by omega)]
  rw [h]
  unfold rdContexts
  simp only [arrayIx]
  repeat first | rw [if_neg (by omega)] | rw [if_pos (by omega)]
  rfl

theorem readReg_invCmd (r : Fin 17) (s : State) : (readReg (0x800110 + 0x20 * r) s).isSome = true := by
  have h : 0x800110 + 0x20 * r.val - 0x800000 = 0x110 + 0x20 * r.val := by omega
  have h1 : (0x110 + 0x20 * r.val - 0x100) / 8 % 4 = 2 := by omega
  unfold readReg
  repeat first | rw [if_neg (by omega)] | rw [if_pos (by omega)]
  rw [h]
  unfold rdXlt
  split <;> try omega
  simp only [arrayIx]
  repeat first | rw [if_neg (by omega)] | rw [if_pos (by omega)]
  rfl

theorem readReg_fqCfg (p : PartNo) (s : State) : (readReg (0x801008 + 0x20 * p) s).isSome = true := by
  have h : 0x801008 + 0x20 * p.val - 0x800000 = 0x1008 + 0x20 * p.val := by omega
  unfold readReg
  repeat first | rw [if_neg (by omega)] | rw [if_pos (by omega)]
  rw [h]
  unfold rdXlt
  split <;> try omega
  simp only [arrayIx]
  repeat first | rw [if_neg (by omega)] | rw [if_pos (by omega)]
  rfl

theorem readReg_fqPtrs (p : PartNo) (s : State) : (readReg (0x801010 + 0x20 * p) s).isSome = true := by
  have h : 0x801010 + 0x20 * p.val - 0x800000 = 0x1010 + 0x20 * p.val := by omega
  unfold readReg
  repeat first | rw [if_neg (by omega)] | rw [if_pos (by omega)]
  rw [h]
  unfold rdXlt
  split <;> try omega
  simp only [arrayIx]
  repeat first | rw [if_neg (by omega)] | rw [if_pos (by omega)]
  rfl

theorem readReg_sticky (w : Fin 16) (s : State) : (readReg (0x802000 + 8 * w) s).isSome = true := by
  have h : 0x802000 + 8 * w.val - 0x800000 = 0x2000 + 8 * w.val := by omega
  unfold readReg
  repeat first | rw [if_neg (by omega)] | rw [if_pos (by omega)]
  rw [h]
  unfold rdXlt
  split <;> try omega
  simp only [arrayIx]
  repeat first | rw [if_neg (by omega)] | rw [if_pos (by omega)]
  rfl

theorem readReg_winCtrl (w : Fin 4096) (s : State) : (readReg (0x880020 + 0x40 * w) s).isSome = true := by
  have h : 0x880020 + 0x40 * w.val - 0x800000 = 0x80020 + 0x40 * w.val := by omega
  have h2 : (0x80020 + 0x40 * w.val - 0x80000) % 0x40 = 0x20 := by omega
  unfold readReg
  repeat first | rw [if_neg (by omega)] | rw [if_pos (by omega)]
  rw [h]
  unfold rdXlt
  split <;> try omega
  simp only [arrayIx]
  repeat first | rw [if_neg (by omega)] | rw [if_pos (by omega)]
  rw [h2]
  rfl

theorem readReg_parState (p : PartNo) (s : State) : (readReg (0xB00100 + 0x40 * p) s).isSome = true := by
  have h : 0xB00100 + 0x40 * p.val - 0xB00000 = 0x100 + 0x40 * p.val := by omega
  have h2 : (0x100 + 0x40 * p.val - 0x100) % 0x40 = 0 := by omega
  unfold readReg
  repeat first | rw [if_neg (by omega)] | rw [if_pos (by omega)]
  rw [h]
  unfold rdPartitions
  repeat first | rw [if_neg (by omega)] | rw [if_pos (by omega)]
  rw [h2]
  rfl

theorem readReg_vecCtrl (p v : PartNo) (s : State) : (readReg (0xB10008 + 0x200 * p + 0x20 * v) s).isSome = true := by
  have h : 0xB10008 + 0x200 * p.val + 0x20 * v.val - 0xB00000 = 0x10008 + 0x200 * p.val + 0x20 * v.val := by omega
  have h2 : (0x10008 + 0x200 * p.val + 0x20 * v.val - 0x10000) % 0x20 = 8 := by omega
  unfold readReg
  repeat first | rw [if_neg (by omega)] | rw [if_pos (by omega)]
  rw [h]
  unfold rdPartitions
  repeat first | rw [if_neg (by omega)] | rw [if_pos (by omega)]
  rw [h2]
  rfl

end Sys2Proof.Machine
end

