-- ==== Sys2Proof/Laws/Table.lean ====
section
/-! SUPPORT. Sparse tables and the bytes of the Vat: what a read gives after a write, and that every operation keeps the
canonical form. -/

namespace Sys2Proof.Machine

/-! ### Reading -/

theorem tabGet_append {α : Type} (d : α) (n : Nat) (t u : Tab α) :
    tabGet d (t ++ u) n = if t.any (fun e => e.1 == n) then tabGet d t n else tabGet d u n := by
  induction t with
  | nil => simp
  | cons e t ih =>
    obtain ⟨k, v⟩ := e
    by_cases h : k = n
    · simp [tabGet, h]
    · have hb : (k == n) = false := by simpa using h
      simp only [List.cons_append, tabGet, if_neg h, List.any_cons, hb, Bool.false_or, ih]

theorem tabGet_none {α : Type} (d : α) (n : Nat) (t : Tab α) (h : t.any (fun e => e.1 == n) = false) :
    tabGet d t n = d := by
  induction t with
  | nil => rfl
  | cons e t ih =>
    obtain ⟨k, v⟩ := e
    simp only [List.any_cons, Bool.or_eq_false_iff, beq_eq_false_iff_ne] at h
    simp [tabGet, h.1, ih h.2]

/-- A filter that keeps a key leaves what the table holds there. -/
theorem tabGet_filter {α : Type} (d : α) (n : Nat) (p : Nat × α → Bool) (t : Tab α)
    (h : ∀ v, p (n, v) = true) : tabGet d (t.filter p) n = tabGet d t n := by
  induction t with
  | nil => rfl
  | cons e t ih =>
    obtain ⟨k, v⟩ := e
    by_cases hk : k = n
    · subst hk; simp [h, tabGet]
    · by_cases hp : p (k, v) = true <;> simp [hp, tabGet, hk, ih]

/-- A filter that drops a key leaves nothing there. -/
theorem tabAny_filter {α : Type} (n : Nat) (p : Nat × α → Bool) (t : Tab α)
    (h : ∀ v, p (n, v) = false) : (t.filter p).any (fun e => e.1 == n) = false := by
  rw [List.any_eq_false]
  rintro ⟨k, v⟩ hm
  simp only [List.mem_filter] at hm
  rintro hk
  have : k = n := by simpa using hk
  subst this
  simp [h v] at hm

@[simp] theorem tabGet_tabSet_self {α : Type} [DecidableEq α] (d : α) (n : Nat) (v : α) (t : Tab α) :
    tabGet d (tabSet d n v t) n = v := by
  unfold tabSet
  rw [List.append_assoc, tabGet_append, tabAny_filter n _ t (by simp)]
  by_cases h : v = d
  · simp only [h, if_true, List.nil_append, Bool.false_eq_true, if_false]
    exact tabGet_none d n _ (tabAny_filter n _ t (by simp))
  · simp [h, tabGet]

theorem tabGet_tabSet_ne {α : Type} [DecidableEq α] (d : α) (n m : Nat) (v : α) (t : Tab α) (h : m ≠ n) :
    tabGet d (tabSet d n v t) m = tabGet d t m := by
  unfold tabSet
  rw [List.append_assoc, tabGet_append]
  have mid : tabGet d ((if v = d then [] else [(n, v)]) ++ t.filter (fun e => decide (n < e.1))) m =
      tabGet d (t.filter (fun e => decide (n < e.1))) m := by
    by_cases hv : v = d <;> simp [hv, tabGet, Ne.symm h]
  rw [mid]
  rcases Nat.lt_or_gt_of_ne h with hl | hg
  · split
    · exact tabGet_filter d m _ t (by simp [hl])
    · rename_i hn
      rw [tabGet_none d m (t.filter (fun e => decide (n < e.1))) (tabAny_filter m _ t (by simp; omega)),
        ← tabGet_filter d m (fun e => decide (e.1 < n)) t (by simp [hl]),
        tabGet_none d m _ (Bool.eq_false_iff.2 hn)]
  · rw [tabAny_filter m (fun e => decide (e.1 < n)) t (by simp; omega)]
    simpa using tabGet_filter d m _ t (by simp [hg])

@[simp] theorem tabGet_tabMod_self {α : Type} [DecidableEq α] (d : α) (n : Nat) (f : α → α) (t : Tab α) :
    tabGet d (tabMod d n f t) n = f (tabGet d t n) := by simp [tabMod]

theorem tabGet_tabMod_ne {α : Type} [DecidableEq α] (d : α) (n m : Nat) (f : α → α) (t : Tab α) (h : m ≠ n) :
    tabGet d (tabMod d n f t) m = tabGet d t m := by simp [tabMod, tabGet_tabSet_ne _ _ _ _ _ h]

/-! ### The canonical form -/

theorem tabWfFrom_le {α : Type} [DecidableEq α] (d : α) (a b : Nat) (t : Tab α) (h : a ≤ b)
    (w : tabWfFrom d b t = true) : tabWfFrom d a t = true := by
  cases t with
  | nil => rfl
  | cons e t =>
    obtain ⟨k, v⟩ := e
    simp only [tabWfFrom, Bool.and_eq_true, decide_eq_true_eq] at w ⊢
    exact ⟨⟨by omega, w.1.2⟩, w.2⟩

theorem tabWfFrom_filter {α : Type} [DecidableEq α] (d : α) (p : Nat × α → Bool) (a : Nat) (t : Tab α)
    (w : tabWfFrom d a t = true) : tabWfFrom d a (t.filter p) = true := by
  induction t generalizing a with
  | nil => rfl
  | cons e t ih =>
    obtain ⟨k, v⟩ := e
    simp only [tabWfFrom, Bool.and_eq_true, decide_eq_true_eq] at w
    have h := ih (k + 1) w.2
    by_cases hp : p (k, v) = true
    · simp [hp, tabWfFrom, w.1.1, w.1.2, h]
    · simp only [List.filter_cons, hp, Bool.false_eq_true, if_false]
      exact tabWfFrom_le d a (k + 1) _ (by omega) h

/-- Dropping the keys below a bound leaves a table that starts there. -/
theorem tabWfFrom_above {α : Type} [DecidableEq α] (d : α) (a n : Nat) (t : Tab α)
    (w : tabWfFrom d a t = true) (h : ∀ e ∈ t, n ≤ e.1) : tabWfFrom d n t = true := by
  cases t with
  | nil => rfl
  | cons e t =>
    obtain ⟨k, v⟩ := e
    simp only [tabWfFrom, Bool.and_eq_true, decide_eq_true_eq] at w ⊢
    exact ⟨⟨h (k, v) (by simp), w.1.2⟩, w.2⟩

theorem tabWfFrom_append {α : Type} [DecidableEq α] (d : α) (a n : Nat) (t u : Tab α)
    (ht : tabWfFrom d a t = true) (hu : tabWfFrom d n u = true) (ha : a ≤ n) (hk : ∀ e ∈ t, e.1 < n) :
    tabWfFrom d a (t ++ u) = true := by
  induction t generalizing a with
  | nil => exact tabWfFrom_le d a n u ha hu
  | cons e t ih =>
    obtain ⟨k, v⟩ := e
    simp only [tabWfFrom, Bool.and_eq_true, decide_eq_true_eq, List.cons_append] at ht ⊢
    have := hk (k, v) (by simp)
    exact ⟨ht.1, ih (k + 1) ht.2 (Nat.succ_le_of_lt this) (fun e he => hk e (by simp [he]))⟩

/-- The last of two writes of one key stays. -/
theorem tabSet_tabSet {α : Type} [DecidableEq α] (d : α) (n : Nat) (v w : α) (t : Tab α) :
    tabSet d n v (tabSet d n w t) = tabSet d n v t := by
  have h1 : ∀ l : Tab α, (∀ e ∈ l, ¬ e.1 < n) → l.filter (fun e => decide (e.1 < n)) = [] := by
    intro l h; rw [List.filter_eq_nil_iff]; intro e he; simpa using h e he
  have h2 : ∀ l : Tab α, (∀ e ∈ l, ¬ n < e.1) → l.filter (fun e => decide (n < e.1)) = [] := by
    intro l h; rw [List.filter_eq_nil_iff]; intro e he; simpa using h e he
  have e1 : ((if w = d then [] else [(n, w)] : Tab α)).filter (fun e => decide (e.1 < n)) = [] :=
    h1 _ (by intro e he; split at he <;> simp_all)
  have e2 : ((if w = d then [] else [(n, w)] : Tab α)).filter (fun e => decide (n < e.1)) = [] :=
    h2 _ (by intro e he; split at he <;> simp_all)
  have e3 : (t.filter (fun e => decide (n < e.1))).filter (fun e => decide (e.1 < n)) = [] :=
    h1 _ (by intro e he; simp at he; omega)
  have e4 : (t.filter (fun e => decide (e.1 < n))).filter (fun e => decide (n < e.1)) = [] :=
    h2 _ (by intro e he; simp at he; omega)
  simp only [tabSet, List.filter_append, e1, e2, e3, e4, List.append_nil, List.nil_append, List.filter_filter, Bool.and_self]

/-- Two changes of one key in turn. -/
theorem tabMod_tabMod {α : Type} [DecidableEq α] (d : α) (n : Nat) (f g : α → α) (t : Tab α) :
    tabMod d n f (tabMod d n g t) = tabMod d n (fun x => f (g x)) t := by
  simp only [tabMod, tabSet_tabSet, tabGet_tabSet_self]

/-- Setting a key keeps the canonical form. -/
theorem tabSet_wf {α : Type} [DecidableEq α] (d : α) (n : Nat) (v : α) (t : Tab α) (w : tabWf d t = true) :
    tabWf d (tabSet d n v t) = true := by
  unfold tabWf tabSet at *
  rw [List.append_assoc]
  refine tabWfFrom_append d 0 n _ _ (tabWfFrom_filter d _ 0 t w) ?_ (Nat.zero_le n)
    (by intro e he; simpa using (List.mem_filter.1 he).2)
  have hi : tabWfFrom d (n + 1) (t.filter (fun e => decide (n < e.1))) = true :=
    tabWfFrom_above d 0 (n + 1) _ (tabWfFrom_filter d _ 0 t w)
      (by intro e he; have := (List.mem_filter.1 he).2; simp at this; omega)
  by_cases h : v = d
  · simpa [h] using tabWfFrom_le d n (n + 1) _ (by omega) hi
  · simp [h, tabWfFrom, hi]

theorem tabMod_wf {α : Type} [DecidableEq α] (d : α) (n : Nat) (f : α → α) (t : Tab α) (w : tabWf d t = true) :
    tabWf d (tabMod d n f t) = true := tabSet_wf d n _ t w

/-! ### The bytes of the Vat (13 R358) -/

namespace Memory

/-- Read after write. -/
@[simp] theorem read_write_self (m : List Host.Cell) (a : Nat) (b : Byte) : read (write m a b) a = b :=
  tabGet_tabSet_self 0 a b m

theorem read_write_ne (m : List Host.Cell) (a c : Nat) (b : Byte) (h : c ≠ a) : read (write m a b) c = read m c :=
  tabGet_tabSet_ne 0 a c b m h

theorem write_wf (m : List Host.Cell) (a : Nat) (b : Byte) (w : wf m = true) : wf (write m a b) = true :=
  tabSet_wf 0 a b m w

/-- The cells that a string of bytes lists from an address on. -/
def cells (bs : List Byte) (a : Nat) : List Host.Cell :=
  (bs.zipIdx a).filterMap (fun x => if x.1 = 0 then none else some (x.2, x.1))

theorem cells_cons (b : Byte) (bs : List Byte) (a : Nat) :
    cells (b :: bs) a = (if b = 0 then [] else [(a, b)]) ++ cells bs (a + 1) := by
  unfold cells
  rw [List.zipIdx_cons, List.filterMap_cons]
  by_cases h : b = 0
  · rw [if_pos h, if_pos h]; rfl
  · rw [if_neg h, if_neg h]; rfl

theorem cells_range (bs : List Byte) (a : Nat) : ∀ e ∈ cells bs a, a ≤ e.1 ∧ e.1 < a + bs.length := by
  induction bs generalizing a with
  | nil => simp [cells]
  | cons b bs ih =>
    intro e he
    rw [cells_cons] at he
    rcases List.mem_append.1 he with h | h
    · by_cases hb : b = 0
      · rw [if_pos hb] at h; simp at h
      · rw [if_neg hb, List.mem_singleton] at h
        subst h; simp
    · have := ih (a + 1) e h
      simp only [List.length_cons]; omega

theorem cells_wf (bs : List Byte) (a : Nat) : tabWfFrom (0 : Byte) a (cells bs a) = true := by
  induction bs generalizing a with
  | nil => rfl
  | cons b bs ih =>
    rw [cells_cons]
    by_cases hb : b = 0
    · rw [if_pos hb]
      exact tabWfFrom_le 0 a (a + 1) _ (by omega) (ih (a + 1))
    · rw [if_neg hb]
      simp only [List.cons_append, List.nil_append, tabWfFrom, ih (a + 1), Bool.and_true, Bool.and_eq_true, decide_eq_true_eq]
      exact ⟨Nat.le_refl a, hb⟩

theorem read_cells (bs : List Byte) (a c : Nat) :
    tabGet 0 (cells bs a) c = if a ≤ c then bs.getD (c - a) 0 else 0 := by
  induction bs generalizing a with
  | nil => simp [cells, tabGet]
  | cons b bs ih =>
    rw [cells_cons]
    by_cases hb : b = 0
    · rw [if_pos hb, List.nil_append, ih]
      by_cases h : a ≤ c
      · by_cases h1 : a + 1 ≤ c
        · obtain ⟨k, rfl⟩ : ∃ k, c = a + 1 + k := ⟨c - (a + 1), by omega⟩
          have e : a + 1 + k - a = k + 1 := by omega
          simp [h, h1, e]
        · have : c = a := by omega
          subst this; rw [if_neg h1, if_pos h, hb, Nat.sub_self]; rfl
      · have h1 : ¬ a + 1 ≤ c := by omega
        simp [h, h1]
    · rw [if_neg hb]
      simp only [List.cons_append, List.nil_append, tabGet, ih]
      by_cases h : a = c
      · subst h; simp
      · by_cases h1 : a + 1 ≤ c
        · obtain ⟨k, rfl⟩ : ∃ k, c = a + 1 + k := ⟨c - (a + 1), by omega⟩
          have e : a + 1 + k - a = k + 1 := by omega
          have h2 : a ≤ a + 1 + k := by omega
          simp [h1, h2, h, e]
        · have h2 : ¬ a ≤ c := by omega
          simp [h, h1, h2]

theorem writeBytes_eq (m : List Host.Cell) (a : Nat) (bs : List Byte) :
    writeBytes m a bs = m.filter (fun c => decide (c.1 < a)) ++ cells bs a ++
      m.filter (fun c => decide (a + bs.length ≤ c.1)) := rfl

/-- What any address reads after a string of bytes has been written. -/
theorem read_writeBytes (m : List Host.Cell) (a : Nat) (bs : List Byte) (c : Nat) :
    read (writeBytes m a bs) c = if a ≤ c ∧ c < a + bs.length then bs.getD (c - a) 0 else read m c := by
  rw [writeBytes_eq]
  unfold read
  rw [List.append_assoc, tabGet_append]
  by_cases h1 : c < a
  · have n2 : ¬ (a ≤ c ∧ c < a + bs.length) := by omega
    have hc : (cells bs a).any (fun e => e.1 == c) = false := by
      rw [List.any_eq_false]; intro e he; have := cells_range bs a e he; simp; omega
    rw [if_neg n2]
    split
    · exact tabGet_filter 0 c _ m (by simp [h1])
    · rename_i hn
      rw [tabGet_append, hc]
      simp only [Bool.false_eq_true, if_false]
      rw [tabGet_none 0 c _ (tabAny_filter c (fun e => decide (a + bs.length ≤ e.1)) m (by simp; omega)),
        ← tabGet_filter 0 c (fun e => decide (e.1 < a)) m (by simp [h1]), tabGet_none 0 c _ (Bool.eq_false_iff.2 hn)]
  · rw [tabAny_filter c (fun e => decide (e.1 < a)) m (by simp; omega)]
    simp only [Bool.false_eq_true, if_false]
    rw [tabGet_append]
    by_cases h2 : c < a + bs.length
    · rw [if_pos (by omega : a ≤ c ∧ c < a + bs.length)]
      split
      · rw [read_cells, if_pos (by omega)]
      · rename_i hn
        rw [tabGet_none 0 c _ (tabAny_filter c (fun e => decide (a + bs.length ≤ e.1)) m (by simp; omega))]
        have := read_cells bs a c
        rw [tabGet_none 0 c _ (Bool.eq_false_iff.2 hn), if_pos (by omega)] at this
        exact this
    · have hc : (cells bs a).any (fun e => e.1 == c) = false := by
        rw [List.any_eq_false]; intro e he; have := cells_range bs a e he; simp; omega
      have n2 : ¬ (a ≤ c ∧ c < a + bs.length) := by omega
      have h3 : a + bs.length ≤ c := by omega
      rw [hc, if_neg n2]
      simp only [Bool.false_eq_true, if_false]
      exact tabGet_filter 0 c (fun e => decide (a + bs.length ≤ e.1)) m (by intro _; simpa using h3)

/-- Writing a string of bytes keeps the canonical form. -/
theorem writeBytes_wf (m : List Host.Cell) (a : Nat) (bs : List Byte) (w : wf m = true) :
    wf (writeBytes m a bs) = true := by
  unfold wf tabWf at *
  rw [writeBytes_eq, List.append_assoc]
  refine tabWfFrom_append 0 0 a _ _ (tabWfFrom_filter 0 _ 0 m w) ?_ (Nat.zero_le a)
    (by intro e he; simpa using (List.mem_filter.1 he).2)
  refine tabWfFrom_append 0 a (a + bs.length) _ _ (cells_wf bs a) ?_ (by omega) (fun e he => (cells_range bs a e he).2)
  exact tabWfFrom_above 0 0 _ _ (tabWfFrom_filter 0 _ 0 m w)
    (by intro e he; simpa using (List.mem_filter.1 he).2)

/-- Clearing a range keeps the canonical form. -/
theorem filter_wf (m : List Host.Cell) (p : Host.Cell → Bool) (w : wf m = true) : wf (m.filter p) = true :=
  tabWfFrom_filter 0 p 0 m w

end Memory

end Sys2Proof.Machine
end

