-- ==== Sys2Proof/Laws/Shared.lean ====
section
/-! SUPPORT. What the shared operations do: one lemma per operation, for proofs to cite instead of unfolding it. -/

namespace Sys2Proof.Machine

/-- A command of a running block answers its operation's state, with what it set going carried out. -/
theorem runs_of {c : Instr} {s t : State} {f : State → State} (he : exec c s = act f s) (hl : live s = true) (ht : f s = t) : Runs c s t := by
  subst ht; simp only [Runs, he, act, hl, if_true]

/-- A command of a block that does not run changes nothing (02 R28, R54). -/
theorem act_stopped {s : State} (f : State → State) (hl : live s = false) : act f s = .next s := by simp [act, hl]

/-- A state that nothing waits in is left as it is. -/
theorem settle_quiet {t : State} (h : quiet t = true) : settle t = t := by simp [settle, h]

/-- A map written from a list of lanes reads as the list. -/
theorem tabGet_zipIdx (g : List Nat) (k i : Nat) :
    tabGet (0xF : BitVec 4) ((g.zipIdx k).map (fun x => (x.2, BitVec.ofNat 4 x.1))) i =
      if i < k then 0xF else (g[i - k]?.map (BitVec.ofNat 4)).getD 0xF := by
  induction g generalizing k with
  | nil => simp [tabGet]
  | cons a g ih =>
    rw [List.zipIdx_cons, List.map_cons]
    by_cases h : k = i
    · subst h; simp [tabGet]
    · have : tabGet (0xF : BitVec 4) ((k, BitVec.ofNat 4 a) :: (g.zipIdx (k + 1)).map (fun x => (x.2, BitVec.ofNat 4 x.1))) i =
          tabGet 0xF ((g.zipIdx (k + 1)).map (fun x => (x.2, BitVec.ofNat 4 x.1))) i := by
        simp [tabGet, h]
      rw [this, ih]
      by_cases h1 : i < k
      · rw [if_pos h1, if_pos (by omega)]
      · rw [if_neg h1, if_neg (by omega)]
        have : i - k = (i - (k + 1)) + 1 := by omega
        rw [this, List.getElem?_cons_succ]

/-- A requester that may write is known and in service. -/
theorem mayWrite_requester {a : RegAcc} {s : State} (h : MayWrite a s) :
    noRequester a.par.toNat = false ∧ outOfService a.par.toNat s = false := by
  rcases h.who with h | ⟨h1, h2⟩
  · rw [h]; exact ⟨rfl, rfl⟩
  · constructor
    · simp [noRequester]; omega
    · simp [outOfService, h2]

/-- A write of privileged software may be made. -/
theorem hostWrite_mayWrite {a : RegAcc} {s : State} (h : HostWrite a s) : MayWrite a s := ⟨h.ready, h.enabled, .inl h.who⟩

/-- A write that its register takes is answered DONE and has its effect. -/
theorem cmdWrite_accepted {off : Nat} {a : RegAcc} {s t : State} (h : MayWrite a s) (hr : (readReg off s).isSome = true)
    (hn : off ≠ offWinData) (hw : wrAt off a.par.toNat a.value a.be s = some t) : cmdWrite off a s = answered 0 t :=
  cmdWrite_done (mayWrite_requester h).1 h.ready.2 (mayWrite_requester h).2 hr hn h.enabled hw

/-- A write that its register refuses is answered REFUSED and recorded in ID_ACCESS_ERR, with no other effect (17 R460). -/
theorem cmdWrite_refused {off : Nat} {a : RegAcc} {s : State} (h : MayWrite a s) (hr : (readReg off s).isSome = true)
    (hn : off ≠ offWinData) (hw : wrAt off a.par.toNat a.value a.be s = none) :
    cmdWrite off a s = answered 1 { s with access :=
      { count := satInc s.access.count, offset := BitVec.ofNat 24 off, par := a.par, kind := 1, wasWrite := true } } := by
  have hi : (readReg off s).isNone = false := by
    cases h : readReg off s
    · simp [h] at hr
    · rfl
  have := mayWrite_requester h
  simp [cmdWrite, writeReg, this.1, this.2, h.ready.2, hi, hn, hw, refuseAccess, recordErr, answered, rspRefused, akRefused]

/-- A command that is a write of a register runs by that register's write. -/
theorem runs_write {c : Instr} {off : Nat} {a : RegAcc} {s t : State} (he : exec c s = act (cmdWrite off a) s) (h : MayWrite a s)
    (hr : (readReg off s).isSome = true) (hn : off ≠ offWinData) (hw : wrAt off a.par.toNat a.value a.be s = some t) :
    Runs c s (answered 0 t) := runs_of he h.ready.1 (cmdWrite_accepted h hr hn hw)

/-- The same for a register that only privileged software writes. -/
theorem runs_hostWrite {c : Instr} {off : Nat} {a : RegAcc} {s t : State} {f : RegFun} (he : exec c s = act (cmdWrite off a) s) (h : HostWrite a s)
    (hr : (readReg off s).isSome = true) (hn : off ≠ offWinData) (hw : wrAt off = privOnly f) (ht : f a.par.toNat a.value a.be s = some t) :
    Runs c s (answered 0 t) := by
  refine runs_write he (hostWrite_mayWrite h) hr hn ?_
  have : a.par.toNat = parPriv := by rw [h.who]; rfl
  simp [hw, privOnly, this]; rw [← this]; exact ht

/-- With every byte enabled every field is enabled. -/
theorem fieldEnabled_all (lo w : Nat) : fieldEnabled 0xFF lo w = true := by
  simp only [fieldEnabled, List.all_eq_true, List.mem_range]
  intro k hk
  have : (0xFF : BitVec 8).getLsbD k = true := by
    match k, hk with
    | 0, _ => rfl
    | 1, _ => rfl
    | 2, _ => rfl
    | 3, _ => rfl
    | 4, _ => rfl
    | 5, _ => rfl
    | 6, _ => rfl
    | 7, _ => rfl
  rw [this]; rfl

/-- The mask of all bytes. -/
theorem beMask_all : beMask 0xFF = BitVec.allOnes 64 := by decide

/-- The mask of all bytes keeps a value. -/
theorem and_beMask_all (v : Word) : v &&& BitVec.allOnes 64 = v := BitVec.and_allOnes

/-- A write of all bytes writes the value. -/
theorem mergeBytes_all (o v : Word) : mergeBytes o v 0xFF = v := by
  simp only [mergeBytes, beMask_all, and_beMask_all, BitVec.not_allOnes, BitVec.and_zero, BitVec.or_zero]

/-- A field is a slice of the bits. -/
theorem fld_eq_extract (v : Word) (lo w : Nat) : fld v lo w = (v.extractLsb' lo w).toNat := by
  simp [fld, bitsOf, BitVec.extractLsb'_toNat, Nat.shiftRight_eq_div_pow]

/-- The fields of a context command (09 R252). -/
theorem ctxCmd_fields (c : CtxCmd) (code : Nat) (hc : code < 256) :
    fld (c.arg ++ c.rsv ++ c.object ++ BitVec.ofNat 8 code) 0 8 = code ∧
    fld (c.arg ++ c.rsv ++ c.object ++ BitVec.ofNat 8 code) 8 16 = c.object.toNat ∧
    fld (c.arg ++ c.rsv ++ c.object ++ BitVec.ofNat 8 code) 32 32 = c.arg.toNat := by
  refine ⟨?_, ?_, ?_⟩
  · rw [fld_eq_extract]
    have : (c.arg ++ c.rsv ++ c.object ++ BitVec.ofNat 8 code).extractLsb' 0 8 = BitVec.ofNat 8 code := by
      apply BitVec.eq_of_getLsbD_eq; intro i hi
      have h1 : 0 + i < 8 := by omega
      simp only [BitVec.getLsbD_extractLsb', BitVec.getLsbD_append, decide_true, hi, Bool.true_and, Nat.zero_add, if_true]
    rw [this]; simp; omega
  · rw [fld_eq_extract]
    have : (c.arg ++ c.rsv ++ c.object ++ BitVec.ofNat 8 code).extractLsb' 8 16 = c.object := by
      apply BitVec.eq_of_getLsbD_eq; intro i hi
      have h1 : ¬ (8 + i < 8) := by omega
      have h2 : 8 + i - 8 = i := by omega
      simp only [BitVec.getLsbD_extractLsb', BitVec.getLsbD_append, h1, hi, decide_true, Bool.true_and, h2, if_false, if_true]
    rw [this]
  · rw [fld_eq_extract]
    have : (c.arg ++ c.rsv ++ c.object ++ BitVec.ofNat 8 code).extractLsb' 32 32 = c.arg := by
      apply BitVec.eq_of_getLsbD_eq; intro i hi
      have h1 : ¬ (32 + i < 8) := by omega
      have h2 : ¬ (32 + i - 8 < 16) := by omega
      have h3 : ¬ (32 + i - 8 - 16 < 8) := by omega
      simp only [BitVec.getLsbD_extractLsb', BitVec.getLsbD_append, h1, h2, h3, hi, decide_true, Bool.true_and]
      simp only [show 32 + i - 8 - 16 - 8 = i by omega]
      simp
    rw [this]

/-- A context command runs by the operation of its code, in its slot (09 R252). -/
theorem runs_ctxCommand {s : State} {c : CtxCmd} {ins : Instr} (code : Nat) (hc : code < 256) (he : exec ins s = act (ctxCommand code c) s)
    (ho : slotOwner c.slot c.par.toNat = true) (hm : MayWrite { par := c.par, be := 0xFF, value := 0 } s) {k : Byte} {t : State}
    (hr : cmdRun c.par.toNat code c.object.toNat c.arg.toNat s = (k, t)) : Runs ins s (answered 0 (slotTakes c.slot code k t)) := by
  have hf := ctxCmd_fields c code hc
  refine runs_write (a := { par := c.par, be := 0xFF, value := c.arg ++ c.rsv ++ c.object ++ BitVec.ofNat 8 code }) (off := 0x500000 + 0x10 * c.slot) he ⟨hm.ready, hm.enabled, hm.who⟩
    (readReg_ctxCmd c.slot s) (by simp [offWinData]; omega) ?_
  rw [wrAt_ctxCmd]
  simp only [wrCtxCmd, ho, fieldEnabled_all 0 8, fieldEnabled_all 8 16, fieldEnabled_all 32 32, if_true, hf.1, hf.2.1, hf.2.2, takeCmd, hr]
  rfl

/-- A control packet that is taken runs by its operation (06 R158). -/
theorem runs_packet {c : Instr} {s u t : State} {n : PortNo} {typ : Byte} {part : Bool} {body : List Byte} {f : State → State}
    (h : Takes c s u) (hc : ctrlOf c = some (n, typ, part, body)) (he : exec c s = act (onPacket n typ part body f) s) (ht : f u = t) :
    Runs c s t := by
  obtain ⟨hl, n', typ', part', body', hc', ha, hu⟩ := h
  rw [hc] at hc'
  obtain ⟨rfl, rfl, rfl, rfl⟩ : n = n' ∧ typ = typ' ∧ part = part' ∧ body = body' := by
    injection hc' with e; injection e with e1 e2; injection e2 with e2 e3; injection e3 with e3 e4; exact ⟨e1, e2, e3, e4⟩
  exact runs_of he hl (by rw [onPacket, if_pos ha, ← hu, ht])

/-- A control packet that the port's state forbids counts as malformed on a link that is up, and is ignored otherwise (06 R182). -/
theorem runs_packet_refused {c : Instr} {s : State} {n : PortNo} {typ : Byte} {part : Bool} {body : List Byte} {f : State → State} (hl : live s = true)
    (he : exec c s = act (onPacket n typ part body f) s) (h2 : ctrlAllowed (portOf s n) typ = false) :
    Runs c s (if linkUp (portOf s n) then malformedAt n (fromInbox n typ part body s) else fromInbox n typ part body s) :=
  runs_of he hl (by simp only [onPacket, h2, Bool.false_eq_true, if_false])

/-- A piece of a span lies in it, has at most a unit, and crosses no multiple of the unit. -/
theorem mem_memPieces (u : Nat) (hu : 0 < u) (fuel a n off : Nat) : ∀ x ∈ memPieces u fuel a n off,
    a ≤ x.1 ∧ x.1 + x.2.1 ≤ a + n ∧ x.2.1 ≤ u ∧ (x.1 + x.2.1 - 1) / u = x.1 / u := by
  induction fuel generalizing a n off with
  | zero => intro x hx; cases hx
  | succ f ih =>
    intro x hx
    unfold memPieces at hx
    by_cases hn : n = 0
    · simp [hn] at hx
    · simp only [hn, if_false] at hx
      have hm := Nat.mod_lt a hu
      rcases List.mem_cons.mp hx with rfl | hx
      · refine ⟨Nat.le_refl _, by simp only; omega, by simp only; omega, ?_⟩
        simp only
        have hd := Nat.div_add_mod a u
        have h1 : a + min n (u - a % u) - 1 = u * (a / u) + (a % u + min n (u - a % u) - 1) := by omega
        have h0 : (a % u + min n (u - a % u) - 1) / u = 0 := Nat.div_eq_of_lt (by omega)
        rw [h1, Nat.mul_add_div hu, h0]; rfl
      · have := ih _ _ _ x hx
        omega

/-- The unit divides the granule and is at most 1 KiB (02 R31, R32). -/
theorem memUnit_bounds (s : State) : memUnit s ∣ memGranule s ∧ 0 < memUnit s ∧ memUnit s ≤ 1024 := by
  have h1 : 0 < memGranule s := Nat.two_pow_pos _
  refine ⟨?_, by unfold memUnit; omega, by unfold memUnit; omega⟩
  unfold memUnit memGranule at *
  by_cases h : s.fur.image.granuleLog2 ≤ 10
  · have : 2 ^ s.fur.image.granuleLog2 ≤ 2 ^ 10 := Nat.pow_le_pow_right (by decide) h
    have e : max 1 (min (2 ^ s.fur.image.granuleLog2) 1024) = 2 ^ s.fur.image.granuleLog2 := by omega
    exact ⟨1, by omega⟩
  · have : 2 ^ 10 ≤ 2 ^ s.fur.image.granuleLog2 := Nat.pow_le_pow_right (by decide) (by omega)
    have e : max 1 (min (2 ^ s.fur.image.granuleLog2) 1024) = 2 ^ 10 := by omega
    rw [e]; exact Nat.pow_dvd_pow 2 (by omega)

/-- A request after an issue was there before or is the issued one with a tag. -/
theorem mem_issueOne (r x : MemReq) (s : State) (h : x ∈ (issueOne r s).memReqs ++ (issueOne r s).memWaiting) :
    x ∈ s.memReqs ++ s.memWaiting ∨ ∃ t, x = { r with tag := t } := by
  unfold issueOne at h
  split at h
  · split at h
    · rcases List.mem_append.mp h with h | h
      · rcases List.mem_append.mp h with h | h
        · exact .inl (List.mem_append.mpr (.inl h))
        · exact .inr ⟨_, List.mem_singleton.mp h⟩
      · exact .inl (List.mem_append.mpr (.inr h))
    · rcases List.mem_append.mp h with h | h
      · exact .inl (List.mem_append.mpr (.inl h))
      · rcases List.mem_append.mp h with h | h
        · exact .inl (List.mem_append.mpr (.inr h))
        · exact .inr ⟨r.tag, List.mem_singleton.mp h⟩
  · rcases List.mem_append.mp h with h | h
    · exact .inl (List.mem_append.mpr (.inl h))
    · rcases List.mem_append.mp h with h | h
      · exact .inl (List.mem_append.mpr (.inr h))
      · exact .inr ⟨r.tag, List.mem_singleton.mp h⟩

/-- The same for a list of requests. -/
theorem mem_issueAll (x : MemReq) (l : List MemReq) (s : State)
    (h : x ∈ (forEach l issueOne s).memReqs ++ (forEach l issueOne s).memWaiting) :
    x ∈ s.memReqs ++ s.memWaiting ∨ ∃ r ∈ l, ∃ t, x = { r with tag := t } := by
  induction l generalizing s with
  | nil => exact .inl h
  | cons r l ih =>
    rcases ih (issueOne r s) h with h | ⟨q, hq, t, e⟩
    · rcases mem_issueOne r x s h with h | ⟨t, e⟩
      · exact .inl h
      · exact .inr ⟨r, List.mem_cons_self, t, e⟩
    · exact .inr ⟨q, List.mem_cons_of_mem _ hq, t, e⟩

/-- Two vectors have two keys. -/
theorem vecKey_ne (p v q w : PartNo) (h : q ≠ p ∨ w ≠ v) : 16 * q.val + w.val ≠ 16 * p.val + v.val := by
  intro e
  have := p.isLt; have := v.isLt; have := q.isLt; have := w.isLt
  rcases h with h | h <;> exact h (Fin.ext (by omega))

/-- A vector after its own update. -/
theorem vecOf_modVec_self (p v : PartNo) (f : Vector → Vector) (s : State) : vecOf (modVec p v f s) p v = f (vecOf s p v) := by
  simp [vecOf, modVec]

/-- A vector after another's update. -/
theorem vecOf_modVec_ne (p v q w : PartNo) (f : Vector → Vector) (s : State) (h : q ≠ p ∨ w ≠ v) :
    vecOf (modVec p v f s) q w = vecOf s q w := tabGet_tabMod_ne _ _ _ _ _ (vecKey_ne p v q w h)

/-- A vector makes one message of all its pending events, or none (14 R383, R385). -/
theorem tryMessage_cases (p v : PartNo) (s : State) : tryMessage p v s = s ∨ (msgHeld s p v = false ∧ ∃ m : IrqMsg, m.par = BitVec.ofNat 4 p ∧ m.vec = v ∧ m.events = (vecOf s p v).pending.toNat ∧
    tryMessage p v s = modVec p v (fun w => { w with pending := 0, cause := none, due := false }) { s with par := { s.par with messages := s.par.messages ++ [m] } }) := by
  unfold tryMessage
  by_cases h : (vecReady (vecOf s p v) && !msgHeld s p v) = true
  · simp only [h, if_true]
    exact .inr ⟨by simp at h; exact h.2, _, rfl, rfl, rfl, rfl⟩
  · simp only [h]; exact .inl rfl

/-- The number of a partition. -/
theorem toNat_partNo (p : PartNo) : (BitVec.ofNat 4 p.val).toNat = p.val := by simp

/-- A guarded operation runs when the guard holds. -/
theorem runs_onlyIf {c : Instr} {s t : State} {b : Bool} {f : State → State} (he : exec c s = act (onlyIf b f) s) (hl : live s = true)
    (ht : (if b then f s else s) = t) : Runs c s t := runs_of he hl (by simpa [onlyIf] using ht)

/-- A message that arrives is acted on in the state without it. -/
theorem arrives_onArrival {c : Instr} {a : Arrival} {m : Msg} {s u : State} {t : Taker} (h : Arrives c a m s u) (hc : messageOf c = some (a, m, t)) :
    live s = true ∧ ownMessage t m.opcode = true ∧ ∀ f, onArrival a m f s = f u := by
  obtain ⟨hl, t', hc', h1, h2, h3, h4⟩ := h
  rw [hc] at hc'
  injection hc' with e; injection e with _ e; injection e with _ e; subst e
  refine ⟨hl, h1, fun f => ?_⟩
  simp only [onArrival]; rw [if_neg (fun e => e h2), h3]
  cases a with
  | self => rfl
  | port n v => simp only [passes] at h4; simp only [h4, if_true]

/-- A command whose message arrives runs by its operation. -/
theorem runs_arrival {c : Instr} {a : Arrival} {m : Msg} {s u w : State} {t : Taker} {f : State → State} (h : Arrives c a m s u)
    (hc : messageOf c = some (a, m, t)) (he : exec c s = act (onlyIf (ownMessage t m.opcode) (fun s => onArrival a m f s)) s) (ht : f u = w) :
    Runs c s w := by
  obtain ⟨h1, h2, h3⟩ := arrives_onArrival h hc
  exact runs_of he h1 (by simp only [onlyIf, h2, if_true]; rw [h3]; exact ht)

/-- A message addressed elsewhere, or not waiting here, is left alone. -/
theorem onArrival_off (a : Arrival) (m : Msg) (f : State → State) (s : State) (h : dstEp m ≠ selfEp s ∨ takeArrival a m s = none) :
    onArrival a m f s = s := by
  unfold onArrival
  by_cases h' : dstEp m ≠ selfEp s
  · rw [if_pos h']
  · rw [if_neg h']; rcases h with h | h
    · exact absurd h h'
    · rw [h]

/-- A message that fails the checks of 07 R205 is discarded. -/
theorem onArrival_bad (n : PortNo) (v : Fin 8) (m : Msg) (f : State → State) (s u : State) (h : dstEp m = selfEp s)
    (h1 : takeArrival (.port n v) m s = some u) (h2 : arrivalOk u n v m = false) : onArrival (.port n v) m f s = discardArrival n u := by
  unfold onArrival
  rw [if_neg (fun e => e h)]
  simp only [h1, h2]; rfl

/-- What the arm of a message command is. -/
theorem exec_message {c : Instr} {a : Arrival} {m : Msg} {t : Taker} (hc : messageOf c = some (a, m, t)) (ht : t ≠ .atomic) (s : State) :
    ∃ f, exec c s = act (onlyIf (ownMessage t m.opcode) (fun s => onArrival a m f s)) s := by
  unfold messageOf at hc
  split at hc <;> first
    | (simp only [Option.some.injEq, Prod.mk.injEq] at hc; obtain ⟨rfl, rfl, rfl⟩ := hc; first | exact absurd rfl ht | exact ⟨_, rfl⟩)
    | cases hc

/-- A request of wrong form is answered MALFORMED (08 R212). -/
theorem checked_bad (m : Msg) (f : Nat → State → State) (u : State) (h : formOk m = false) : checked m f u = refuse m stMalformed u := by
  simp [checked, h]

/-- A request without its window or its rights is answered RIGHTS (08 R212). -/
theorem checked_no (m : Msg) (f : Nat → State → State) (u : State) (h : formOk m = true) (h1 : admits u = false ∨ checkWindow u m = none) :
    checked m f u = refuse m stRights u := by
  rcases h1 with h1 | h1
  · simp [checked, h, h1]
  · cases h2 : admits u <;> simp [checked, h, h1, h2]

/-- A request that passes the checks is performed (08 R212). -/
theorem checked_ok (m : Msg) (f : Nat → State → State) (u : State) (w : Nat) (h : formOk m = true) (h1 : admits u = true) (h2 : checkWindow u m = some w) :
    checked m f u = pumpTargets (f w u) := by simp [checked, h, h1, h2]

/-- A response runs by its tracker (08 R224, R225). -/
theorem runs_response {c : Instr} {a : Arrival} {m : Msg} {s u w : State} {t : Taker} {f : Tracker → State → State} (h : Arrives c a m s u)
    (hc : messageOf c = some (a, m, t)) (he : exec c s = act (onlyIf (ownMessage t m.opcode) (onResponse a m f)) s)
    (ht : (match answeredTracker u m with
      | none => countTrk (fun k => { k with lateDiscards := satInc k.lateDiscards }) u
      | some t =>
        match responseTracker t u with
        | (lost, v) =>
          if lost = true then loseTracker t v
          else if (!responseStatus (if m.opcode = opReadData then stOk else m.aux) || ((if m.opcode = opReadData then stOk else m.aux) != stUnreachable && srcEp m != t.target.toNat)) = true then badResponse a v
          else f t v) = w) :
    Runs c s w := runs_arrival h hc he (by rw [← ht]; rfl)

/-- READ_DATA takes its own opcode only. -/
theorem readData_opcode (s u : State) (a : Arrival) (m : Msg) (h : Arrives (.readData a m) a m s u) : m.opcode = opReadData := by
  obtain ⟨_, ho, _⟩ := arrives_onArrival h rfl
  unfold ownMessage takerOf at ho
  repeat' split at ho
  all_goals first | assumption | cases ho

/-- A command of a run runs by the run's operation. -/
theorem runs_onRun {c : Instr} {op id : Nat} {f : Run → State → State} {s t : State} {r : Run} (he : exec c s = act (onRun op id f) s)
    (hl : live s = true) (hr : runOf s id = some r) (ho : r.op = op) (ht : f r s = t) : Runs c s t :=
  runs_of he hl (by simp only [onRun, hr, ho, if_true]; exact ht)

/-- A command for no run of its kind changes nothing. -/
theorem runs_onRun_none {c : Instr} {op id : Nat} {f : Run → State → State} {s : State} (he : exec c s = act (onRun op id f) s)
    (hl : live s = true) (h : runOf s id = none ∨ ∃ r, runOf s id = some r ∧ r.op ≠ op) : Runs c s s := by
  refine runs_of he hl ?_
  rcases h with h | ⟨r, h, ho⟩
  · simp only [onRun, h]
  · simp only [onRun, h]; rw [if_neg ho]

/-- What the arm of a sideband command is. -/
theorem exec_sideband {c : Instr} {k : Bool} {code : Byte} (h : sidebandCode c = some (k, code)) (s : State) : ∃ f, exec c s = act (sbCommand k code f) s := by
  unfold sidebandCode at h
  split at h <;> first
    | (simp only [Option.some.injEq, Prod.mk.injEq] at h; obtain ⟨rfl, rfl⟩ := h; exact ⟨_, rfl⟩)
    | cases h

/-- A refused sideband command advances no epoch (16 R447). -/
theorem sbReply_refused (s : State) (st : Byte) (h : st ≠ stOk) (pl : List Byte) (t : State) :
    sbReply s st pl t = setRsp { acked := true, status := st, epoch := (countCommand st t).sec.mgmtEpoch, payload := pl } (countCommand st t) := by
  simp only [sbReply]; rw [if_neg (fun e => h e.1)]

/-- A sideband command that may run is answered by its operation. -/
theorem sbAnswers_of {c : Instr} {k : Byte} {f : State → Answer} {s t : State} {st : Byte} {pl : List Byte} (hc : sidebandCode c = some (true, k))
    (he : exec c s = sideband true k f s) (hf : f s = (st, pl, t)) : SbAnswers c s st pl t := by
  intro code hl hr hc' hg
  rw [hc] at hc'
  have e : k = code := by injection hc' with e; injection e
  subst e
  have he' : exec c s = act (sbCommand true k f) s := he
  refine runs_of he' hl ?_
  simp only [sbCommand, hr]; rw [if_neg (by decide), if_neg (by decide), if_pos hg]
  simp only [withEpoch, hf, sbReply]
  by_cases h : st = stOk ∧ t ≠ s
  · rw [if_pos h, if_pos h]
  · rw [if_neg h, if_neg h]

/-- A long command begins. -/
theorem startLong_ok {code : Byte} {arg : BitVec 16} {f : State → Byte × State} {s t : State} (h : s.sec.longFrom = none) (hf : f s = (stOk, t)) :
    startLong false code arg f s = (stOk, [], beginOp false code arg t) := by
  simp only [startLong, h, hf]; rfl

/-- A long command that its own rules refuse. -/
theorem startLong_no {code : Byte} {arg : BitVec 16} {f : State → Byte × State} {s t : State} {st : Byte} (h : s.sec.longFrom = none) (hf : f s = (st, t))
    (hn : st ≠ stOk) : startLong false code arg f s = (st, [], t) := by
  simp only [startLong, h, hf]; rw [if_neg (by decide), if_neg hn]

/-- A long command is refused while another runs (16 R450). -/
theorem startLong_busy {code : Byte} {arg : BitVec 16} {f : State → Byte × State} {s : State} (h : s.sec.longFrom.isSome = true) :
    startLong false code arg f s = (stStateRefused, [], s) := by
  simp only [startLong, h, if_true]

/-- RESET is a long command. -/
theorem sbReset_eq (u : Nat) (f : State → Byte × State) (s : State) : sbReset u 0 f s = startLong false 0x0A (BitVec.ofNat 16 u) f s := by
  simp only [sbReset]; rw [if_neg (by decide)]; rfl

/-- The length of a number as bytes. -/
theorem length_leBytes (n v : Nat) : (leBytes n v).length = n := by
  induction n generalizing v with
  | zero => rfl
  | succ n ih => simp [leBytes, ih]

/-- A number as bytes, read back. -/
theorem leNat_leBytes (n v : Nat) : leNat (leBytes n v) = v % 2 ^ (8 * n) := by
  induction n generalizing v with
  | zero => simp [leBytes, leNat, Nat.mod_one]
  | succ n ih =>
    simp only [leBytes, leNat, ih, BitVec.toNat_ofNat]
    have : 2 ^ (8 * (n + 1)) = 2 ^ 8 * 2 ^ (8 * n) := by rw [← Nat.pow_add]; congr 1; omega
    rw [this]; exact (Nat.mod_mul (a := 2 ^ 8)).symm

/-- A record of a list of records of one length. -/
theorem flatten_at (n : Nat) (f : Nat → List Byte) (hf : ∀ i, (f i).length = n) (k i : Nat) (h : i < k) :
    (((upTo k f).flatten).drop (n * i)).take n = f i := by
  unfold upTo
  induction k generalizing f i with
  | zero => omega
  | succ k ih =>
    rw [List.range_succ_eq_map]
    simp only [List.map_cons, List.map_map, List.flatten_cons]
    cases i with
    | zero => simp [hf]
    | succ i =>
      have : n * (i + 1) = (f 0).length + n * i := by rw [hf]; rw [Nat.mul_add]; omega
      rw [this, List.drop_append, List.drop_eq_nil_of_le (by omega)]
      simp only [List.nil_append]
      have e : (f 0).length + n * i - (f 0).length = n * i := by omega
      rw [e]
      exact ih (fun j => f (j + 1)) (fun j => hf (j + 1)) i (by omega)

/-- The length of a list of records of one length. -/
theorem length_flatten_upTo (n : Nat) (f : Nat → List Byte) (hf : ∀ i, (f i).length = n) (k : Nat) : ((upTo k f).flatten).length = n * k := by
  unfold upTo
  induction k generalizing f with
  | zero => simp
  | succ k ih =>
    rw [List.range_succ_eq_map]
    simp only [List.map_cons, List.map_map, List.flatten_cons, List.length_append, hf]
    rw [show ((fun i => f i) ∘ Nat.succ) = (fun i => f (i + 1)) from rfl] at *
    have := ih (fun j => f (j + 1)) (fun j => hf (j + 1))
    rw [this, Nat.mul_add]; omega

/-- A granule needs no padding. -/
theorem padTo_self (l : List Byte) (h : l.length = 256) : padTo 256 l = l := by
  unfold padTo; rw [h, List.take_append_of_le_length (by omega), ← h, List.take_length]

/-- The sum of two granules of integers (12 R344). -/
theorem addGranule_int (d n : Nat) (h : (d = 11 ∧ n = 4) ∨ (d = 12 ∧ n = 8)) (a b : List Byte) : addGranule d a b = (addInts n a b, {}) := by
  rcases h with ⟨rfl, rfl⟩ | ⟨rfl, rfl⟩ <;> rfl

/-- A number within a prefix. -/
theorem numAt_take (n i k : Nat) (l : List Byte) (h : n * i + n ≤ k) : numAt (l.take k) (n * i) n = numAt l (n * i) n := by
  unfold numAt bytesAt
  rw [List.drop_take, List.take_take, Nat.min_eq_left (by omega)]

end Sys2Proof.Machine
end

