-- ==== Sys2Proof/Tests/Slice0.lean ====
section
/-! SUPPORT. Small tests of the model: commands that are not well formed, and for each statement with hypotheses a concrete
state and operands that meet them.  Expected values come from the rules of spec/ that each test names. -/

namespace Sys2Proof.Tests

open Sys2Proof Sys2Proof.Machine

/-! ### Small states -/

/-- A block that runs and is past start-up. -/
def run : State :=
  { State.reset with
    pins := { rstColdN := true, clkLock := true, clkOut := true, nvmRstN := true, ready := true }
    fur := { phase := 6, fwStarted := true } }

/-- A block whose start-up still runs. -/
def early : State := { run with pins := { run.pins with ready := false }, fur := {} }

/-- A block whose root clock is lost. -/
def lost : State := { State.reset with pins := { rstColdN := true, lockLost := true } }

/-- A running block with this port 0. -/
def withPort (p : Port) : State := setPort 0 p run

/-- A port in service. -/
def upPort : Port := { state := psUp, txHiZ := false }

/-- A write by privileged software. -/
def host (v : Word) : RegAcc := { par := 0x1F, value := v, be := 0xFF }

/-- A partition 0 that is READY and owns everything numbered below 16. -/
def parted : State :=
  { run with
    par := { run.par with parts := [(0, { state := partReady })] }
    fur := { run.fur with image := { run.fur.image with partitions :=
      [(0, { present := true, portWeight := 1, beaterWeight := 1, trackerWeight := 1, ctxCount := 16, queueCount := 16
             cntCount := 16, importCount := 16, vatSize := 16 })] } } }

/-- A message header with an opcode. -/
def msg (op : Byte) : Msg := { opcode := op, flags := 0, source := 0, target := 0, tag := 0 }

/-! ### Commands that are not well formed -/

theorem test_wf_message_slots : wellFormed (.read .self { msg 1 with dslots := 15, data := List.replicate 240 0 }) = false := by decide
theorem test_wf_message_data : wellFormed (.read .self { msg 1 with dslots := 1, data := [0] }) = false := by decide
theorem test_wf_message_opcode : wellFormed (.ack .self (msg 0)) = false := by decide
theorem test_wf_message_good : wellFormed (.read .self (msg 1)) = true := by decide
theorem test_wf_aperture_size : wellFormed (.load { ch := 0, ctx := 0, addr := 0, size := 7, tag := 0 }) = false := by decide
theorem test_wf_rot_beats : wellFormed (.result { tag := 0, beats := 0 }) = false := by decide
theorem test_wf_rot_body : wellFormed (.setPolicy { tag := 0, beats := 1, body := List.replicate 33 0 }) = false := by decide
theorem test_wf_write_own_row : wellFormed (.registerWrite 0x010008 (host 0)) = false := by rfl
theorem test_wf_write_doorbell : wellFormed (.registerWrite 0x400040 (host 0)) = false := by rfl
theorem test_wf_write_plain : wellFormed (.registerWrite 0x200000 (host 0)) = true := by rfl
theorem test_wf_read_beat : wellFormed (.memReadData 0 0 [0] 0) = false := by decide
theorem test_wf_window_lanes : wellFormed (.laneErrorWindow 0 [0]) = false := by decide
theorem test_wf_flit_bytes : wellFormed (.flitReceived 0 [0] false) = false := by decide
theorem test_wf_order_bits :
    [Instr.portRetrain 0 (host 0), .passNow 0 (host 1), .rteRankCommit (host 0), .enable 0 (host 0), .withdraw 0 (host 0),
      .vatMarch (host 0), .btrSelftest (host 0), .reset 0 (host 0), .engineReset (host 0), .errCtrlDrain (host 0),
      .captureNow (host 0), .arm (host 0)].all (fun i => !wellFormed i) = true := by decide
theorem test_wf_order_byte : wellFormed (.portRetrain 0 { host 1 with be := 0xFE }) = false := by decide
theorem test_wf_scrub_bank : wellFormed (.scrubRow [{ bank := 50, word := 0 }]) = false := by decide
theorem test_wf_scrub_bit : wellFormed (.scrubRow [{ bank := 0, word := 0, flips := [137] }]) = false := by decide
theorem test_wf_rank_entries : wellFormed (.rankWrite true 0 (List.replicate 63 0)) = false := by decide
theorem test_wf_nvm_bytes : wellFormed (.nvmWrite true 0 (List.replicate 252 0)) = false := by
  show decide ((List.replicate 252 (0 : Byte)).length ≤ 251) = false
  rw [List.length_replicate]
  rfl
theorem test_no_word_spells_a_command : decodeTableWord 64 5 = none := by decide

/-! ### Witnesses: the statements' hypotheses can be met -/

/-- O1: a command in front of another. -/
theorem wit_StepTakesTheFrontCommand : ({ run with pending := [.heartbeat, .hangScan] } : State).pending = .heartbeat :: [.hangScan] := rfl

/-- O2: an empty queue. -/
theorem wit_EmptyQueueTicks : run.pending = [] ∧ live run = true := by decide

/-- O4: the reset state meets the invariant, and steps. -/
theorem wit_EveryStepKeepsTheInvariant : Inv State.reset ∧ step State.reset = .next State.reset :=
  ⟨⟨fun _ => rfl, fun _ _ _ => rfl, fun _ => rfl, fun _ _ => rfl, fun _ => rfl⟩, rfl⟩

/-- O5: a command that is no pin event, in cold reset and without a clock. -/
theorem wit_StoppedBlockIgnoresCommands :
    pinEvent .heartbeat = false ∧ live State.reset = false ∧ live lost = false := by decide

/-- O6: an answer next, of a pin event and of another command. -/
theorem wit_CommandsLeaveQueueAndInputs :
    exec .digestComputed State.reset = .next State.reset ∧ pinEvent .digestComputed = false := ⟨rfl, rfl⟩

/-- O8: a command whose effect is quiet. -/
theorem wit_QuietCommandsAnswerTheirEffect :
    Runs .digestComputed run run ∧ SameInputs run run ∧ quiet run = true := ⟨rfl, rfl, rfl⟩

/-- O9: RST_COLD_N low, and high. -/
theorem wit_ResetAndRailPins : State.reset.pins.rstColdN = false ∧ run.pins.rstColdN = true := by decide

/-- O10: before the lock, with it, and after its loss. -/
theorem wit_StartAndClockPins :
    (let s := { State.reset with pins := { rstColdN := true } }
     s.pins.rstColdN = true ∧ s.pins.clkLock = false ∧ s.pins.lockLost = false) ∧
    run.pins.clkLock = true ∧ lost.pins.lockLost = true ∧ lost.pins.clkLock = false ∧ State.reset.pins.rstColdN = false := by decide

/-- A running block in a phase of start-up. -/
def inPhase (n : BitVec 4) : State := { early with fur := { early.fur with phase := n } }

/-- O11: a phase that fails, one that passes and is held, one that passes and goes on. -/
theorem wit_PhasesStopHoldOrGoOn :
    (live (inPhase 1) = true ∧ (inPhase 1).fur.phase.toNat < 6 ∧ (inPhase 1).fur.outcome = 0 ∧
      (endPhase {} (addRun 5 (inPhase 1))).2 = some 0x03) ∧
    (let s := { inPhase 4 with fur := { (inPhase 4).fur with holdOrder := true } }
     live s = true ∧ (endPhase {} (addRun 5 s)).2 = none ∧ (endPhase {} (addRun 5 s)).1.fur.holdOrder = true) ∧
    ((endPhase {} (addRun 5 (inPhase 4))).2 = none ∧ (endPhase {} (addRun 5 (inPhase 4))).1.fur.holdOrder = false ∧
      (inPhase 4).fur.phase ≠ 2) := by decide +kernel

/-- O12: after start-up, phase 1 without firmware, phase 2 with three failed banks, another phase. -/
theorem wit_PhaseEndsFollowTheRules :
    (live run = true ∧ 6 ≤ (inPhase 6).fur.phase.toNat) ∧ ((inPhase 1).fur.phase = 1 ∧ (inPhase 1).fur.fwStarted = false) ∧
    ((inPhase 2).fur.phase = 2 ∧ 3 ≤ (banksIn 7).length ∧ (endPhase { banksFailed := 7 } (inPhase 2)).2 = some 0x10) ∧
    ((endPhase { beatersPassed := 0 } (inPhase 2)).2 = some 0x11) ∧ ((inPhase 4).fur.phase ≠ 1 ∧ (inPhase 4).fur.phase ≠ 2) := by
  decide

/-- A running block with this power unit. -/
def powered (p : Power) : State := { run with power := p }

/-- O13: a drain with nothing left, one with a run, none; each transition. -/
theorem wit_PowerDrainAndTransitionEvents :
    (let s := powered { draining := some { target := 2 } }
     live s = true ∧ s.power.draining = some { target := 2 } ∧ s.cq.runs = [] ∧ s.trk.trackers = []) ∧
    (powered {}).power.draining = none ∧ (powered { transition := some 0 }).power.transition = some 0 ∧
    (let s := { powered { transition := some 1, beforePark := 1 } with ports := [(0, { state := psTraining })] }
     s.power.transition = some 1 ∧ transitionReady 1 s = false) ∧
    (transitionReady 0 (powered { transition := some 0 }) = true ∧ (powered { transition := some 0, policy := false }).power.policy = false ∧
      (powered { transition := some 0, policy := true }).power.policy = true) ∧
    (let s := powered { transition := some 1, policy := true }
     s.power.transition = some 1 ∧ transitionReady 1 s = true ∧ s.power.policy = true) ∧
    (let s := { powered { transition := some 2 } with vat := { run.vat with state := 0 } }
     s.power.transition = some 2 ∧ transitionReady 2 s = true ∧ s.power.onward = none ∧ s.vat.state ≠ 3) ∧
    (let s := { powered { transition := some 2, cur := 3, onward := some 1 } with vat := { run.vat with state := 3 } }
     transitionReady 2 s = true ∧ s.vat.state = 3 ∧ s.power.onward = some 1) ∧
    (powered { transition := some 2, onward := some 3 }).power.onward = some 3 ∧
    (let s := { powered { transition := some 3 } with vat := { run.vat with state := 0 } }
     s.power.transition = some 3 ∧ transitionReady 3 s = true) := by decide

/-- O14: an average above the ceiling at a level under 7 and at 7; below it at level 0 and at a level that may fall; a port inside
and outside its interval. -/
theorem wit_ThrottleFollowsTheAverage :
    (let s := powered { effective := 100, samples := [1001] }
     live s = true ∧ aboveCeiling s 100 = true ∧ s.power.level.toNat < 7) ∧
    (let s := powered { effective := 100, samples := [1001], level := 7 }
     aboveCeiling s 100 = true ∧ s.power.level = 7) ∧
    (let s := powered { effective := 100, samples := [1000] }
     aboveCeiling s 100 = false ∧ s.power.level = 0) ∧
    (let s := powered { effective := 100, samples := [1000], level := 1, raiseTicks := 9 }
     aboveCeiling s 100 = false ∧ s.power.level ≠ 0 ∧ 10 ≤ s.power.raiseTicks + 1) ∧
    (run.power.level = 0 ∧ run.power.cur = 0) ∧
    (let s := powered { cur := 1, level := 1 }
     live s = true ∧ s.power.cur ≠ 0 ∧ hasWork s (portOf s 0) = false ∧ (portOf s 0).rx.nullReady = false ∧ s.power.level ≠ 0 ∧
     (portOf s 0).cal.forceActive = false) := by decide

/-- O15: a window that only accumulates and one that is full; a window that meets the ceiling. -/
theorem wit_TelemetrySamplesJoinTheWindows :
    live run = true ∧ (tabGet {} run.power.telAcc 0).count + 1 < windowLen 0 ∧
    (let s := powered { telAcc := [(0, { count := 99 })] }
     windowLen 0 ≤ (tabGet {} s.power.telAcc 0).count + 1) ∧
    run.power.effective.toNat * 10 ≥ (tabGet {} run.power.tel 0).avg.toNat := by decide

/-- A port in service at ×2 with a spare: lane 0 and 1 active, lane 2 spare. -/
def deckled : Port :=
  { state := psUp, txHiZ := false
    deckle := { map := [(0, 0), (1, 1)], spare := 2, width := 1, epoch := 3 }
    lanes := [(0, { state := lsActive, good := true }), (1, { state := lsActive, good := true }), (2, { state := lsSpare, good := true })] }

/-- MARKER for logical lane 0 at width code 1, count 0, as 05 R123 gives its bytes. -/
def markerBits : BitVec 128 := BitVec.ofNat 128 (0x0100004D + (2 ^ 64 - 1 - 0x0100004D) * 2 ^ 64)

/-- O16: a lane that is off, one that runs; a known and an unknown set; each alignment state. -/
theorem wit_LaneBlocksAlignAndDescramble :
    live run = true ∧ laneRuns (laneOf (portOf run 0) 0) = false ∧ laneRuns (laneOf (portOf (withPort deckled) 0) 0) = true ∧
    orderedTypes.contains ((0x4D : BitVec 128).toNat % 256) = true ∧ orderedTypes.contains ((0 : BitVec 128).toNat % 256) = false ∧
    ({} : Lane).align = .hunt ∧ ({ align := .tentative 62 } : Lane).align = .tentative 62 ∧ ((62 : Nat) < 63 ∧ 63 ≤ 63) ∧
    (let s := withPort { state := psTraining, attempt := some { step := 2 }, lanes := [(0, { state := lsCal })] }
     inStep2 (portOf s 0) (laneOf (portOf s 0) 0) = true) ∧
    (let s := withPort { state := psTest, lanes := [(0, { state := lsLoop })] }
     inStep2 (portOf s 0) (laneOf (portOf s 0) 0) = false ∧ (laneOf (portOf s 0) 0).state = lsLoop) ∧
    (let x : Lane := { state := lsActive }
     BitVec.ofNat 2 (lineBits x 1 0x4D) = 1 ∧ BitVec.ofNat 128 (lineBits x 1 0x4D / 4) = (0x4D : BitVec 128)) ∧
    ((true :: List.replicate 15 false).take 64).count false < 16 ∧ 16 ≤ ((false :: List.replicate 15 false).take 64).count false := by
  decide

/-- O17: a lane that is off, a marker of another form, one that fits and one for another lane, TRAIN, an idle lane. -/
theorem wit_OrderedSetsActOnTheirLane :
    (live run = true ∧ laneRuns (laneOf (portOf run 0) 0) = false) ∧
    (let s := withPort deckled
     let u := laneHeader 0 0 true s
     live s = true ∧ laneRuns (laneOf (portOf s 0) 0) = true ∧ markerOk 0 = false ∧ markerOk markerBits.toNat = true ∧
     logicalOf (portOf u 0).deckle 0 = some 0 ∧ logicalOf (portOf u 0).deckle 1 = some 1 ∧ 0 = bitsOf markerBits.toNat 8 8 ∧
     bitsOf markerBits.toNat 24 8 = (portOf u 0).deckle.width.toNat ∧
     markerCountOk (portOf u 0) 0 (BitVec.ofNat 24 (bitsOf markerBits.toNat 40 24)) = true ∧ 1 ≠ bitsOf markerBits.toNat 8 8 ∧
     (0x54 : BitVec 128).toNat % 256 = 0x54 ∧ inStep2 (portOf s 0) (laneOf (portOf s 0) 0) = false ∧
     inService (portOf (modPort 0 (takeTrain 0x54) u) 0) = true ∧ (laneOf (portOf s 0) 0).state = lsActive ∧ (laneOf (portOf s 0) 0).state ≠ lsIdle) ∧
    (let s := withPort { state := psTraining, attempt := some { step := 3 }, lanes := [(0, { state := lsActive })] }
     let u := modPort 0 (takeTrain 0x54) (laneHeader 0 0 true s)
     inStep2 (portOf s 0) (laneOf (portOf s 0) 0) = false ∧ laneRuns (laneOf (portOf s 0) 0) = true ∧ inService (portOf u 0) = false) ∧
    (let s := withPort { state := psTraining, attempt := some { step := 2 }, lanes := [(0, { state := lsCal })] }
     inStep2 (portOf s 0) (laneOf (portOf s 0) 0) = true) ∧
    (let s := withPort { deckled with lanes := [(0, { state := lsIdle })] }
     live s = true ∧ (laneOf (portOf s 0) 0).state = lsIdle) := by decide

/-- O18: a port that may idle, one that has work, a third failed exit, detect, a port that waits, fenced and test ports. -/
theorem wit_IdleAndDetectEventsOfAPort :
    (let s := { withPort upPort with power := { run.power with cur := 1 } }
     live s = true ∧ idleState s = true ∧ linkUp (portOf s 0) = true ∧ hasWork s (portOf s 0) = false ∧
     (portOf s 0).rx.nullReady = false ∧ (portOf s 0).cal.pass = none) ∧
    (idleState run = false ∧ (portOf run 0).txIdle = false) ∧
    (let s := withPort { upPort with txIdle := true, rx := { nullReady := true } }
     (portOf s 0).txIdle = true ∧ (portOf s 0).inInterval = true ∧ (portOf s 0).rx.nullReady = true) ∧
    (let s := withPort { upPort with lanes := [(0, { state := lsIdle })], bursts := 1, exitFails := 2 }
     inService (portOf s 0) = true ∧ allLanes.any (fun k => (laneOf (portOf s 0) k).state == lsIdle) = true ∧
     (portOf s 0).bursts ≠ 0 ∧ 2 ≤ (portOf s 0).exitFails) ∧
    (portOf (withPort { state := psDetect }) 0).state = psDetect ∧
    (let s := withPort { retryArmed := true }
     (portOf s 0).state = psDown ∧ (portOf s 0).retryArmed = true ∧ 2 ≤ maskCount 3 ∧ maskCount 4 < 2) ∧
    (portOf run 0).retryArmed = false ∧ (portOf (withPort { state := psFenced }) 0).state = psFenced ∧
    (portOf (withPort { state := psTest }) 0).state = psTest := by decide

/-- A running block whose port 0 trains. -/
def training (n : Nat) (held : Bool) (lanes : BitVec 9) : State :=
  withPort { state := psTraining, attempt := some { step := n, held := held, lanes := lanes } }

/-- O19: no attempt, and an attempt at each step. -/
theorem wit_TrainingStepsFollowTheirOrder :
    (live run = true ∧ (portOf run 0).attempt = none) ∧
    (live (training 1 false 0) = true ∧ (portOf (training 1 false 0) 0).attempt = some { step := 1, held := false, lanes := 0 } ∧
      maskCount 1 < 2 ∧ 2 ≤ maskCount 3) ∧
    (({} : TrainObs).timedOut = false ∧ ({ timedOut := true } : TrainObs).timedOut = true) ∧
    ((portOf (training 4 true 3) 0).attempt = some { step := 4, held := true, lanes := 3 } ∧
      3 &&& cleanLanes true { bitErrors := [2250, 2251] } ≠ usedMask (training 4 true 3) 0) ∧
    (maskCount (3 &&& cleanLanes false { bitErrors := [22500, 22501] }) < 2 ∧ 2 ≤ maskCount (3 &&& cleanLanes false { bitErrors := [22500, 0] })) ∧
    (partnerLanes (portOf (training 5 false 3) 0) = none ∧
      partnerLanes { state := psTraining, phy := { train := some { step := 5, mask := 3, width := 1 } } } = some 3 ∧
      2 ≤ maskCount (3 &&& 3) ∧ maskCount (3 &&& 1) < 2) := by decide

/-- O20: nine, eight and one good lanes. -/
theorem wit_DeckleIsChosenByRank :
    ([0, 1, 2, 3, 4, 5, 6, 7, 8] : List Nat).Pairwise (· < ·) ∧ (∀ k ∈ [0, 1, 2, 3, 4, 5, 6, 7, 8], k < 9) ∧
    (chooseDeckle [0, 1, 2, 3, 4, 5, 6, 7, 8] 0).width = 3 ∧ (chooseDeckle [0, 1, 2, 3, 4, 5, 6, 7, 8] 0).spare = 8 ∧
    (chooseDeckle [1, 2, 3, 4, 5, 6, 7, 8] 0).spare = 0xF ∧ (chooseDeckle [4] 0).width = 0 := by decide

/-- A running block whose port 0 has this calibration state. -/
def calState (c : Cal) : State := withPort { deckled with cal := c }

/-- O21: a temperature that moved, one that did not, a port that waits, one deferred, a pass at step 1. -/
theorem wit_PassesBeginWhenTheyAreDue :
    live run = true ∧ (portOf (calState {}) 0).cal.waiting = false ∧ 32 ≤ max 32 0 - min 32 0 ∧ max 31 0 - min 31 0 < 32 ∧
    ((portOf (calState { waiting := true }) 0).cal.waiting = true ∧ (portOf (calState { waiting := true, repair := true }) 0).cal.repair = true) ∧
    (portOf (calState { waitsTwin := true }) 0).cal.waitsTwin = true ∧ (portOf (calState { deferred := true }) 0).cal.deferred = true ∧
    (let s := calState { pass := some 0, step := 1 }
     (portOf s 0).cal.pass.isSome = true ∧ (portOf s 0).cal.step = 1 ∧ (portOf s 0).deckle.spare ≠ 0xF) ∧
    (mayPass (calState {}) 0 = true ∧ passSkipped (portOf (calState {}) 0) = false ∧ (calState {}).power.level = 0 ∧
      (portOf (calState {}) (twinOf 0)).cal.pass = none) ∧
    (let s := { calState {} with power := { run.power with level := 1 } }
     mayPass s 0 = true ∧ s.power.level ≠ 0 ∧ (portOf s 0).cal.forceActive = false) ∧
    (let s := withPort { deckled with deckle := { deckled.deckle with spare := 0xF } }
     mayPass s 0 = true ∧ passSkipped (portOf s 0) = true) ∧
    (let s := { calState {} with ports := [(0, deckled), (twinOf 0, { deckled with cal := { pass := some 0 } })] }
     mayPass s 0 = true ∧ passSkipped (portOf s 0) = false ∧ (portOf s (twinOf 0)).cal.pass.isSome = true) ∧ mayPass run 0 = false := by decide

/-- O22: each step of a pass, a pass that pauses, a CALENDER that fits. -/
theorem wit_PassesRunTheirSteps :
    (live run = true ∧ (portOf run 0).cal.pass = none) ∧
    (let s := calState { pass := some 0, step := 3 }
     (portOf s 0).cal.pass = some 0 ∧ passPaused s 0 = false ∧ (portOf s 0).deckle.spare ≠ 0xF ∧ (portOf s 0).cal.step = 3) ∧
    (let s := modPort 0 (swapLane 0) (calState { pass := some 0, step := 4, repair := true })
     (portOf s 0).cal.repair = true) ∧
    (let s := trimSpare 0 (calState { pass := some 0, step := 5 })
     (portOf s 0).cal.repair = false) ∧
    (passPaused (withPort { deckled with rx := { waiting := true } }) 0 = true) ∧
    (let s := withPort { deckled with deckle := { deckled.deckle with spare := 0xF }, cal := { pass := some 1 } }
     (portOf s 0).cal.pass = some 1 ∧ passPaused s 0 = false ∧ (portOf s 0).deckle.spare = 0xF) ∧
    (let s := calState {}
     inService (portOf s 0) = true ∧ (portOf s 0).deckle.spare.toNat = (2 : LaneNo).val ∧ (portOf s 0).deckle.epoch + 1 = 4 ∧
     (0 : Fin 8).val < widthLanes (portOf s 0).deckle.width ∧ (portOf s 0).cal.pass = none) ∧
    (let s := calState { pass := some 0, step := 1 }
     (portOf s 0).cal.pass = some (0 : Fin 8).val ∧ (portOf s 0).cal.step = 1) := by decide

/-- O23: nothing injected; a lane of the Deckle that may fail with a spare; a port without a link. -/
theorem wit_ErrorWindowsFailBadLanes :
    (live run = true ∧ run.err.inject = none) ∧
    (let s := withPort deckled
     linkUp (portOf s 0) = true ∧ (portOf s 0).deckle.width ≠ 0 ∧ (laneOf (portOf s 0) 1).good = true ∧ (portOf s 0).cal.pass = none ∧
     (portOf s 0).cal.repair = false ∧ inService (portOf s 0) = true ∧ (portOf s 0).deckle.spare ≠ 0xF ∧
     logicalOf (portOf s 0).deckle 1 = some 1 ∧ logicalOf (portOf s 0).deckle 2 = none) ∧
    (portOf (withPort { deckled with deckle := { deckled.deckle with spare := 0xF } }) 0).deckle.spare = 0xF ∧
    linkUp (portOf run 0) = false := by decide

/-- Privileged software may write past start-up. -/
theorem host_may (v : Word) : HostWrite (host v) run := ⟨⟨rfl, rfl⟩, by simp [host], rfl⟩

/-- A write by partition 0. -/
def own (v : Word) : RegAcc := { par := 0, value := v, be := 0xFF }

/-- Partition 0 may write what is its own. -/
theorem own_may (v : Word) : MayWrite (own v) parted := ⟨⟨rfl, rfl⟩, by simp [own], Or.inr ⟨by simp [own], rfl⟩⟩

/-- O24: TRK_CTRL written by privileged software and by a partition, an offset that no table assigns, a block before ready. -/
theorem wit_RegisterAccessesAreAnswered :
    MayWrite (host 9) run ∧ (0x300000 : BitVec 24) ≠ 0xA00308 ∧ (readReg (0x300000 : BitVec 24).toNat run).isSome = true ∧
    (wrAt (0x300000 : BitVec 24).toNat (host 9).par.toNat 9 0xFF run).isSome = true ∧
    MayWrite (own 9) parted ∧ wrAt (0x300000 : BitVec 24).toNat (own 9).par.toNat 9 0xFF parted = none ∧
    readReg (0xFFFFF8 : BitVec 24).toNat run = none ∧ early.pins.ready = false ∧ live early = true :=
  ⟨⟨⟨rfl, rfl⟩, by decide, Or.inl rfl⟩, by decide, rfl, rfl, own_may 9, rfl, rfl, rfl, rfl⟩

/-- O25: a privileged write, bits that order a retrain and a pass, a port that may pass, one in TEST. -/
theorem wit_PowerAndPortRegisters :
    HostWrite (host 5) run ∧ (host 1).be.getLsbD 0 = true ∧ bitOf (host 1).value.toNat 0 = true ∧ bitOf (host 1).value.toNat 2 = false ∧
    run.power.transition = none ∧ run.power.cur = 0 ∧
    (let s := withPort deckled
     bitOf (host 4).value.toNat 2 = true ∧ bitOf (host 4).value.toNat 0 = false ∧ mayPass s 0 = true ∧ passSkipped (portOf s 0) = false ∧
     s.power.level = 0 ∧ (portOf s (twinOf 0)).cal.pass = none ∧ passPaused s 0 = false) ∧
    (portOf (withPort { state := psTest }) 0).state = psTest ∧ (portOf run 0).state ≠ psTest :=
  ⟨host_may 5, by decide⟩

/-- O26: no digest is being computed and an entry of a rank is cleared; one is being computed. -/
theorem wit_RankTableWritesAndCommit :
    HostWrite (host 1) run ∧ run.route.digestBusy = false ∧ rankRefused run 0 0 = false ∧ bitOf (host 1).value.toNat 0 = true ∧
    ({ run with route := { run.route with digestBusy := true } } : State).route.digestBusy = true :=
  ⟨host_may 1, by decide⟩

/-- Queue 0 of the partition, in a state, bound to context 0. -/
def queued (st : BitVec 3) (ctx : BitVec 2) : State :=
  { parted with cq := { parted.cq with queues := [(0, { state := st, bound := true })], ctxs := [(0, { state := ctx })] } }

/-- O27: a context that is not OPEN, a TAIL that fits and one that does not, a HALTED queue. -/
theorem wit_DoorbellsMoveTheTail :
    MayWrite (own 64) (queued qIdle ctxOpen) ∧ ownerOk (queuePart (queued qIdle ctxOpen) 0) 0 = true ∧ (own 64).be.toNat % 16 = 15 ∧
    (queueOf (queued qIdle ctxFree) 0).bound = true ∧ (ctxOf (queued qIdle ctxFree) 0).state ≠ ctxOpen ∧
    (ctxOf (queued qIdle ctxOpen) 0).state = ctxOpen ∧ doorbellOk (queueOf (queued qIdle ctxOpen) 0) 64 = true ∧
    doorbellOk (queueOf (queued qIdle ctxOpen) 0) 65 = false ∧ (queueOf (queued qHalted ctxOpen) 0).state = qHalted :=
  ⟨⟨⟨rfl, rfl⟩, by decide, Or.inr ⟨by decide, rfl⟩⟩, by decide⟩

/-- O28: a counter of the partition, and one outside it. -/
theorem wit_CounterRegisters :
    MayWrite (own 3) parted ∧ ownerOk (cntPart parted 15) 0 = true ∧ (own 3).be = 0xFF ∧ ownerOk (cntPart parted 16) 0 = false :=
  ⟨own_may 3, by decide⟩

/-- O29: an INVALIDATE of an open context, one with a reserved bit, one busy; the fault queue's pointers. -/
theorem wit_TranslationRegisters :
    MayWrite (own 0) (queued qIdle ctxOpen) ∧
    (let s := queued qIdle ctxOpen
     slotOwner 0 0 = true ∧ fld (own 0).value 10 6 = 0 ∧ fld (own 0).value 17 47 = 0 ∧ fld (own 0).value 0 10 = 0 ∧
     ownerOk (ctxPart s 0) 0 = true ∧ ctxPart s 0 = some 0 ∧ (partOf s 0).state = partReady ∧ (invOf s 0).busy = false ∧
     (ctxOf s 0).state ≠ ctxFree ∧ fld (own 0x400).value 10 6 ≠ 0 ∧ fqOwner 0 0 = true) ∧
    (let s := { run with xlt := { run.xlt with inv := [(0, { busy := true })] } }
     (invOf s 0).busy = true ∧ (ctxOf s (invOf s 0).ctx).usesOld = 0 ∧ (invOf s 0).irq = false) ∧
    (invOf run 0).busy = false ∧
    (let s := { run with xlt := { run.xlt with fq := [(0, { tail := 2 })] } }
     ((2 : BitVec 32) - (fqOf s 0).head).toNat ≤ ((fqOf s 0).tail - (fqOf s 0).head).toNat) :=
  ⟨⟨⟨rfl, rfl⟩, by decide, Or.inr ⟨by decide, rfl⟩⟩, by decide⟩

/-- The partition's window 0. -/
def windowed (w : Window) : State := { parted with xlt := { parted.xlt with windows := [(0, w)] } }

/-- O30: a window that may be enabled, an ENABLED one, a DISABLED one. -/
theorem wit_ImportWindowsOpenAndClose :
    MayWrite (own 0x14) (windowed { pages := 1, map := 0x1000 }) ∧
    (let s := windowed { pages := 1, map := 0x1000 }
     ownerOk (winPart s 0) 0 = true ∧ (own 0x14).be.getLsbD 0 = true ∧ (winOf s 0).state = winDisabled ∧ winPart s 0 = some 0 ∧
     (partOf s 0).state = partReady ∧ bitOf (own 0x14).value.toNat 2 = true ∧ bitOf (own 0x14).value.toNat 3 = false ∧
     BitVec.ofNat 3 (fld (own 0x14).value 4 3) = 1 ∧ bitOf (own 0x14).value.toNat 7 = false) ∧
    winEnableOk { windowed { pages := 1, map := 0x1000 } with
      fur := { parted.fur with image := { parted.fur.image with memLimitGib := 1 } } } 0 { pages := 1, map := 0x1000, rights := 1 } = true ∧
    ((winOf (windowed { state := winEnabled }) 0).state = winEnabled ∧ bitOf (own 8).value.toNat 3 = true ∧
      bitOf (own 8).value.toNat 2 = false) ∧ (winOf run 0).state ≠ winWithdrawing :=
  ⟨⟨⟨rfl, rfl⟩, by decide, Or.inr ⟨by decide, rfl⟩⟩, by decide⟩

/-- O31: the window of the Vat for privileged software, a march and a self-test that may start. -/
theorem wit_VatAndBeaterRegisters :
    (let s := { run with vat := { run.vat with state := vatActive, tested := true, winAddr := 0x2E0000 }, fur := { run.fur with directed := true } }
     s.err.inject = none ∧ winAllowed 0x1F true s = true ∧ winAllowed 0x1F false s = true ∧ s.vat.state = vatActive ∧
     s.fur.directed = true ∧ marchAllowed true s = true ∧ selfTestAllowed s = true) ∧
    HostWrite (host 3) run ∧ MayWrite (host 3) run ∧ Ready run :=
  ⟨by decide, host_may 3, ⟨⟨rfl, rfl⟩, by decide, Or.inl rfl⟩, rfl, rfl⟩

/-- O32: a partition that may be reset and one that is absent; an engine-domain reset that runs. -/
theorem wit_PartitionAndInterruptRegisters :
    HostWrite (host 4) parted ∧ bitOf (host 4).value.toNat 2 = true ∧ partResetOk 0 parted = true ∧ partResetOk 1 parted = false ∧
    bitOf (host 1).value.toNat 0 = true ∧ parted.par.engineBusy = false ∧ inP3 parted = false ∧
    ({ run with par := { run.par with engineBusy := true } } : State).par.engineBusy = true ∧
    MayWrite { own 0 with be := 0xFC } parted ∧ ownerOk (some 0) 0 = true ∧ fieldTouched 0xFC 0 16 = false :=
  ⟨⟨⟨rfl, rfl⟩, by decide, rfl⟩, by decide, by decide, by decide, by decide, by decide, by decide, by decide,
    ⟨⟨rfl, rfl⟩, by decide, Or.inr ⟨by decide, rfl⟩⟩, by decide, by decide⟩

/-- O33: DRAIN and CAPTURE_NOW without a locked field, with one; ARM under INJECT_ENABLE; an idle mailbox. -/
theorem wit_ErrorAndMailboxRegisters :
    HostWrite (host 2) run ∧ rwlChange 0xC00000 3 0xFF run = false ∧ rwlChange 0xC00000 0xB 0xFF run = true ∧
    bitOf (host 2).value.toNat 1 = true ∧ bitOf (host 2).value.toNat 2 = false ∧ bitOf (host 4).value.toNat 2 = true ∧
    bitOf (host 0x100000000).value.toNat 32 = true ∧
    ({ run with err := { run.err with injectEnable := true } } : State).err.injectEnable = true ∧ run.sec.mboxBusy = false :=
  ⟨host_may 2, by decide⟩

/-- O34: each command's object in the state it needs. -/
theorem wit_ContextCommandsTakeEffect :
    MayWrite { par := 0, be := 0xFF, value := 0 } parted ∧ slotOwner 0 0 = true ∧
    (cmdRightsOk parted 0 cmdCtxOpen 0 0 = true ∧ cmdReady parted cmdCtxOpen 0 = true ∧ (ctxOf parted 0).state = ctxFree) ∧
    (let s := queued qHalted ctxOpen
     cmdRightsOk s 0 cmdCtxClose 0 0 = true ∧ cmdReady s cmdCtxClose 0 = true ∧ (ctxOf s 0).state = ctxOpen ∧
     cmdRightsOk s 0 cmdQUnbind 0 0 = true ∧ cmdRightsOk s 0 cmdQEnable 0 0 = true ∧ cmdReady s cmdQEnable 0 = true ∧
     (queueOf s 0).state = qHalted ∧ (queueOf s 0).bound = true ∧ ctxPart s 0 = queuePart s 0) ∧
    (let s := { queued qHalted ctxOpen with cq := { (queued qHalted ctxOpen).cq with queues := [] } }
     cmdRightsOk s 0 cmdQBind 0 0 = true ∧ cmdReady s cmdQBind 0 = true ∧ (queueOf s 0).state = qHalted ∧ (queueOf s 0).bound = false) ∧
    (cmdRightsOk (queued qIdle ctxOpen) 0 cmdQHalt 0 1 = true ∧ (queueOf (queued qIdle ctxOpen) 0).state = qIdle) ∧
    (cmdRightsOk (queued qSwitchedOut ctxOpen) 0 cmdQResume 0 0 = true ∧ cmdReady (queued qSwitchedOut ctxOpen) cmdQResume 0 = true ∧
      (queueOf (queued qSwitchedOut ctxOpen) 0).state = qSwitchedOut) :=
  ⟨⟨⟨rfl, rfl⟩, by decide, Or.inr ⟨by decide, rfl⟩⟩, by decide⟩

/-- A running block whose port 0 is in this state of the link, with its transmitters on. -/
def linked (st : BitVec 4) : State := withPort { state := st, txHiZ := false }

/-- A port with an empty inbox takes a packet that its state allows. -/
theorem takes {c : Instr} {s : State} {n : PortNo} {typ : Byte} {part : Bool} {body : List Byte} (hl : live s = true)
    (hc : ctrlOf c = some (n, typ, part, body)) (ha : ctrlAllowed (portOf s n) typ = true) (hi : (portOf s n).ctl.inbox = []) :
    Takes c s s := ⟨hl, n, typ, part, body, hc, ha, by simp [fromInbox, hi]⟩

/-- O35: a NAK of a port in TRAINING. -/
theorem wit_ControlPacketsAreJudged :
    live (linked psTraining) = true ∧ ctrlOf (.nak 0 0 1) = some (0, tyNak, false, leBytes 5 0 ++ [1]) ∧
    ctrlAllowed (portOf (linked psTraining) 0) tyNak = false :=
  ⟨rfl, rfl, rfl⟩

/-- A flit of a Broke store. -/
def flit0 : Flit := { vcb := 0, msgs := [] }

/-- O36: a NAK that a port in service takes; counts that fit and do not; a Broke store with a flit, and failed replays. -/
theorem wit_ReplayFollowsTheCounts :
    (let s := withPort { upPort with tx := { nextTx := 1, broke := [flit0] } }
     Takes (.nak 0 0 1) s s ∧ inService (portOf s 0) = true ∧ fromOldest (portOf s 0).tx 0 = some 0 ∧ fromOldest (portOf s 0).tx 9 = none ∧
     Takes (.replayStart 0 0 1) s s ∧ (0 : Count) = (portOf s 0).rx.expected ∧ belowInWindow 9 (portOf s 0).rx.expected = false ∧
     Takes (.cnak 0 0) s s ∧ (portOf s 0).tx.broke ≠ []) ∧
    (let s := withPort { upPort with tx := { nextTx := 1, broke := [flit0], replayFails := 3 } }
     3 ≤ (portOf s 0).tx.replayFails) ∧ (portOf (withPort upPort) 0).tx.broke = [] ∧
    (let s := withPort { upPort with rx := { waiting := true, naksForCount := 4, ackOwed := true }, ctl := { sent := 1 } }
     (portOf s 0).rx.waiting = true ∧ 4 ≤ (portOf s 0).rx.naksForCount ∧ linkUp (portOf s 0) = true ∧ (portOf s 0).ctl.sent ≠ 0 ∧
     (portOf s 0).rx.ackOwed = true) := by
  repeat' first | exact takes rfl rfl rfl rfl | apply And.intro
  all_goals first | rfl | decide

/-- O37: a notice, a buffer that is paused and one that is not, a third stuck declaration. -/
theorem wit_PauseAndMisbehaviourAreLimited :
    Takes (.stuckNotice 0 1) (withPort upPort) (withPort upPort) ∧ (portOf (withPort upPort) 0).rx.xoffRcvd.getLsbD (0 : Fin 8) = false ∧
    (let s := withPort { upPort with rx := { xoffRcvd := 1 }, stuckAt := [0, 0, 0] }
     inService (portOf s 0) = true ∧ (portOf s 0).rx.xoffRcvd.getLsbD (0 : Fin 8) = true ∧
     3 ≤ ((portOf s 0).stuckAt.filter (fun a => decide (spanFrom s ≤ a))).length) ∧ live run = true :=
  ⟨takes rfl rfl rfl rfl, rfl, by decide, rfl⟩

/-- O38: a dead twin in an exchange; packets that a port in service takes; held flits without older ones. -/
theorem wit_PortsLeaveAndHandOver :
    (let s := { run with ports := [(0, upPort), (1, { state := psDown, hand := some { peerExp := some 5 } })] }
     Takes (.handover 0 1 5 9) s s ∧ sixPort s = false ∧ inService (portOf s (twinOf 0)) = false ∧
     (portOf s (twinOf 0)).hand = some { peerExp := some 5 } ∧ Takes (.handoverDone 0 1 7) s s ∧ Takes (.handbackMark 0 1) s s ∧
     (portOf s (twinOf 0)).rx.awaitMark = false ∧ Takes (.park 0 1) s s ∧ Takes (.retrainReq 0 1) s s ∧ Takes (.fenceNotice 0 1) s s ∧
     inService (portOf s 0) = true) ∧
    (let s := withPort { upPort with hand := some {}, rx := { hold := true } }
     (portOf s 0).hand = some {} ∧ (portOf s 0).rx.hold = true ∧ (portOf s 0).rx.awaitMark = false ∧
     (portOf s (twinOf 0)).rx.buf.any (·.older) = false) := by
  repeat' first | exact takes rfl rfl rfl rfl | apply And.intro
  all_goals first | rfl | decide

/-- A running block whose port 0 admits its partner. -/
def admitting (a : Admission) : State := withPort { state := psAdmission, txHiZ := false, adm := some a }

/-- O39: a port in link initialisation; one in admission whose partner's packets come; one that is suspended. -/
theorem wit_LinkInitialisationAndAdmission :
    (let s := withPort { state := psTraining, txHiZ := false, attempt := some { step := 6 } }
     Takes (.linkInit 0 2 1 0 0 3 1024 2048) s s ∧ inLinkInit (portOf s 0) = true ∧ (1024 : BitVec 16).toNat ≤ 1024 ∧
     Takes (.rttProbe 0 1) s s ∧ Takes (.rttEcho 0 1 2 9) s s ∧ linkUp (portOf s 0) = true ∧ (portOf s 0).echoes < 3 ∧
     (portOf s 0).rttBest = none) ∧
    (let s := admitting {}
     Takes (.admitId 0 0 0 0) s s ∧ admOf s 0 = some {} ∧ 0 = (tabGet {} s.fur.image.cabling 0).peerMachineId ∧
     Takes (.admitNonce 0 7) s s ∧ Takes (.admitMac 0 false 7) s s ∧ Takes (.admitResult 0 1 0) s s) ∧
    (let s := admitting { nonce := some 5, mac0 := some 6 }
     let w := modAdm 0 (fun x => { x with mac1 := some 7 }) s
     Takes (.admitMac 0 true 7) s s ∧ admOf s 0 = some { nonce := some 5, mac0 := some 6 } ∧
     admOf w 0 = some { nonce := some 5, mac0 := some 6, mac1 := some 7 }) ∧
    admOf (admitting { suspended := true }) 0 = some { suspended := true } ∧ admOf (admitting { idOk := true }) 0 = some { idOk := true } := by
  repeat' first | exact takes rfl rfl rfl rfl | apply And.intro
  all_goals first | rfl | decide

/-- A flit with this header, no payload and a good CRC-64 (06 R152, R153). -/
def flitOf (h : List Byte) : List Byte := padTo 248 h ++ leBytes 8 (crc64 (padTo 248 h))

/-- O40: no link; a bad flit; a data flit and a control flit that are good; a count below the expected one; a full buffer. -/
theorem wit_FlitsAreTakenInOrder :
    (live run = true ∧ linkUp (portOf run 0) = false ∧ linkUp (portOf (withPort upPort) 0) = true ∧ inService (portOf (withPort upPort) 0) = true ∧
      inService (portOf (linked psAdmission) 0) = false ∧ flitCrcOk [] = false) ∧
    (flitCrcOk (flitOf [1]) = true ∧ (parseHdr (flitOf [1])).kind = 1 ∧ (parseHdr (flitOf [1])).rsv = 0 ∧
      flitCrcOk (flitOf [2]) = true ∧ (parseHdr (flitOf [2])).kind = 2 ∧
      (portOf (takeHeader 0 (parseHdr (flitOf [2])) (withPort upPort)) 0).lossDue = none) ∧
    (let s := withPort { upPort with rx := { cur := 3, expected := 4 } }
     let u := takeHeader 0 (parseHdr (flitOf [1])) s
     (portOf s 0).rx.waiting = false ∧ (portOf u 0).lossDue = none ∧ belowInWindow (portOf u 0).rx.cur (portOf u 0).rx.expected = true) ∧
    (let u := takeHeader 0 (parseHdr (flitOf [1])) (withPort upPort)
     belowInWindow (portOf u 0).rx.cur (portOf u 0).rx.expected = false ∧ vcbUsed (portOf u 0).rx 0 < 32) := by decide +kernel

/-- O40: a receive buffer with no room for VC buffer 0. -/
theorem wit_FlitsAreTakenInOrder_full :
    let r : Rx := { buf := List.replicate 32 { vcb := 0, shared := false, msgs := [] } ++ List.replicate 1792 { vcb := 0, shared := true, msgs := [] } }
    32 ≤ vcbUsed r 0 ∧ 1792 ≤ sharedUsed r := by decide +kernel

/-- O41: a port that may not send; a control packet ready; a replay; a full Broke store; nothing picked, and a message picked. -/
theorem wit_FlitsAreSentByPriority :
    maySend (portOf run 0) = false ∧ maySend (portOf (withPort upPort) 0) = true ∧
    ctrlReady { queue := [{ typ := 4 }] } = true ∧ ctrlReady {} = false ∧
    (portOf (withPort { upPort with tx := { nextTx := 1, broke := [flit0] } }) 0).tx.resend ≠ 1 ∧
    (ctrlStalled tyReplayStart {} = false ∧
      ctrlStalled tyReplayStart { queue := [{ typ := tyReplayStart }], held := List.replicate 64 { typ := tyNak } } = true) ∧
    (let p := { upPort with tx := { takeover := [flit0] } }
     p.tx.takeover = flit0 :: [] ∧ vcbOpen p flit0.vcb = true ∧ ctrlStalled tyHandover p.ctl = false) ∧
    1024 ≤ (List.replicate 1024 flit0).length ∧ pickVcb (withPort upPort) upPort = none ∧
    (let p := { upPort with tx := { queue := [{ vcb := 0, input := .steward, msgs := [msg 1] }] } }
     pickVcb (withPort p) p = some 0 ∧ vcbOpen p 0 = true) := by decide +kernel

/-- O42: halves of a digest; notices outside the machine and inside it; a restore that waits; a digest that is computed. -/
theorem wit_RoutesAndDigests :
    (let s := withPort upPort
     Takes (.rankDigest 0 false 5) s s ∧ Takes (.routeBreak 0 3 0 1 0 1) s s) ∧
    (let s := withPort { upPort with digest0 := some 0 }
     Takes (.rankDigest 0 true 0) s s ∧ (portOf s 0).digest0 = some 0 ∧
     leBytes 24 (0 : BitVec 192).toNat ++ leBytes 24 (0 : BitVec 192).toNat = padTo 48 s.route.digest) ∧
    (let s := { withPort upPort with fur := { run.fur with image := { dimX := 4 } } }
     Takes (.routeBreak 0 0 1 1 1 7) s s ∧ (0 : Byte).toNat < 3 ∧ (1 : Byte).toNat < dimSize s 0 ∧ (0 : PortNo) / 4 = (0 : Nat) ∧
     (reportOf s 0 1 0).known = false ∧ seqNewer 7 9 = false ∧ seqNewer 9 7 = true) ∧
    run.route.restoreHold &&& holdBit 0 = 0 ∧ (1 : BitVec 6) &&& holdBit 0 ≠ 0 ∧ run.route.digestBusy = false ∧
    ({ run with route := { run.route with digestBusy := true } } : State).route.digestBusy = true := by
  repeat' first | exact takes rfl rfl rfl rfl | apply And.intro
  all_goals first | rfl | decide

/-- A read of 256 bytes at the memory port. -/
def read256 : MemReq := { ch := 0, tag := 3, op := .read, addr := 0, len := 256, owner := .aperture 0 }

/-- O43: the first and the last beat of a read of two; a write; answers to nothing. -/
theorem wit_MemoryAnswersAreTaken :
    (let s := { run with memReqs := [read256] }
     live s = true ∧ findReq s 0 false 3 = some read256 ∧ (readErr read256 0 s).1 = 0 ∧ read256.beats + 1 < beatsOf read256) ∧
    (let r := { read256 with beats := 1 }
     findReq { run with memReqs := [r] } 0 false 3 = some r ∧ beatsOf r ≤ r.beats + 1) ∧
    (let r : MemReq := { read256 with op := .write }
     findReq { run with memReqs := [r] } 0 true 3 = some r) ∧
    (findReq run 0 false 3 = none ∧ findReq run 0 true 3 = none) := by decide

/-- O44: an access of 64 bytes is issued as one request. -/
theorem wit_MemoryRequestsStayInTheirGranule :
    let s := { run with fur := { run.fur with image := { granuleLog2 := 12 } } }
    (memIssue .read (.aperture 0) 64 64 0 [] none s).memReqs.map (fun r => (r.addr, r.len)) = [(64, 64)] ∧ s.memReqs = [] := by
  decide +kernel

/-- A request of 8 bytes at the aperture. -/
def lsa (be : BitVec 64) : LsaReq := { ch := 0, ctx := 0, addr := 0, size := 3, tag := 0, be := be }

/-- O45: a closed gate; a store with no byte enabled, a malformed one and one of good form; a fence among others and alone. -/
theorem wit_ApertureRequestsAreAnsweredOrIssued :
    aperGate run (lsa 1) = some stRights ∧ early.pins.ready = false ∧ run.pins.ready = true ∧ run.err.drainState = 0 ∧
    run.power.cur.toNat < 2 ∧ (ctxOf run 0).state ≠ ctxOpen ∧
    (let s := queued qIdle ctxOpen
     live s = true ∧ aperGate s (lsa 0) = none ∧ (lsa 0).be = 0 ∧ aperGate s (lsa 1) = none ∧ (lsa 1).be ≠ 0 ∧
     lsaFormOk .store (lsa 1) = true ∧ (lsaEnabled (lsa 1)).isEmpty = false ∧
     (lsa 1).op.toNat < 7 ∧ 7 ≤ ({ lsa 1 with op := 7 } : LsaReq).op.toNat ∧ aperGate s { lsa 1 with op := 7 } = none ∧
     lsaFormOk .store { lsa 1 with addr := 1 } = false ∧ aperGate s { lsa 1 with addr := 1 } = none ∧ s.aper = []) := by decide

/-- O45: STORE is an aperture command of the plain kind. -/
theorem wit_ApertureRequestsAreAnsweredOrIssued_kind : apertureOf (.store (lsa 1)) = some (.store, false, lsa 1) := rfl

/-- A vector of partition 0 in a running block with that partition. -/
def vectored (x : Vector) (ms : List IrqMsg) : State :=
  { parted with par := { parted.par with vectors := [(0, x)], messages := ms } }

/-- A message of vector 0 of partition 0. -/
def irq0 : IrqMsg := { addr := 0x1000, data := 0, par := 0, vec := 0, events := 1 }

/-- O46: a message that transfers behind one of a partition that is RESETTING; a limit that ends; vectors that may and may not make one. -/
theorem wit_InterruptMessagesTransferInOrder :
    (let s := { vectored {} [{ irq0 with par := 1 }, irq0] with
       par := { (vectored {} [{ irq0 with par := 1 }, irq0]).par with parts := [(0, { state := partReady }), (1, { state := partResetting })] } }
     live s = true ∧ s.pins.ready = true ∧ s.par.messages = [{ irq0 with par := 1 }] ++ irq0 :: [] ∧
     (partOf s 1).state = partResetting ∧ (partOf s irq0.par.toNat).state ≠ partResetting) ∧
    (run.par.messages = [] ∧ (vecOf run 0 0).pending = 0 ∧ (vecOf run 0 0).mask = true) ∧
    (let s := vectored { addr := 0x1000, mask := false, pending := 1, timeUs := 5 } []
     (vecOf s 0 0).pending ≠ 0 ∧ (vecOf s 0 0).timeUs ≠ 0 ∧ vecReady (vecOf s 0 0) = true ∧ msgHeld s 0 0 = false) := by decide

/-- O47: an enabled vector, one with ADDR 0, and one that holds a message. -/
theorem wit_NoInterruptEventIsLost :
    (let s := vectored { addr := 0x1000, mask := false } []
     (vecOf s 0 0).addr ≠ 0 ∧ (vecOf s 0 0).pending.toNat + 1 < 2 ^ 32 ∧ eventsHeld (irqEvent 0 0 1 s) 0 0 = 1 ∧ messagesOf s 0 0 = 0) ∧
    (vecOf run 0 0).addr = 0 ∧ (let s := vectored { addr := 0x1000 } [irq0]; messagesOf s 0 0 = 1) := by decide

/-- A state in which the block's own loop holds the message m. -/
def arriving (m : Msg) (s : State) : State := { s with loopback := [m] }

/-- A message in the block's own loop that is addressed to it arrives. -/
theorem arrives {c : Instr} {m : Msg} {t : Taker} {s : State} (hl : live s = true) (hc : messageOf c = some (.self, m, t))
    (ho : ownMessage t m.opcode = true) (hd : dstEp m = selfEp s) (hs : s.trk.stalled = []) :
    Arrives c .self m (arriving m s) { s with loopback := [] } :=
  ⟨hl, t, hc, ho, hd, by simp [takeArrival, behindStalled, arriving, hs], rfl⟩

/-- A block in a machine of 4 by 1 by 1 endpoints, at endpoint 1, with port 0 up and its buffer v holding m. -/
def inRow (v : Fin 8) (m : Msg) : State :=
  { withPort { upPort with rx := { buf := [{ vcb := v, shared := false, msgs := [m] }] } } with
    fur := { run.fur with image := { endpoint := 1, coordX := 1, dimX := 4, dimY := 1, dimZ := 1 } } }

/-- A message of endpoint 0 for endpoint e. -/
def rowMsg (e : BitVec 32) (flags : Byte) : Msg := { opcode := 1, flags := flags, source := 0, target := e, tag := 0 }

/-- O48: a message that is not the command's, addressed elsewhere, not waiting; one that fails the checks; one consumed; in transit. -/
theorem wit_ArrivingMessagesAreChecked :
    (live run = true ∧ ownMessage .read (msg 2).opcode = false ∧ dstEp { msg 1 with target := 5 } ≠ selfEp run ∧
      takeArrival .self (msg 1) run = none) ∧
    (let m := rowMsg 1 0
     messageOf (.read (.port 0 7) m) = some (.port 0 7, m, .read) ∧ ownMessage .read m.opcode = true ∧ dstEp m = selfEp (inRow 7 m) ∧
     (takeArrival (.port 0 7) m (inRow 7 m)).isSome = true ∧ (takeArrival (.port 0 7) m (inRow 7 m)).any (fun u => arrivalOk u 0 7 m) = false) ∧
    (let m := msg 0x30
     ownMessage .management m.opcode = true → Arrives (.managementMessage .self m) .self m (arriving m run) { run with loopback := [] }) ∧
    (let m := rowMsg 2 0
     dstEp m ≠ selfEp (inRow 0 m) ∧ (takeMsg 0 0 m (inRow 0 m)).isSome = true ∧
     (takeMsg 0 0 m (inRow 0 m)).any (fun u => arrivalOk u 0 0 m) = false ∧
     (takeMsg 0 1 m (inRow 1 m)).any (fun u => arrivalOk u 0 1 m && u.err.flips.isEmpty && transitHop u 0 1 m == .stuck) = true) ∧
    (let m := rowMsg 2 0
     let s := { inRow 1 m with ports := [(0, portOf (inRow 1 m) 0), (2, upPort), (3, upPort)] }
     (takeMsg 0 1 m s).any (fun u => arrivalOk u 0 1 m && u.err.flips.isEmpty && transitHop u 0 1 m == .out 3 1 0 false) = true) ∧
    (vcOf (0x11 : Byte) ≠ 0 ∧ (0x11 : Byte) ≠ opCont ∧ vcOf (1 : Byte) = 0 ∧ srcEp (rowMsg 1 0) = selfEp run) :=
  ⟨by decide, by decide, fun h => arrives rfl rfl h rfl rfl, by decide, by decide, by decide⟩

/-- A block with two bits of this word flipped. -/
def flipped (w : RamWord) (s : State) : State := { s with err := { s.err with flips := [(w, [0, 1])] } }

/-- O48, O49: a transit message and an open run whose words cannot be corrected. -/
theorem wit_WordsThatAreLost :
    (let m := rowMsg 2 0
     (takeMsg 0 1 m (flipped (.transit 0) (inRow 1 m))).any (fun u => arrivalOk u 0 1 m &&
       (readRam (.transit 0) { cls := 0, sev := 2, port := 0, unitKind := 3 } u).1) = true) ∧
    (readRam (.openRun 0 0) { cls := 0, sev := 2, unitKind := 5, addr := 0 } (flipped (.openRun 0 0) run)).1 = true := by decide +kernel

/-- The partition's window 0, enabled for all rights over 4 KiB. -/
def opened : State := windowed { state := winEnabled, pages := 1, map := 0x1000, rights := 7 }

/-- A request for n bytes of window 0. -/
def req (op : Byte) (n : BitVec 16) (slots : Byte) : Msg := { msg op with length := n, dslots := slots }

/-- A run of a WRITE of n bytes that waits for its CONT messages. -/
def openRun (n got next : Nat) : OpenRun := { source := 0, tag := 0, pa := 0x1000, length := n, got := got, next := next, window := 0, op := 0 }

/-- A block with this run. -/
def runOpen (r : OpenRun) : State := { opened with trk := { opened.trk with openRuns := [r] } }

/-- O49: requests that pass and that fail each check; CONT messages that fit their run and that do not. -/
theorem wit_RequestsAreCheckedAndAdmitted :
    (Arrives (.read .self (req 1 64 0)) .self (req 1 64 0) (arriving (req 1 64 0) opened) { opened with loopback := [] } ∧
      Arrives (.write .self (req 2 4096 12)) .self (req 2 4096 12) (arriving (req 2 4096 12) opened) { opened with loopback := [] } ∧
      Arrives (.fillMessage .self (req 3 64 1)) .self (req 3 64 1) (arriving (req 3 64 1) opened) { opened with loopback := [] } ∧
      Arrives (.cont .self { req 5 0 14 with aux := 1 }) .self { req 5 0 14 with aux := 1 }
        (arriving { req 5 0 14 with aux := 1 } (runOpen (openRun 4096 192 1))) { runOpen (openRun 4096 192 1) with loopback := [] }) ∧
    (formOk (req 1 64 0) = true ∧ formOk (req 1 64 1) = false ∧ formOk (req 2 4096 12) = true ∧ formOk (req 2 64 4) = true ∧
      formOk (req 3 64 1) = true ∧ admits opened = true ∧ checkWindow opened (req 1 64 0) = some 0 ∧
      checkWindow opened (req 2 4096 12) = some 0 ∧ checkWindow opened (req 3 64 1) = some 0 ∧
      checkWindow opened { req 1 64 0 with addr := 0x1000 } = none ∧ runOfKey opened 0 0 = none) ∧
    (let r := openRun 4096 192 1
     runOfKey (runOpen r) 0 0 = some r ∧ ({ req 5 0 14 with aux := 1 } : Msg).aux.toNat = r.next ∧ (0 : Byte).toNat ≠ r.next ∧
     r.got + 224 < r.length) ∧
    (let r := openRun 256 192 1
     runOfKey (runOpen r) 0 0 = some r ∧ r.got < r.length ∧ r.length ≤ r.got + 224 ∧ (req 5 0 4).dslots.toNat = slotsFor (r.length - r.got)) :=
  ⟨⟨arrives rfl rfl rfl rfl rfl, arrives rfl rfl rfl rfl rfl, arrives rfl rfl rfl rfl rfl, arrives rfl rfl rfl rfl rfl⟩, by decide, by decide, by decide⟩

/-- An ATOMIC ADD of 8 bytes. -/
def atomicMsg : Msg := { req 4 8 1 with attr := 0x10 }

/-- An entry of the replay table. -/
def entry (tag : BitVec 32) (done : Bool) : ReplayEntry := { source := 0, tag := tag, old := 5, status := stOk, done := done }

/-- A block whose window is open and whose replay table holds these entries. -/
def replayed (es : List ReplayEntry) : State := { opened with trk := { opened.trk with replay := es } }

/-- O50: an ATOMIC that is admitted, one found in the table, a reissue on a fresh table, one that fails each check; entries. -/
theorem wit_AtomicsRunOnceAndAreReplayed :
    Arrives (.atomic .self atomicMsg) .self atomicMsg (arriving atomicMsg opened) { opened with loopback := [] } ∧
    Arrives (.release .self (msg 0x14)) .self (msg 0x14) (arriving (msg 0x14) (replayed [entry 0 true])) { replayed [entry 0 true] with loopback := [] } ∧
    (mustStall opened atomicMsg = false ∧ opened.trk.stalled = [] ∧ formOk atomicMsg = true ∧ formOk { atomicMsg with attr := 0x40 } = false ∧
      replayOf opened atomicMsg = none ∧ answersAmbiguous opened atomicMsg = false ∧ checkWindow opened atomicMsg = some 0 ∧ admits opened = true ∧
      checkWindow opened { atomicMsg with addr := 0x1000 } = none ∧ mustStall opened { atomicMsg with addr := 0x1000 } = false ∧
      answersAmbiguous opened { atomicMsg with flags := 8 } = true ∧ mustStall opened { atomicMsg with flags := 8 } = false) ∧
    (replayOf (replayed [entry 0 true]) atomicMsg = some (entry 0 true) ∧ mustStall (replayed [entry 0 true]) atomicMsg = false ∧
      (entry 0 true).done = true ∧ (replayed [entry 0 true]).trk.replay.any (fun e => e.source == 0 && e.tag == 0 && e.done) = true ∧
      (replayed [entry 0 false]).trk.replay.any (fun e => e.source == 0 && e.tag == 0 && e.done) = false) :=
  ⟨arrives rfl rfl rfl rfl rfl, arrives rfl rfl rfl rfl rfl, by decide, by decide⟩

/-- O50: a full replay table. -/
theorem wit_AtomicsRunOnceAndAreReplayed_full :
    mustStall (replayed (List.replicate 16384 (entry 1 true))) atomicMsg = true ∧
    (replayed (List.replicate 16384 (entry 1 true))).trk.stalled.contains (.self, atomicMsg) = false := by decide +kernel

/-- A tracker of a request. -/
def tracked (m : Msg) : Tracker :=
  { index := 0, gen := 1, ctx := 0, part := 0, owner := .xfer 0 0, msgs := [m], target := 0 }

/-- A block with this tracker. -/
def tracking (t : Tracker) : State := { parted with trk := { parted.trk with trackers := [t] } }

/-- A response to it. -/
def rsp (op st : Byte) (slots : Byte) : Msg := { msg op with tag := 0x20000, aux := st, dslots := slots }

/-- O51: responses that answer a tracker, each in its form; ones that are late, of a reserved status, from elsewhere. -/
theorem wit_ResponsesCompleteTheirTracker :
    (Arrives (.ack .self (rsp 0x11 0 0)) .self (rsp 0x11 0 0) (arriving (rsp 0x11 0 0) (tracking (tracked (req 2 64 4))))
        { tracking (tracked (req 2 64 4)) with loopback := [] } ∧
      Arrives (.readData .self (rsp 0x12 0 4)) .self (rsp 0x12 0 4) (arriving (rsp 0x12 0 4) (tracking (tracked (req 1 64 0))))
        { tracking (tracked (req 1 64 0)) with loopback := [] } ∧
      Arrives (.atomicResult .self (rsp 0x13 0 1)) .self (rsp 0x13 0 1) (arriving (rsp 0x13 0 1) (tracking (tracked atomicMsg)))
        { tracking (tracked atomicMsg) with loopback := [] }) ∧
    (let t := tracked (req 2 64 4)
     answeredTracker (tracking t) (msg 0x11) = none ∧ answeredTracker (tracking t) (rsp 0x11 0 0) = some t ∧ (responseTracker t (tracking t)).1 = false ∧
     responseStatus 0 = true ∧ responseStatus 0xFF = false ∧ srcEp (rsp 0x11 0 0) = t.target.toNat ∧
     srcEp { rsp 0x11 0 0 with source := 3 } ≠ t.target.toNat ∧ trkOp t = opWrite ∧ t.readInst = none ∧ t.reissued = false) ∧
    (let t := tracked (req 1 256 0)
     trkOp t = opRead ∧ 224 * 0 < trkLength t ∧ (rsp 0x12 0 14).dslots.toNat = slotsFor (pieceLen (trkLength t) 0) ∧ otherInstance t (rsp 0x12 0 14) = false ∧
     (tabSet [] 0 [0] t.pieces).length * 224 < trkLength t ∧ otherInstance { t with readInst := some true } (rsp 0x12 0 14) = true) ∧
    (trkLength (tracked (req 1 64 0)) ≤ (tabSet [] 0 [0] (tracked (req 1 64 0)).pieces).length * 224 ∧ trkOp (tracked atomicMsg) = opAtomic) ∧
    (let s := { run with err := { run.err with injectEnable := true, inject := some ⟨4, 0, 1⟩ } }
     (responseTracker (tracked (req 1 64 0)) s).1 = true ∧ (responseTracker (tracked (req 1 64 0)) { run with err := { run.err with flips := [(.tracker 0, [0, 1])] } }).1 = true) ∧
    (let t := tracked (req 1 64 0)
     trackerOf run (0 : Fin 131072) = none ∧ trackerOf (tracking t) (0 : Fin 131072) = some t ∧ (tracking t).trk.held.contains 0 = false ∧
     isWriting t = false ∧ mayReissue (tracking t) t = false ∧
     ({ tracking t with trk := { (tracking t).trk with held := [0] } } : State).trk.held.contains 0 = true) :=
  ⟨⟨arrives rfl rfl rfl rfl rfl, arrives rfl rfl rfl rfl rfl, arrives rfl rfl rfl rfl rfl⟩, by decide, by decide, by decide, by decide +kernel, by decide⟩

/-- A reduce-scatter of 256 KiB on four endpoints of the X axis: one chunk, segments of one piece of 16 KiB. -/
def planX : PlanDef :=
  { collId := 5, kind := 2, axes := 1, slotLog2 := 14, slots := 4, depth := 1, chunkBytes := 262144, length := 262144
    axisX := { size := 4, pos := 1 } }

/-- A running block with this plan in slot 0, and this state of its sub-ring 0. -/
def planning (st : BitVec 3) (x : SubRing) : State :=
  { parted with hbx := { parted.hbx with plans := [(0, { state := st, defn := planX, rings := [(0, x)] })] } }

/-- A collective message of stream class 2. -/
def coll (op : Byte) (tag : BitVec 32) : Msg := { msg op with flags := 2, tag := tag, length := 4096 }

/-- O52: messages that fit the plan, of another plan, another round, a piece that has landed, and a reserved opcode. -/
theorem wit_CollectiveMessagesFindTheirSubRing :
    (let m := coll 0x20 5
     let s := planning 2 { given := 3 }
     Arrives (.collOpen .self m) .self m (arriving m s) { s with loopback := [] } ∧
     (ringsWith s ((plansWith s (m.tag.toNat % 2 ^ 16)).filter (fun k => (partRec s (planOf s k).part).key == m.pkey))
        (bitOf m.tail.toNat 2) (classOf m.flags) SubRing.up (srcEp m)).filter
        (fun x => (planAxes (planOf s x.1).defn).getD x.2.1 3 == bitsOf m.tail.toNat 0 2) = [(0, 0, 0)] ∧
     plansWith s 6 = [] ∧ expectedSize (planOf s 0) 0 0 0 = some 16384 ∧ m.length.toNat = min 4096 (16384 - 4096 * m.attr.toNat) ∧
     BitVec.ofNat 8 (bitsOf m.tail.toNat 8 8) = (planOf s 0).defn.round ∧ BitVec.ofNat 8 (bitsOf 0x100 8 8) ≠ (planOf s 0).defn.round) ∧
    (let x : SubRing := { given := 3, pieces := [{ seq := 0, size := 256, runs := [(0, 256)] }] }
     x.pieces.any (fun v => v.seq == 0 && landed v) = true) ∧
    (let m := { coll 0x21 5 with aux := 1 }
     let x : SubRing := { given := 3, pieces := [{ seq := 0, size := 16384, runs := [(0, 192)] }] }
     let s := planning 2 x
     Arrives (.collCont .self m) .self m (arriving m s) { s with loopback := [] } ∧
     ringsWith s (plansWith s (m.tag.toNat % 2 ^ 16)) (bitOf m.tag.toNat 27) (classOf m.flags) SubRing.up (srcEp m) = [(0, 0, 0)] ∧
     ringAt (planOf s 0) 0 0 = x ∧
     x.pieces.find? (fun w => w.seq == seqOf32 x (bitsOf m.tag.toNat 22 5)) = some { seq := 0, size := 16384, runs := [(0, 192)] } ∧
     landed { seq := 0, size := 16384, runs := [(0, 192)] } = false ∧ 192 + 224 * (m.aux.toNat - 1) ≤ tabGet 0 [(0, 192)] (bitsOf m.tag.toNat 16 6)) ∧
    (let m := coll 0x22 5
     let s := planning 2 {}
     Arrives (.collCredit .self m) .self m (arriving m s) { s with loopback := [] } ∧
     ringsWith s (plansWith s (m.tag.toNat % 2 ^ 16)) (bitOf m.aux.toNat 1) (classOf m.flags) SubRing.down (srcEp m) = [(0, 0, 0)] ∧
     BitVec.ofNat 8 (bitsOf m.tag.toNat 16 8) = (planOf s 0).defn.round) ∧
    (let m := coll 0x23 5
     let s := planning 2 {}
     Arrives (.collAbort .self m) .self m (arriving m s) { s with loopback := [] } ∧ m.opcode = opCollAbort ∧
     (plansWith s (m.tag.toNat % 2 ^ 16)).filter (fun k => (neighbours (planOf s k)).any (fun e => e.toNat == srcEp m)) = [0] ∧
     plansWith s 6 = []) ∧
    (let m := coll 0x2F 5
     Arrives (.collAbort .self m) .self m (arriving m run) { run with loopback := [] } ∧ m.opcode ≠ opCollAbort) := by
  repeat' first | exact arrives rfl rfl rfl rfl rfl | apply And.intro
  all_goals first | rfl | decide

/-- A Beater's job on piece 0 of sub-ring 0 of the plan in slot 0. -/
def job0 (again : Bool) : BeatJob := { plan := 0, ring := 0, seq := 0, add := true, repeated := again }

/-- A piece of 256 bytes of 1 that has landed with its watermark. -/
def piece0 : Piece := { seq := 0, size := 256, runs := [(0, 256)], wm := watermark (List.replicate 256 1) }

/-- A running plan whose Beater 0 works on that piece. -/
def beating (again : Bool) : State :=
  let s := planning 2 { given := 3, pieces := [piece0] }
  { s with btr := { s.btr with units := [(0, { job := some (job0 again) })] }, vat := { s.vat with mem := (List.range 256).map (fun i => (i, 1)) } }

/-- O53: a sub-ring that starts, one started, a piece to send and one forwarded, one held back; a Beater's attempts; timers. -/
theorem wit_RingStepsAndPiecesAdvance :
    (let s := planning 2 {}
     live s = true ∧ (planOf s 0).state = 2 ∧ 0 < levels (planOf s 0).defn ∧ (ringsOf (planOf s 0).defn).contains 0 = true ∧
     (ringAt (planOf s 0) 0 0).op < opCount (planOf s 0).defn ∧ (ringAt (planOf s 0) 0 0).started = false ∧ opReady s (planOf s 0) 0 0 = true ∧
     (ringAt (planOf s 0) 0 0).pieces = [] ∧ (ringAt (planOf s 0) 0 0).limit ≤ (ringAt (planOf s 0) 0 0).nextSend ∧
     (planOf s 0).defn.stepLimit = 0) ∧
    (planOf (planning 1 {}) 0).state ≠ 2 ∧
    (let t : LocalSlot := { idx := 0, chunk := 0, item := 0, job := 0, va := 0, size := 16384, ready := true }
     let x : SubRing := { started := true, opened := true, limit := 4, locals := [t] }
     let s := planning 2 x
     ringAt (planOf s 0) 0 0 = x ∧ x.nextSend < x.limit ∧ x.sends < opTotal (planOf s 0) 0 0 ∧ opAt (planOf s 0).defn x.op = (false, 0) ∧
     x.sends < piecesOf (planOf s 0).defn 0 0 ∧ staged (planOf s 0).defn 0 false = true ∧ (localAt x 0 0).any (·.ready) = true) ∧
    (let x : SubRing := { started := true, opened := true, limit := 4, sends := 1, nextSend := 1, ready := [{}] }
     let s := planning 2 x
     x.sends < opTotal (planOf s 0) 0 0 ∧ opAt (planOf s 0).defn x.op = (false, 0) ∧ piecesOf (planOf s 0).defn 0 0 ≤ x.sends ∧ x.ready = {} :: []) ∧
    ((beaterOf run 0).job = none ∧ (beaterOf (beating false) 0).job = some (job0 false) ∧ (beaterOf (beating true) 0).job = some (job0 true) ∧
      jobPiece (modBeater 0 (fun x => { x with job := none }) (beating false)) (job0 false) = some piece0 ∧
      (let s := beating false
       (beatCheck 0 (job0 false) piece0 {} (beatGave s (planOf s 0) (job0 false) piece0 {}) s).1 = none) ∧
      (beatCheck 0 (job0 true) piece0 { arriveWm := true } [] (beating true)).1 = some .arriveWm) ∧
    (let s := { queued qSwitchedOut ctxOpen with
       hbx := { run.hbx with plans := [(0, { state := 2, defn := { planX with stepLimit := 9 }, faulted := [0] })] } }
     (planOf s 0).defn.stepLimit ≠ 0 ∧ (queueOf s (planOf s 0).queue).state = qSwitchedOut ∧ (planOf s 0).faulted ≠ []) := by
  decide +kernel

/-- A descriptor of 64 bytes with this OP and otherwise zero. -/
def descOf (op : Byte) : List Byte := op :: List.replicate 63 0

/-- A run of that descriptor by queue 0. -/
def running (op : Byte) : Run := { id := 7, queue := some 0, irqQueue := 0, ctx := 0, part := 0, index := 0, desc := descOf op, phase := .active }

/-- A block with this run, of a READY partition and a RUNNING queue of an OPEN context. -/
def withRun (r : Run) : State :=
  let s := queued qRunning ctxOpen
  { s with cq := { s.cq with runs := [r] } }

/-- A block whose queue 0 has fetched a descriptor. -/
def fetching (f : Fetched) : State :=
  let s := queued qRunning ctxOpen
  { s with cq := { s.cq with queues := [(0, { state := qRunning, bound := true, tail := 1, fetched := [f] })] } }

/-- O54: a queue that may start with each kind of descriptor in front, and one that may not. -/
theorem wit_DescriptorsRunByTheirKind_start :
    mayStart run 0 = false ∧
    (let f : Fetched := { index := 0, desc := descOf 0 }
     mayStart (fetching f) 0 = true ∧ (queueOf (fetching f) 0).fetched = f :: [] ∧ queuePart (fetching f) 0 = some 0 ∧
     f.index = (queueOf (fetching f) 0).nextStart ∧ f.bad = false ∧ mayStart (fetching { f with bad := true }) 0 = true ∧
     mayStart (fetching { f with index := 1 }) 0 = true ∧ ({ f with index := 1 } : Fetched).index ≠ (queueOf (fetching f) 0).nextStart) := by
  decide +kernel

/-- A range of context 0 that starts at page 0 and is local. -/
def range0 : Range := { ctx := 0, epoch := 0, start := 0, pages := 1, rights := 7, remote := false, localPpn := 9, rank := 0, targetStart := 0 }

/-- A block whose range cache holds it. -/
def cached (s : State) : State := { s with xlt := { s.xlt with cache := [range0] } }

/-- O54: runs of each kind, active, holding, and of another kind. -/
theorem wit_DescriptorsRunByTheirKind :
    (runOf run 7 = none ∧ (running 12).op = dNop ∧ (running 12).op ≠ dCopy ∧
      [1, 2, 3, 4, 5, 6, 7, 8, 9, 10, 11, 12].all (fun op => (running op).op == op.toNat && runOf (withRun (running op)) 7 == some (running op)) = true) ∧
    ((running 4).phase = .active ∧ (running 4).key = none ∧ (running 4).failed = none ∧ ({ running 4 with key := some [] } : Run).key ≠ none) ∧
    ((running 7).num 24 8 ≤ (cntOf (withRun (running 7)) ((running 7).num 16 2)).toNat ∧
      (let r := { running 7 with desc := descOf 7 |>.set 24 5 |>.set 20 1 }
       (cntOf (withRun r) (r.num 16 2)).toNat < r.num 24 8 ∧ r.num 20 4 ≠ 0 ∧ ({ r with phase := .holding } : Run).op = dWait)) ∧
    (mayIssue (withRun (running 8)) (running 8) = true ∧ (running 8).xfers = [] ∧ (running 8).num 16 1 = 0 ∧
      mayIssue run (running 8) = false ∧
      (let r := { running 8 with desc := (descOf 8).set 16 1 }
       mayIssue (withRun r) r = true ∧ r.num 16 1 ≠ 0 ∧ (translate (.chunk 7 none) 0 (r.num 24 8) rightAtomic (withRun r)).1 = none ∧
       (translate (.chunk 7 none) 0 (r.num 24 8) rightAtomic (cached (withRun r))).1 = some range0)) ∧
    (let s := withRun (running 9)
     mayIssue s (running 9) = true ∧ trigFree s 0 = true ∧
     (translate (.chunk 7 none) 0 ((running 9).num 32 8) rightRead (modRun 7 (fun r => { r with phase := .active }) s)).1 = none ∧
     (let r := running 9
      (translate (.chunk 7 none) 0 (r.num 32 8) rightRead (modRun 7 (fun r => { r with phase := .active }) (cached (withRun r)))).1 = some range0 ∧
      placeOf range0 (r.num 32 8) = .loc 0x9000)) ∧
    (let s := withRun (running 10)
     mayIssue s (running 10) = true ∧ (running 10).plan = none ∧ freeSlot s = some 0 ∧
     freeSlot { s with hbx := { s.hbx with plans := (List.range 16).map (fun k => (k, { state := 2 })) } } = none) ∧
    (fenceReady (withRun (running 11)) (running 11) = true ∧
      (let r := { running 11 with index := 1 }
       let s := withRun r
       fenceReady { s with cq := { s.cq with runs := [r, { running 12 with id := 3 }] } } r = false)) ∧
    (let j : ChunkJob := { mover := 0, no := 0, len := 64 }
     let r := { running 1 with chunks := [j] }
     mayIssue (withRun r) r = true ∧ r.xfers.find? (fun t => t.stage == .ready) = none ∧ r.chunks.find? (fun j => decide (j.issued < j.len)) = some j) := by
  decide +kernel

/-- O54: no entry of the trigger table is free. -/
theorem wit_DescriptorsRunByTheirKind_full :
    let a : Armed := { id := 0, ctx := 0, part := 0, queue := 0, counter := 0, threshold := 0, desc := [] }
    trigFree { run with cq := { run.cq with armed := List.replicate 256 a } } 0 = false := by decide +kernel

/-- A fired triggered operation, a NOP. -/
def armed0 : Armed := { id := 7, ctx := 0, part := 0, queue := 0, counter := 0, threshold := 0, desc := descOf 12, fired := true }

/-- A block that holds it. -/
def triggered : State := { queued qRunning ctxOpen with cq := { (queued qRunning ctxOpen).cq with armed := [armed0] } }

/-- A request to the translation service that has been made. -/
def miss0 : Miss := { tag := 4, kind := 0, access := 1, ctx := 0, gen := 0, epoch := 0, vpn := 0, addr := 0, needs := [.ring 0] }

/-- A write of a request at the memory port. -/
def written (o : MemOwner) : MemReq := { ch := 0, tag := 0, op := .write, addr := 0, len := 64, owner := o }

/-- O55: each timer and answer with its owner, and without. -/
theorem wit_TimersAndAnswersMoveTheirOwner :
    (triggered.cq.armed.find? (fun a => a.id == 7) = some armed0 ∧ run.cq.armed.find? (fun a => a.id == 7) = none ∧ freeMover triggered = some 0 ∧
      armed0.fired = true ∧ schedules triggered = true ∧ takesTurns triggered armed0.part = true ∧ (schedule triggered).map (·.1) = some (4096 + 7)) ∧
    (({ run with memReqs := [written (.status 7 .done)] } : State).memReqs.find? (fun r => r.owner == .status 7 .done) =
      some (written (.status 7 .done)) ∧ run.memReqs.find? (fun r => r.owner == .status 7 .done) = none) ∧
    (let s := queued qRunning ctxOpen
     let t := { s with cq := { s.cq with queues := [(0, { state := qRunning, bound := true, periodic := true })] } }
     queuePart t 0 = some 0 ∧ (queueOf t 0).periodic = true ∧ (queueOf t 0).bound = true ∧ (queueOf t 0).state ≠ qHalted ∧
     (ctxOf t (queueOf t 0).ctx).state = ctxOpen ∧ takesTurns t 0 = true ∧ (queueOf s 0).periodic = false) ∧
    ((ctxOf (queued qHalted ctxClosing) 0).state = ctxClosing ∧ ctxResolved (queued qHalted ctxClosing) 0 = true ∧
      ctxPart (queued qHalted ctxClosing) 0 = some 0 ∧ (partOf (queued qHalted ctxClosing) 0).state = partReady ∧
      ctxResolved (queued qRunning ctxClosing) 0 = false ∧ (ctxOf (queued qHalted ctxQuarantine) 0).state = ctxQuarantine) ∧
    (let s := { queued qRunning ctxOpen with xlt := { run.xlt with misses := [miss0] } }
     injectingReply s = false ∧ (takeReply 0x104 s).1.map (·.1) = some miss0 ∧ (takeReply 5 s).1 = none ∧
     run.xlt.misses.find? (fun m => m.tag == 4) = none ∧
     injectingReply { s with err := { s.err with inject := some ⟨7, 0, 1⟩ } } = true ∧
     (takeTimeout 4 s).1 = none ∧
     (let again := { miss0 with retry := true }
      (takeTimeout 4 { s with xlt := { s.xlt with misses := [again] } }).1.map (·.1) = some again)) ∧
    (({ run with xlt := { run.xlt with setAside := [(4, 0)] } } : State).xlt.setAside.any (fun x => x.1 == 4) = true ∧ run.xlt.setAside.any (fun x => x.1 == 4) = false) ∧
    (({ run with memReqs := [written (.faultRecord 0 2)] } : State).memReqs.find? (isFaultReq 0) = some (written (.faultRecord 0 2)) ∧
      run.memReqs.find? (isFaultReq 0) = none) ∧
    (let b : List Byte := (List.replicate 64 0).set 20 2
     let s := { run with xlt := { run.xlt with fq := [(0, { writing := [(0, b)] })] } }
     (fqOf s 0).writing = (0, b) :: [] ∧ numAt b 20 4 = (2 : BitVec 32).toNat) ∧
    (let s := windowed { state := winWithdrawing }
     (winOf s 0).state = winWithdrawing ∧ winQuiet s 0 = true ∧
     winQuiet { s with trk := { s.trk with openRuns := [openRun 256 192 1] } } 0 = false) := by decide +kernel

/-- A request to the root of trust. -/
def rot0 (o : RotOwner) (again : Bool) : RotReq := { tag := 3, typ := 1, body := [], owner := o, repeated := again }

/-- A block with that request. -/
def asking (o : RotOwner) (again : Bool) : State := { run with sec := { run.sec with rot := [rot0 o again] } }

/-- O56: frames, results and requests of each kind; tests, resets and scans that run and that do not; the steward. -/
theorem wit_TrustVatAndResetEvents :
    (badFrame { tag := 3, sopInside := true } = true ∧ badFrame { tag := 3 } = false ∧ run.sec.rot.find? (fun r => r.tag == 3) = none ∧
      (asking .dieIdentity false).sec.rot.find? (fun r => r.tag == 3) = some (rot0 .dieIdentity false) ∧
      ({ tag := 3 } : RotMsg).status = 0 ∧ neverRepeated (.verifyImage false false) = true ∧ neverRepeated .dieIdentity = false) ∧
    (let s := { run with vat := { run.vat with state := vatActive, scrubRow := 8191 } }
     run.vat.state ≠ vatActive ∧ s.vat.state = vatActive ∧ s.vat.busy = false ∧ 8191 ≤ s.vat.scrubRow ∧
     ({ s with vat := { s.vat with scrubRow := 8190 } } : State).vat.scrubRow < 8191) ∧
    (run.vat.busy = false ∧ ({ run with vat := { run.vat with busy := true, preserving := true } } : State).vat.busy = true ∧
      (banksIn 0).filter (fun b => decide (b < 48)) = [] ∧ 3 ≤ (banksIn 7).length ∧ run.btr.busy = false ∧
      ({ run with btr := { run.btr with busy := true } } : State).btr.busy = true) ∧
    (let s := { parted with par := { parted.par with parts := [(0, { state := partResetting })] } }
     (partOf s 0).state = partResetting ∧ s.par.engineBusy = false ∧ partDrained s 0 = true ∧ (partOf run 0).state ≠ partResetting ∧
     ({ s with par := { s.par with engineBusy := true } } : State).par.engineBusy = true ∧ s.memReqs = [] ∧ s.memWaiting = []) ∧
    (run.err.hangScan = true ∧ blockedQueues run = [] ∧ (readSteward run).1 = false ∧
      (readSteward { run with err := { run.err with flips := [(.steward, [0, 1])] } }).1 = true ∧ ({ run with err := { run.err with hangScan := false } } : State).err.hangScan = false) ∧
    (stewardUp run = true ∧ injectingHeartbeat run = false ∧ stewardUp early = false ∧
      (run.nowUs :: run.err.firedAt).length < 3 ∧
      (let t := { run with err := { run.err with firedAt := [0, 0, 0] } }
       3 ≤ (t.err.firedAt.filter (fun a => decide (spanFrom t ≤ a))).length) ∧
      ({ run with err := { run.err with restarting := true } } : State).err.restarting = true ∧ run.err.restarting = false) ∧
    (let s := { run with err := { run.err with drainState := 1 } }
     s.err.drainState = 1 ∧ s.trk.trackers = [] ∧ s.cq.runs.all (fun r => r.statusWait.isSome) = true ∧ run.err.drainState ≠ 1) := by decide +kernel

/-- O57: commands that the steward, the PEC and the gate turn away, and one that may run; reports; a long command that ends. -/
theorem wit_SidebandCommandsPassTheGate :
    (sidebandCode (.drain true) = some (true, 0x0B) ∧ sidebandCode (.drain false) = some (false, 0x0B) ∧ live run = true ∧
      run.err.restarting = false ∧ ({ run with err := { run.err with restarting := true } } : State).err.restarting = true ∧
      gate 0x0B early ≠ stOk ∧ gate 0x0B run = stOk) ∧
    (groupOf 0x0B = some 3 ∧ policyAllows run 3 = true ∧ policyAllows { run with sec := { run.sec with policy := 1 } } 3 = false ∧
      bootStage early = true ∧ bootAllows 0x0B = false ∧ policyAllows early 3 = true ∧ bootStage run = false ∧ inHold run = false ∧
      groupOf 0x0F = none) ∧
    (run.sec.reports = [] ∧ ({ run with sec := { run.sec with reports := [[]] } } : State).sec.reports ≠ []) ∧
    (let s := { run with sec := { run.sec with longFrom := some false, longCmd := 0x0D } }
     s.sec.longFrom = some false ∧ longResult s = some (stOk, 0) ∧ run.sec.longFrom = none) := by decide +kernel

/-- A block held in directed start-up, and one in directed mode past start-up. -/
def heldUp : State := { run with pins := { run.pins with ready := false }, fur := { phase := 3, fwStarted := true, outcome := 2, directed := true } }
def directed : State := { run with fur := { run.fur with directed := true }, vat := { run.vat with state := vatActive, tested := true } }

/-- O58: every code may run; a state and operands for each case. -/
theorem wit_SidebandCommandsTakeEffect :
    ([0x01, 0x02, 0x03, 0x04, 0x05, 0x06, 0x07, 0x08, 0x09, 0x0A, 0x0B, 0x0C, 0x0D, 0x0E, 0x10, 0x11, 0x20, 0x21, 0x22, 0x23, 0x24].all
        (fun c => gate c run == stOk) = true ∧ live run = true ∧ run.err.restarting = false ∧ run.sec.longFrom = none) ∧
    ((readRegs 1 0x300000 run).1 = true ∧ (readRegs 1 0xFFFFF8 run).1 = false ∧ bootStage run = false) ∧
    (directed.fur.directed = true ∧ heldUp.pins.ready = false ∧
      ({ heldUp with fur := { heldUp.fur with directed := false } } : State).fur.directed = false ∧
      writesOther 0x020000 1 0xFF { heldUp with fur := { heldUp.fur with directed := false } } = false) ∧
    ((orderPower 2 run).1 = stOk ∧ (orderPower 1 run).1 ≠ stOk ∧
      ({ run with sec := { run.sec with longFrom := some false } } : State).sec.longFrom.isSome = true) ∧
    ((orderPartReset (partNo 0) parted).1 = stOk ∧ (orderPartReset (partNo 0) run).1 ≠ stOk ∧ (orderEngineReset run).1 = stOk ∧
      (orderEngineReset { run with par := { run.par with engineBusy := true } }).1 ≠ stOk) ∧
    (run.route.digestBusy = false ∧ ([0].zipIdx 0).any (fun x => rankRefused (writeRanks 0 [0] run) x.2 x.1) = false) ∧
    (heldNow heldUp = true ∧ heldNow run = false ∧ gate 0x10 heldUp = stOk) ∧
    (marchAllowed false directed = true ∧ marchAllowed true directed = true ∧ selfTestAllowed directed = true ∧
      (let s := { directed with ports := [(0, { state := psTest })] }
       (portOf s 0).state = psTest ∧ (setLoopCtrl 0 1 false 1 s).isSome = true) ∧ (barOf directed 0).isSome = true ∧
      barOf { directed with fur := { directed.fur with image := { directed.fur.image with dimX := 4, cabling := [(0, { medium := 1 })] } } } 0 = none ∧
      (let s := withPort deckled
       (portOf s 0).state = psUp ∧ (portOf s 0).cal.pass = none ∧ (4 : BitVec 9) = lanesWhere (fun k => decide ((portOf s 0).deckle.spare.toNat = k)) ∧
       (setSpareLoop 0 1 false 4 s).isSome = true ∧ setSpareLoop 0 1 false 1 s = none)) ∧
    (stagingRefused run 0x1100000 = false ∧ 0x1100000 % 0x10000 = 0 ∧ 0x1100000 + 0x10000 ≤ nvmEnd ∧ nvmEnd - 240 + 240 ≤ nvmEnd) := by
  decide +kernel

/-- O59: vectors of one granule. -/
theorem wit_IntegerSumsWrap : (List.replicate 256 (1 : Byte)).length = 256 * 1 ∧ 4 * 63 < 256 * 1 ∧ 8 * 31 < 256 * 1 := by decide +kernel

/-- O60: the last coordinates and the last number. -/
theorem wit_EndpointNumbersPackCoordinates : 63 < 64 ∧ 31 < 32 ∧ 63 + 64 * 63 + 4096 * 31 < 2 ^ 17 ∧ selfEp run = selfEp early := by decide

/-! ### Values that the spec works out -/

/-- 06 R167: the check value of CRC-32, of the digits 1 to 9. -/
theorem test_crc32_check_value : crc32 [0x31, 0x32, 0x33, 0x34, 0x35, 0x36, 0x37, 0x38, 0x39] = 0xCBF43926 := by decide +kernel

/-- 12, "a watermark and a single flipped bit": the piece, and the piece with one bit flipped. -/
theorem test_watermark_worked : watermark ((List.replicate 256 (0 : Byte)).set 8 1) = 0x3779B97F4A7C1506 := by decide +kernel
theorem test_watermark_flipped : watermark ((List.replicate 256 (0 : Byte)).set 8 3) = 0x3779B97F4A7C1512 := by decide +kernel

/-- 12, "Why a fixed order gives the same bits": the two groupings of three BF16 numbers. -/
theorem test_bf16_fixed_order : fmtBf16.add (fmtBf16.add 0x3B80 0x3B80).1 0x3F80 = (0x3F81, false) := by decide +kernel
theorem test_bf16_arrival_order : fmtBf16.add (fmtBf16.add 0x3B80 0x3F80).1 0x3B80 = (0x3F80, false) := by decide +kernel

/-- 12, "one MXFP8 E4M3 block": the scale and the three elements of the sum. -/
theorem test_mxfp8_block :
    (mxFmt 6).map (fun m =>
      let y := addBlock m 0x7F 0x7F ([0x7E, 0x38, 0x01] ++ List.replicate 29 0) ([0x7E, 0x08, 0x00] ++ List.replicate 29 0)
      (y.1, y.2.1.take 4)) = some (0x80, [0x7E, 0x30, 0x00, 0x00]) := by decide +kernel

/-- 13, "one access through a repaired bank": a mapped bank is the spare. -/
theorem test_repaired_bank : physBank { map0 := { logical := 29, valid := true } } 29 = 48 := by decide +kernel

/-- 17, "finding and changing registers": Q_CONFIG of queue 130 written by byte 0 alone changes RING_LOG2 to 10 and keeps CHUNK_LOG2. -/
theorem test_q_config_byte :
    let s := { parted with fur := { parted.fur with image := { partitions := [(0, { present := true, queueBase := 128, queueCount := 64 })] } } }
    readReg 0x522088 s = some 0x11286 ∧
    (wrAt 0x522088 0 0x8A 1 s).bind (fun t => readReg 0x522088 t) = some 0x1128A := by decide +kernel

/-- 17, "finding and changing registers": PORT_DECKLE of port 4 after the worked calender pass. -/
theorem test_port_deckle_worked :
    let d : Deckle := { map := [(0, 8), (1, 0), (2, 1), (3, 2), (4, 3), (5, 4), (6, 5), (7, 6)], spare := 7, width := 3, epoch := 8 }
    readReg 0x140200 { run with ports := [(4, { deckle := d })] } = some 0x0000083765432108 := by decide +kernel

end Sys2Proof.Tests
end

/-! PROOFS. What a step on an empty queue and a command of any kind answer (00 R3, R7; 02 R34, R35). -/

namespace Sys2Proof.Machine

/-- An event of the reset, clock and supply pins is one of five commands (02 R54, R55, R60, R63). -/
theorem pinEvent_eq_true {c : Instr} (hp : pinEvent c = true) :
    c = .coldResetAssert ∨ (∃ sbAddr lowUs, c = .coldStart sbAddr lowUs) ∨ c = .rootPllLock ∨ c = .rootPllUnlock ∨
      c = .railOutOfTolerance := by
  unfold pinEvent at hp
  split at hp <;> simp_all

/-- A pin event answers a next state: its effect holds whether the block runs or not. -/
theorem exec_pinEvent_next {c : Instr} (hp : pinEvent c = true) (s : State) : ∃ t, exec c s = .next t := by
  obtain rfl | ⟨sbAddr, lowUs, rfl⟩ | rfl | rfl | rfl := pinEvent_eq_true hp
  · exact ⟨_, exec_coldResetAssert s⟩
  · exact ⟨_, exec_coldStart sbAddr lowUs s⟩
  · exact ⟨_, exec_rootPllLock s⟩
  · exact ⟨_, exec_rootPllUnlock s⟩
  · exact ⟨_, exec_railOutOfTolerance s⟩

/-- Whatever the effect, `act` answers a next state, for a running block and a stopped one alike. -/
theorem act_next (f : State → State) (s : State) : ∃ t, act f s = .next t := ⟨_, rfl⟩

/-- A step on an empty queue is the tick of the block's clock (log entry 30). -/
theorem step_of_pending_nil {s : State} (h : s.pending = []) : step s = .next (tick s) := by
  simp [step, h]

/-- Settles O2: the step is a tick, and the tick advances the clock of a running block only. -/
theorem emptyQueueTicks : Obligations.EmptyQueueTicks := by
  intro s h
  rw [step_of_pending_nil h, tick]

/-- Settles O7: a pin event answers its effect, and every other command answers by `act`, which never stops. -/
theorem everyCommandCompletes : Obligations.EveryCommandCompletes := by
  intro c s
  cases hp : pinEvent c with
  | true => exact exec_pinEvent_next hp s
  | false =>
    obtain ⟨f, hf⟩ := exec_is_act c s hp
    rw [hf]
    exact act_next f s

end Sys2Proof.Machine

section

/- These proofs are elaborated one after another: each one that waits for the kernel beside the long checks of the tests above
holds a thread with a stack of its own, and together they pass the memory that the check allows. -/
set_option Elab.async false

/-! PROOFS. The reset, clock and supply pins: what each event does, that a stopped block ignores every other command, and the
invariant that every step keeps (02 R28, R54, R55, R60, R63; 04 R104). -/

namespace Sys2Proof.Machine

/-! ### The events of the pins -/

/-- A block runs when it is out of cold reset and its root PLL is locked. -/
theorem live_iff (s : State) : live s = true ↔ s.pins.rstColdN = true ∧ s.pins.clkLock = true := by
  simp [live]

/-- Settles O5: the effect of a command that is no pin event is applied by `act`, which leaves a stopped block as it is. -/
theorem stoppedBlockIgnoresCommands : Obligations.StoppedBlockIgnoresCommands := by
  intro c s hp hl
  obtain ⟨f, hf⟩ := exec_is_act c s hp
  rw [hf, act_stopped f hl]

/-- A failed rail changes nothing in cold reset. -/
theorem doRailOut_of_cold {s : State} (h : s.pins.rstColdN = false) : doRailOut s = s := by
  simp [doRailOut, h]

/-- What a failed rail outside cold reset leaves of the block (02 R63; log entry 7). -/
theorem doRailOut_keeps {s : State} (h : s.pins.rstColdN = true) :
    (doRailOut s).pins.rstColdN = true ∧ (doRailOut s).pins.railsOk = false ∧ (doRailOut s).fur.nvm = s.fur.nvm ∧
      (doRailOut s).pending = s.pending ∧ (doRailOut s).freeCtr = s.freeCtr + 1 := by
  simp [doRailOut, h]

/-- Settles O9: the cold state is the reset state with what is outside the block, and a failed rail follows its two cases. -/
theorem resetAndRailPins : Obligations.ResetAndRailPins := by
  refine ⟨fun s => ?reset, fun s hc => ?railsCold, fun s hr => ⟨doRailOut s, exec_railOutOfTolerance s, doRailOut_keeps hr⟩⟩
  case reset => exact exec_coldResetAssert s
  case railsCold => rw [exec_railOutOfTolerance, doRailOut_of_cold hc]

/-- COLD_START by the state of RST_COLD_N and how long it was low (04 R104; log entry 10). -/
theorem doColdStart_eq (a : BitVec 2) (low : Nat) (s : State) : doColdStart a low s =
    if s.pins.rstColdN = false ∧ 10 ≤ low then { s with pins := { s.pins with rstColdN := true, sbAddr := a } } else s := by
  by_cases h : s.pins.rstColdN = false ∧ 10 ≤ low
  · rw [if_pos h, doColdStart, if_neg (by simp [h.1]; omega)]
  · rw [if_neg h, doColdStart, if_pos (by simp at h; cases hr : s.pins.rstColdN <;> simp [hr] at h ⊢; omega)]

/-- The root PLL locks once, out of cold reset. -/
theorem doPllLock_of_unlocked {s : State} (hr : s.pins.rstColdN = true) (hk : s.pins.clkLock = false) (hl : s.pins.lockLost = false) :
    doPllLock s = { s with pins := { s.pins with clkLock := true, clkOut := true, nvmRstN := true, portReady := true } } := by
  simp [doPllLock, hr, hk, hl]

/-- In cold reset, when locked, and after a lost lock the event of the lock changes nothing. -/
theorem doPllLock_of_not {s : State} (h : s.pins.rstColdN = false ∨ s.pins.clkLock = true ∨ s.pins.lockLost = true) :
    doPllLock s = s := by
  rcases h with h | h | h <;> simp [doPllLock, h]

/-- The lock of a locked PLL is lost. -/
theorem doPllUnlock_of_locked {s : State} (hk : s.pins.clkLock = true) :
    doPllUnlock s = { s with pins := { s.pins with clkLock := false, clkOut := false, lockLost := true } } := by
  simp [doPllUnlock, hk]

/-- An unlocked PLL has no lock to lose. -/
theorem doPllUnlock_of_unlocked {s : State} (hk : s.pins.clkLock = false) : doPllUnlock s = s := by
  simp [doPllUnlock, hk]

/-- Settles O10: each clause is one case of one pin event's effect. -/
theorem startAndClockPins : Obligations.StartAndClockPins := by
  refine ⟨fun s a low => ?start, fun s hr hk hl => ?lock, fun s h => ?noLock,
    fun s hk => ⟨_, ?unlock, ?stops, rfl⟩, fun s hk => ?noUnlock⟩
  case start => rw [exec_coldStart, doColdStart_eq]
  case lock => rw [exec_rootPllLock, doPllLock_of_unlocked hr hk hl]
  case noLock => rw [exec_rootPllLock, doPllLock_of_not h]
  case unlock => rw [exec_rootPllUnlock, doPllUnlock_of_locked hk]
  case stops => simp [live]
  case noUnlock => rw [exec_rootPllUnlock, doPllUnlock_of_unlocked hk]

/-! ### The invariant -/

/-- Of a running block the invariant only asks that, with good rails, the clock outputs run and no lock has been lost. -/
theorem inv_iff_of_live {s : State} (hl : live s = true) :
    Inv s ↔ (s.pins.railsOk = true → s.pins.clkOut = true ∧ s.pins.lockLost = false) := by
  obtain ⟨hr, hk⟩ := (live_iff s).mp hl
  constructor
  · intro h hg
    refine ⟨by rw [h.clocks hg, hk], Bool.eq_false_iff.mpr fun hlost => ?_⟩
    simpa [hk] using h.lost hg hlost
  · intro h
    exact {
      cold := fun hc => by simp [hr] at hc
      unlocked := fun _ hu => by simp [hk] at hu
      clocks := fun hg => by rw [(h hg).1, hk]
      lost := fun hg hlost => by simp [(h hg).2] at hlost
      noClock := fun hc => by simp [hr] at hc }

/-- The cold state of any block meets the invariant. -/
theorem inv_coldState (s : State) : Inv (coldState s {}) where
  cold := fun _ => rfl
  unlocked := fun _ _ _ => rfl
  clocks := fun _ => rfl
  lost := fun _ _ => rfl
  noClock := fun _ => rfl

/-- Settles O3: the reset state is its own cold state. -/
theorem resetMeetsTheInvariant : Obligations.ResetMeetsTheInvariant :=
  inv_coldState State.reset

/-- The invariant says nothing of the queue. -/
theorem inv_pending {s : State} (h : Inv s) (q : List Instr) : Inv { s with pending := q } where
  cold := fun hc => congrArg (fun x : State => { x with pending := q }) (h.cold hc)
  unlocked := fun hg hk hl => congrArg (fun x : State => { x with pending := q }) (h.unlocked hg hk hl)
  clocks := h.clocks
  lost := h.lost
  noClock := h.noClock

/-- The tick advances only the time of a running block, and the invariant does not read the time of one. -/
theorem inv_tick {s : State} (h : Inv s) : Inv (tick s) := by
  unfold tick
  split
  next hl => exact (inv_iff_of_live (s := { s with nowUs := s.nowUs + 1 }) hl).mpr ((inv_iff_of_live hl).mp h)
  next => exact h

/-- A state with the inputs of a running block that meets the invariant meets it too. -/
theorem inv_keepInputs {s : State} (hl : live s = true) (h : Inv s) (t : State) : Inv (keepInputs s t) :=
  (inv_iff_of_live (s := keepInputs s t) hl).mpr ((inv_iff_of_live hl).mp h)

/-- Whatever its effect, a command that acts by `act` keeps the invariant. -/
theorem inv_of_act {f : State → State} {s t : State} (h : Inv s) (ht : act f s = .next t) : Inv t := by
  unfold act at ht
  injection ht with ht
  subst ht
  split
  next hl => exact inv_keepInputs hl h _
  next => exact h

/-- COLD_START takes a block out of its cold state with its root PLL unlocked. -/
theorem inv_doColdStart {s : State} (h : Inv s) (a : BitVec 2) (low : Nat) : Inv (doColdStart a low s) := by
  rw [doColdStart_eq]
  split
  next hs =>
    have hcold := h.cold hs.1
    rw [hcold]
    exact {
      cold := fun hc => by cases hc
      unlocked := fun _ _ _ => rfl
      clocks := fun _ => rfl
      lost := fun _ hlost => by cases hlost
      noClock := fun hc => by cases hc }
  next => exact h

/-- A lock starts the clock outputs of a block that has lost none. -/
theorem inv_doPllLock {s : State} (h : Inv s) : Inv (doPllLock s) := by
  by_cases hs : s.pins.rstColdN = false ∨ s.pins.clkLock = true ∨ s.pins.lockLost = true
  · rw [doPllLock_of_not hs]
    exact h
  · simp only [not_or, Bool.not_eq_false, Bool.not_eq_true] at hs
    obtain ⟨hr, hk, hlost⟩ := hs
    rw [doPllLock_of_unlocked hr hk hlost]
    exact (inv_iff_of_live (by simp [live, hr])).mpr fun _ => ⟨rfl, hlost⟩

/-- An unlock, which a block in cold reset cannot see, stops the clock outputs and records the lost lock. -/
theorem inv_doPllUnlock {s : State} (h : Inv s) : Inv (doPllUnlock s) := by
  cases hk : s.pins.clkLock with
  | false => rw [doPllUnlock_of_unlocked hk]; exact h
  | true =>
    rw [doPllUnlock_of_locked hk]
    exact {
      cold := fun hc => by rw [h.noClock hc] at hk; cases hk
      unlocked := fun _ _ hlost => by cases hlost
      clocks := fun _ => rfl
      lost := fun _ _ => rfl
      noClock := fun _ => rfl }

/-- After a failed rail the invariant asks nothing but that RST_COLD_N is high. -/
theorem inv_doRailOut {s : State} (h : Inv s) : Inv (doRailOut s) := by
  cases hr : s.pins.rstColdN with
  | false => rw [doRailOut_of_cold hr]; exact h
  | true =>
    obtain ⟨hhigh, hrails, -⟩ := doRailOut_keeps hr
    exact {
      cold := fun hc => by simp [hhigh] at hc
      unlocked := fun hg => by simp [hrails] at hg
      clocks := fun hg => by simp [hrails] at hg
      lost := fun hg => by simp [hrails] at hg
      noClock := fun hc => by simp [hhigh] at hc }

/-- Every command keeps the invariant: the five pin events each by their effect, the others by `act`. -/
theorem inv_exec {c : Instr} {s t : State} (h : Inv s) (ht : exec c s = .next t) : Inv t := by
  cases hp : pinEvent c with
  | false =>
    obtain ⟨f, hf⟩ := exec_is_act c s hp
    exact inv_of_act h (hf ▸ ht)
  | true =>
    obtain rfl | ⟨a, low, rfl⟩ | rfl | rfl | rfl := pinEvent_eq_true hp
    · cases ht; exact inv_coldState s
    · cases ht; exact inv_doColdStart h a low
    · cases ht; exact inv_doPllLock h
    · cases ht; exact inv_doPllUnlock h
    · cases ht; exact inv_doRailOut h

/-- Settles O4: an empty queue is a tick, and a command runs on the state with the rest of the queue. -/
theorem everyStepKeepsTheInvariant : Obligations.EveryStepKeepsTheInvariant := by
  intro s t h ht
  cases hq : s.pending with
  | nil =>
    rw [step_of_pending_nil hq] at ht
    cases ht
    exact inv_tick h
  | cons c rest =>
    simp only [step, hq] at ht
    exact inv_exec (inv_pending h rest) ht

end Sys2Proof.Machine

/-! PROOFS. The memory port: where the pieces of an access go, and what an answer does (02 R31 to R38; 15 R430). -/

namespace Sys2Proof.Machine

/-! ### Requests and their granules -/

/-- A piece of an access lies in the span, has at most 1,024 bytes, and lies in one granule: the unit at whose multiples the
span is split divides the granule (02 R31, R32). -/
theorem mem_memPieces_granule {s : State} {fuel a n off : Nat} {x : Nat × Nat × Nat} (hx : x ∈ memPieces (memUnit s) fuel a n off) :
    x.2.1 ≤ 1024 ∧ a ≤ x.1 ∧ x.1 + x.2.1 ≤ a + n ∧ (x.1 + x.2.1 - 1) / memGranule s = x.1 / memGranule s := by
  obtain ⟨⟨k, hk⟩, hpos, hmax⟩ := memUnit_bounds s
  obtain ⟨hfirst, hlast, hlen, hunit⟩ := mem_memPieces (memUnit s) hpos fuel a n off x hx
  refine ⟨Nat.le_trans hlen hmax, hfirst, hlast, ?_⟩
  rw [hk, ← Nat.div_div_eq_div_mul, ← Nat.div_div_eq_div_mul, hunit]

/-- Settles O44: a request that an access adds is one of its pieces, at the channel of the piece's address. -/
theorem memoryRequestsStayInTheirGranule : Obligations.MemoryRequestsStayInTheirGranule := by
  intro s op o a n off data use r hr
  obtain hold | ⟨q, hq, tag, rfl⟩ := mem_issueAll r _ s hr
  · exact (List.mem_append.mp hold).elim .inl (.inr ∘ .inl)
  · obtain ⟨x, hx, rfl⟩ := List.mem_map.mp hq
    exact .inr (.inr ⟨rfl, mem_memPieces_granule hx⟩)

/-! ### Answers -/

/-- A beat that is not the last joins those before. -/
theorem takeBeat_of_more {r x : MemReq} {data : List Byte} {err e : BitVec 2} {inj : Bool} {s u : State}
    (hu : readErr r err s = (e, inj, u))
    (hx : x = { r with beats := r.beats + 1, got := r.got ++ padTo 128 data, bad := r.bad || decide (2 ≤ e.toNat) })
    (hmore : x.beats < beatsOf r) :
    takeBeat r data err s = noteMemErr r e inj { u with memReqs := u.memReqs.map (fun y => if y = r then x else y) } := by
  subst hx
  simp only [takeBeat, hu]
  rw [if_pos hmore]

/-- The last beat frees the tag and hands the bytes on. -/
theorem takeBeat_of_last {r x : MemReq} {data : List Byte} {err e : BitVec 2} {inj : Bool} {s u : State}
    (hu : readErr r err s = (e, inj, u))
    (hx : x = { r with beats := r.beats + 1, got := r.got ++ padTo 128 data, bad := r.bad || decide (2 ≤ e.toNat) })
    (hlast : beatsOf r ≤ x.beats) :
    takeBeat r data err s =
      readAnswered x (wantedBytes x) x.bad (pumpMem (endReqUse r (noteMemErr r e inj (dropReq r u)))) := by
  subst hx
  simp only [takeBeat, hu]
  rw [if_neg (Nat.not_lt.mpr hlast)]

/-- A beat for an outstanding read is taken by it. -/
theorem runs_memReadData {s : State} {ch : Fin 16} {tag : Fin 512} {data : List Byte} {err : BitVec 2} {r : MemReq}
    (hl : live s = true) (hf : findReq s ch false tag = some r) :
    Runs (.memReadData ch tag data err) s (takeBeat r data err s) :=
  runs_of (exec_memReadData ch tag data err s) hl (by simp only [hf])

/-- Settles O43: an answer is taken by the request with its channel, pool and tag, and by none otherwise. -/
theorem memoryAnswersAreTaken : Obligations.MemoryAnswersAreTaken := by
  refine ⟨fun s u ch tag data err e inj r x hl hf hu hx => ⟨fun hmore => ?more, fun hlast => ?last⟩,
    fun s ch tag err r hl hf => ?write, fun s ch tag data err hl => ⟨fun hf => ?noRead, fun hf => ?noWrite⟩,
    fun s r => ⟨if_pos rfl, rfl⟩⟩
  case more => exact takeBeat_of_more hu hx hmore ▸ runs_memReadData hl hf
  case last => exact takeBeat_of_last hu hx hlast ▸ runs_memReadData hl hf
  case write => exact runs_of (exec_memWriteResponse ch tag err s) hl (by simp only [hf, takeWriteRsp])
  case noRead => exact runs_of (exec_memReadData ch tag data err s) hl (by simp only [hf])
  case noWrite => exact runs_of (exec_memWriteResponse ch tag err s) hl (by simp only [hf])

end Sys2Proof.Machine

/-! PROOFS. The load/store aperture: which requests are answered at once and which are issued (02 R41; 03 R74; 08 R240 to R242,
R471). -/

namespace Sys2Proof.Machine

/-- A command of the aperture acts by its kind and ordering class. -/
theorem exec_aperture {c : Instr} {k : ApertureKind} {rel : Bool} {r : LsaReq} (h : apertureOf c = some (k, rel, r)) (s : State) :
    exec c s = act (aperRequest k rel r) s := by
  unfold apertureOf at h
  split at h <;> cases h <;> rfl

/-- An operation of 08 R240, by its number. -/
theorem lsaOpOk_iff (r : LsaReq) : lsaOpOk r = true ↔ r.op.toNat < 7 := by simp [lsaOpOk]

/-- The gate's answer is given at once. -/
theorem aperRequest_gated {k : ApertureKind} {rel : Bool} {r : LsaReq} {s : State} {st : Byte} (hg : aperGate s r = some st) :
    aperRequest k rel r s = lsaAnswer r st [] s := by
  simp only [aperRequest, hg]

/-- A request behind the gate whose OP is none of the seven is malformed. -/
theorem aperRequest_badOp {k : ApertureKind} {rel : Bool} {r : LsaReq} {s : State} (hg : aperGate s r = none) (ho : 7 ≤ r.op.toNat) :
    aperRequest k rel r s = lsaAnswer r stMalformed [] s := by
  have hop : lsaOpOk r = false := by simp [lsaOpOk, ho]
  simp [aperRequest, hg, hop]

/-- A store that enables no byte has nothing to do. -/
theorem aperRequest_noByte {rel : Bool} {r : LsaReq} {s : State} (hg : aperGate s r = none) (ho : r.op.toNat < 7) (hb : r.be = 0) :
    aperRequest .store rel r s = lsaAnswer r stOk [] s := by
  simp [aperRequest, hg, (lsaOpOk_iff r).mpr ho, hb]

/-- A request of wrong form is malformed, whether its OP is good or not. -/
theorem aperRequest_badForm {k : ApertureKind} {rel : Bool} {r : LsaReq} {s : State} (hg : aperGate s r = none)
    (hb : ¬(k = .store ∧ r.be = 0)) (hf : lsaFormOk k r = false) : aperRequest k rel r s = lsaAnswer r stMalformed [] s := by
  simp only [aperRequest, hg, hf]
  cases lsaOpOk r with
  | false => rfl
  | true => rw [if_neg (by decide), if_neg hb]; rfl

/-- Any other request joins the outstanding ones and is translated and issued. -/
theorem aperRequest_issued {k : ApertureKind} {rel : Bool} {r : LsaReq} {s : State} (hg : aperGate s r = none) (ho : r.op.toNat < 7)
    (hf : lsaFormOk k r = true) (hb : k = .store → (lsaEnabled r).isEmpty = false ∧ r.be ≠ 0) :
    aperRequest k rel r s = aperGo s.trk.nextId { s with
      trk := { s.trk with nextId := s.trk.nextId + 1 }
      aper := s.aper ++ [{ id := s.trk.nextId, req := r, kind := k, relaxed := rel, parts := lsaParts k r }] } := by
  have hstore : ¬(k = .store ∧ r.be = 0) := fun h => (hb h.1).2 h.2
  have hbytes : ¬(k = .store ∧ (lsaEnabled r).isEmpty = true) := fun h => by simp [(hb h.1).1] at h
  simp only [aperRequest, hg, (lsaOpOk_iff r).mpr ho, hf]
  rw [if_neg (by decide), if_neg hstore, if_neg (by decide), if_neg hbytes]

/-- A FENCE that the gate turns away. -/
theorem fenceRequest_gated {r : LsaReq} {s : State} {st : Byte} (hg : aperGate s r = some st) :
    fenceRequest r s = lsaAnswer r st [] s := by
  simp only [fenceRequest, hg]

/-- A FENCE whose OP is none of the seven is malformed. -/
theorem fenceRequest_badOp {r : LsaReq} {s : State} (hg : aperGate s r = none) (ho : 7 ≤ r.op.toNat) :
    fenceRequest r s = lsaAnswer r stMalformed [] s := by
  have hop : lsaOpOk r = false := by simp [lsaOpOk, ho]
  simp [fenceRequest, hg, hop]

/-- A FENCE waits behind the outstanding requests, and every FENCE with none before it is answered. -/
theorem fenceRequest_waits {r : LsaReq} {s : State} (hg : aperGate s r = none) (ho : r.op.toNat < 7) :
    fenceRequest r s = answerFences (s.aper.length + 1) { s with
      trk := { s.trk with nextId := s.trk.nextId + 1 }
      aper := s.aper ++ [{ id := s.trk.nextId, req := r, kind := .fence, relaxed := false }] } := by
  simp [fenceRequest, hg, (lsaOpOk_iff r).mpr ho]

/-- A FENCE that is the only request is next to be answered. -/
theorem nextFence_single {s : State} {a : Aperture} (hk : a.kind = .fence) (hs : s.aper = [a]) : nextFence s = some a := by
  simp [nextFence, hs, hk]

/-- A FENCE behind no request is answered at once. -/
theorem fenceRequest_alone {r : LsaReq} {s : State} (hg : aperGate s r = none) (ho : r.op.toNat < 7) (hs : s.aper = []) :
    fenceRequest r s = lsaAnswer r stOk [] { s with trk := { s.trk with nextId := s.trk.nextId + 1 } } := by
  rw [fenceRequest_waits hg ho, hs]
  simp only [List.length_nil, List.nil_append, answerFences]
  rw [nextFence_single rfl rfl]
  simp [lsaAnswer]

/-- Before ready every request is UNREACHABLE (02 R41). -/
theorem aperGate_notReady {s : State} (r : LsaReq) (h : s.pins.ready = false) : aperGate s r = some stUnreachable := by
  simp [aperGate, h]

/-- In P0 or P1 and without a drain, a context that is not OPEN has no rights. -/
theorem aperGate_notOpen {s : State} {r : LsaReq} (hr : s.pins.ready = true) (hd : s.err.drainState = 0) (hp : s.power.cur.toNat < 2)
    (hc : (ctxOf s r.ctx).state ≠ ctxOpen) : aperGate s r = some stRights := by
  have hup : ¬(s.err.drainState ≠ 0 ∨ 2 ≤ s.power.cur.toNat) := fun h => h.elim (· hd) (Nat.not_le.mpr hp)
  simp only [aperGate, hr]
  rw [if_neg (by decide), if_neg hup, if_pos hc]

/-- Settles O45: each clause is one outcome of the gate, the OP, the enables and the form. -/
theorem apertureRequestsAreAnsweredOrIssued : Obligations.ApertureRequestsAreAnsweredOrIssued := by
  refine ⟨fun c k rel r s hl hc => ?request, fun r s hl => ?fence, fun s r => ⟨aperGate_notReady r, aperGate_notOpen⟩,
    fun _ _ _ _ => rfl⟩
  case request =>
    have run {t : State} : aperRequest k rel r s = t → Runs c s t := runs_of (exec_aperture hc s) hl
    refine ⟨fun st hg => run (aperRequest_gated hg), fun hg ho => run (aperRequest_badOp hg ho), fun hg ho hk hb => run ?_,
      fun hg hb hf => run (aperRequest_badForm hg hb hf), fun hg ho hf hb => run (aperRequest_issued hg ho hf hb)⟩
    subst hk
    exact aperRequest_noByte hg ho hb
  case fence =>
    have run {t : State} : fenceRequest r s = t → Runs (.apertureFence r) s t := runs_of (exec_apertureFence r s) hl
    exact ⟨fun st hg => run (fenceRequest_gated hg), fun hg ho => run (fenceRequest_badOp hg ho),
      fun hg ho => run (fenceRequest_waits hg ho), fun hg ho hs => run (fenceRequest_alone hg ho hs)⟩

end Sys2Proof.Machine

/-! PROOFS. Telemetry: a sample joins the windows of its rail, and a window that fills starts anew (02 R56; 03 R87, R91). -/

namespace Sys2Proof.Machine

/-- The contents of a window after a sample of v joins it (03 R91). -/
def sampleJoined (a : TelAcc) (v : Nat) (est : Bool) : TelAcc :=
  { sum := a.sum + v, count := a.count + 1, peak := max a.peak v, estimated := a.estimated || est }

/-- A window that is not full keeps the sample and sets no register. -/
theorem addSample_of_lt {k w v : Nat} {est : Bool} {s : State} {b : TelAcc}
    (hb : b = sampleJoined (tabGet {} s.power.telAcc (3 * k + w)) v est) (hlen : b.count < windowLen w) :
    addSample k w v est s = { s with power := { s.power with telAcc := tabSet {} (3 * k + w) b s.power.telAcc } } := by
  subst hb
  exact if_pos hlen

/-- A full window sets its registers and starts anew. -/
theorem addSample_of_le {k w v : Nat} {est : Bool} {s : State} {b : TelAcc}
    (hb : b = sampleJoined (tabGet {} s.power.telAcc (3 * k + w)) v est) (hlen : windowLen w ≤ b.count) :
    addSample k w v est s = { s with power := { s.power with
      tel := tabSet {} (3 * k + w) { avg := sat16 (b.sum / b.count), peak := sat16 b.peak
                                     winCount := (tabGet {} s.power.tel (3 * k + w)).winCount + 1, estimated := b.estimated } s.power.tel
      telAcc := tabSet {} (3 * k + w) {} s.power.telAcc } } := by
  subst hb
  exact if_neg (Nat.not_lt.mpr hlen)

/-- A good reading of a rail gives its power, not estimated, and is kept. -/
theorem railSample_good (r : Fin 3) (v : RailRead) (s : State) : railSample r (some v) s = (railPower v, false,
    { s with power := { s.power with avsFails := tabSet 0 r 0 s.power.avsFails, rails := tabSet {} r v s.power.rails } }) := rfl

/-- Three good readings make three powers, none of them estimated, that join the windows of each rail and of the total. -/
theorem doTelemetry_good {s u w : State} {v0 v1 v2 : RailRead}
    (hu : u = { s with power := { s.power with
      avsFails := tabSet 0 2 0 (tabSet 0 1 0 (tabSet 0 0 0 s.power.avsFails))
      rails := tabSet {} 2 v2 (tabSet {} 1 v1 (tabSet {} 0 v0 s.power.rails))
      samples := ((railPower v0 + railPower v1 + railPower v2) :: s.power.samples).take 10 } })
    (hw : w = [0, 1, 2].foldl (fun t i => addSample 3 i (railPower v2) false (addSample 2 i (railPower v1) false
      (addSample 1 i (railPower v0) false (addSample 0 i (railPower v0 + railPower v1 + railPower v2) false t)))) u) :
    doTelemetry (some v0) (some v1) (some v2) s =
      if (tabGet {} w.power.tel 0).winCount = (tabGet {} s.power.tel 0).winCount then w else judgeCeiling w := by
  simp only [hw, hu, doTelemetry, railSample_good, forEach, Bool.or_false, Fin.val_zero, Fin.val_one, Fin.val_two]

/-- A 1 ms window that meets the ceiling clears CEIL_UNMET (03 R87). -/
theorem judgeCeiling_of_met {s : State} (h : (tabGet {} s.power.tel 0).avg.toNat ≤ s.power.effective.toNat * 10) :
    judgeCeiling s = { s with power := { s.power with ceilUnmet := false } } := by
  have hbelow : decide (s.power.effective.toNat * 10 < (tabGet {} s.power.tel 0).avg.toNat) = false :=
    decide_eq_false (Nat.not_lt.mpr h)
  simp only [judgeCeiling, hbelow]
  rfl

/-- Settles O15: the sample's three parts, and the two outcomes of a window, each by the equation of its function. -/
theorem telemetrySamplesJoinTheWindows : Obligations.TelemetrySamplesJoinTheWindows := by
  refine ⟨fun s u w v0 v1 v2 hl hu hw => ?sample, fun s k w v est b hk hb => ⟨fun hlen => ?joins, fun hlen => ?fills⟩,
    fun s h => judgeCeiling_of_met h⟩
  case sample => exact runs_of (exec_telemetrySample _ _ _ s) hl (doTelemetry_good hu hw)
  case joins =>
    rw [addSample_of_lt hb hlen]
    exact ⟨tabGet_tabSet_self .., rfl⟩
  case fills =>
    rw [addSample_of_le hb hlen]
    exact ⟨tabGet_tabSet_self .., tabGet_tabSet_self ..⟩

end Sys2Proof.Machine

/-! PROOFS. The sideband's gate: the PEC, the policy, the boot stage and a hold, and what else arrives on the sideband (02 R50;
15 R419; 16 R447 to R455). -/

namespace Sys2Proof.Machine

/-! ### A command that does not run -/

/-- While the steward restarts no command is acknowledged. -/
theorem sbCommand_restarting {pec : Bool} {code : Byte} {f : State → Answer} {s : State} (h : s.err.restarting = true) :
    sbCommand pec code f s = setRsp {} s := by
  simp [sbCommand, h]

/-- A command with a bad PEC is counted and not acknowledged. -/
theorem sbCommand_badPec {code : Byte} {f : State → Answer} {s : State} (h : s.err.restarting = false) :
    sbCommand false code f s = setRsp {} { s with sec := { s.sec with pecErrors := satInc s.sec.pecErrors } } := by
  simp [sbCommand, h]

/-- A command that the gate turns away is answered with the gate's STATUS and leaves the state. -/
theorem sbCommand_gated {code : Byte} {f : State → Answer} {s : State} (h : s.err.restarting = false) (hg : gate code s ≠ stOk) :
    sbCommand true code f s = sbReply s (gate code s) [] s := by
  rw [sbReply_refused s _ hg]
  simp [sbCommand, h, hg]

/-! ### The gate -/

/-- A code that names no command is malformed. -/
theorem gate_of_unknown {code : Byte} {s : State} (h : groupOf code = none) : gate code s = stMalformed := by
  simp only [gate, h]

/-- A group that the policy does not allow has no rights. -/
theorem gate_of_policy {code : Byte} {s : State} {g : Nat} (h : groupOf code = some g) (hp : policyAllows s g = false) :
    gate code s = stRights := by
  simp [gate, h, hp]

/-- In the boot stage a command outside the recovery set is refused. -/
theorem gate_of_boot {code : Byte} {s : State} {g : Nat} (h : groupOf code = some g) (hp : policyAllows s g = true)
    (hb : bootStage s = true) (hr : bootAllows code = false) : gate code s = stStateRefused := by
  simp [gate, h, hp, hb, hr]

/-- Past the boot stage and outside a hold an allowed command may run. -/
theorem gate_of_open {code : Byte} {s : State} {g : Nat} (h : groupOf code = some g) (hp : policyAllows s g = true)
    (hb : bootStage s = false) (hh : inHold s = false) : gate code s = stOk := by
  simp [gate, h, hp, hb, hh]

/-! ### The alert response and the end of a long command -/

/-- The block whose report waits gives its address. -/
theorem doAlertResponse_waiting {s : State} (hr : s.sec.reports ≠ []) (he : s.err.restarting = false) :
    doAlertResponse s = setRsp { acked := true, payload := [0x60 + s.pins.sbAddr.setWidth 8] } s := by
  simp [doAlertResponse, hr, he, ownAddress]

/-- Without a report, and while the steward restarts, no address is given. -/
theorem doAlertResponse_silent {s : State} (h : s.sec.reports = [] ∨ s.err.restarting = true) :
    doAlertResponse s = setRsp {} s := by
  rcases h with h | h <;> simp [doAlertResponse, h]

/-- A long command whose work is done leaves its STATUS and RESULT with its source. -/
theorem doLongComplete_done {s : State} {b : Bool} {st r : Byte} (hb : s.sec.longFrom = some b) (hr : longResult s = some (st, r)) :
    doLongComplete s = { setOp b { opOf b s with state := 2, status := st, res := r } s with
      sec := { (setOp b { opOf b s with state := 2, status := st, res := r } s).sec with longFrom := none } } := by
  simp only [doLongComplete, hb, hr]

/-- Without a long command, and before its work is done, nothing ends. -/
theorem doLongComplete_idle {s : State} (h : s.sec.longFrom = none ∨ longResult s = none) : doLongComplete s = s := by
  unfold doLongComplete
  split
  next hb hr => exact h.elim (fun h => by simp [h] at hb) (fun h => by simp [h] at hr)
  next => rfl

/-- Settles O57: the three ways a command does not run, the gate's cases in their order, and the other events of the sideband. -/
theorem sidebandCommandsPassTheGate : Obligations.SidebandCommandsPassTheGate := by
  refine ⟨fun c s k code hl hc => ?command,
    fun code s g h => ⟨gate_of_policy h, gate_of_boot h, gate_of_open h⟩,
    fun code s h => gate_of_unknown h,
    fun s hl hr he => runs_of (exec_alertResponse s) hl (doAlertResponse_waiting hr he),
    fun s hl h => runs_of (exec_alertResponse s) hl (doAlertResponse_silent h),
    fun s hl => runs_of (exec_busReset s) hl rfl,
    fun s hl => ⟨fun b st r hb hr => ?ends, fun h => ?idle⟩⟩
  case command =>
    obtain ⟨f, hf⟩ := exec_sideband hc s
    refine ⟨fun hr => runs_of hf hl (sbCommand_restarting hr), fun hr hk => ?_, fun hr hk hg => ?_⟩ <;> subst hk
    · exact runs_of hf hl (sbCommand_badPec hr)
    · exact runs_of hf hl (sbCommand_gated hr hg)
  case ends => exact runs_of (exec_longCommandComplete s) hl (doLongComplete_done hb hr)
  case idle => exact runs_of (exec_longCommandComplete s) hl (doLongComplete_idle h)

end Sys2Proof.Machine

end

section

/- As above, one proof after another: proofs that wait for the kernel together pass the memory that the check allows. -/
set_option Elab.async false

/-! PROOFS. Power: the drain before P2 and the ends of transitions (03 R70 to R75; 13 R375; log entries 111, 120). -/

namespace Sys2Proof.Machine

/-! ### The drain before P2 (03 R73) -/

/-- With every run drained and no tracker left the park begins. -/
theorem doP2Drained_of_drained {s : State} {o : PowerOrder} (hd : s.power.draining = some o)
    (hr : s.cq.runs.all (runDrains s) = true) (ht : s.trk.trackers = []) : doP2Drained s = startPark o.target s := by
  simp only [doP2Drained, hd, hr, ht, List.isEmpty_nil, Bool.and_self, if_true]

/-- Without an order, and while a run or a tracker is left, nothing begins. -/
theorem doP2Drained_of_waiting {s : State}
    (h : s.power.draining = none ∨ s.cq.runs.all (runDrains s) = false ∨ s.trk.trackers ≠ []) : doP2Drained s = s := by
  unfold doP2Drained
  split
  next o hd =>
    rcases h with h | h | h
    · simp [h] at hd
    · rw [h]; rfl
    · rw [List.isEmpty_eq_false_iff.mpr h, Bool.and_false]; rfl
  next => rfl

/-- A drain that has not ended in time abandons its order. -/
theorem doP2Timeout_of_draining {s : State} (h : s.power.draining.isSome = true) :
    doP2Timeout s = refusePower { s with power := { s.power with draining := none } } := by
  obtain ⟨o, ho⟩ := Option.isSome_iff_exists.mp h
  simp only [doP2Timeout, ho]

/-- Without a drain there is none to abandon. -/
theorem doP2Timeout_of_none {s : State} (h : s.power.draining = none) : doP2Timeout s = s := by
  simp only [doP2Timeout, h]

/-! ### What a transition waits for (03 R74, R75) -/

/-- The wake from P1 to P0 waits for nothing. -/
theorem transitionReady_p0 (s : State) : transitionReady 0 s = true := rfl

/-- The wake to P1 waits for the answer of every port. -/
theorem transitionReady_p1 (s : State) : transitionReady 1 s = wakeDone s := rfl

/-- P2 is entered from P3, or once every port has parked. -/
theorem transitionReady_p2 (s : State) : transitionReady 2 s = (s.power.cur == 3 || allParked s) := rfl

/-- P3 waits for the end of a Vat test. -/
theorem transitionReady_p3 (s : State) : transitionReady 3 s = (s.vat.state != 2 && !s.vat.busy) := rfl

/-! ### The end of a transition (03 R75) -/

/-- The block has entered power state t. -/
def enterPower (t : BitVec 3) (s : State) : State := { s with power := { s.power with transition := none, cur := t } }

/-- What follows once P2 is entered: a later order leads on to P3 or back up to P1. -/
def leaveParked (s : State) : State :=
  match s.power.onward with
  | some 3 => { s with power := { s.power with transition := some 3, onward := none } }
  | some 1 => startWake s
  | _ => s

/-- Without a transition none ends. -/
theorem doTransition_of_none {s : State} (h : s.power.transition = none) : doTransition s = s := by
  simp only [doTransition, h]

/-- A transition goes on while what it waits for is not done. -/
theorem doTransition_of_waiting {s : State} {t : BitVec 3} (ht : s.power.transition = some t) (hr : transitionReady t s = false) :
    doTransition s = s := by
  simp [doTransition, ht, hr]

/-- The wake to P0 ends in P0, or in P1 where POLICY has become 1 (log entry 111). -/
theorem doTransition_p0 {s : State} (ht : s.power.transition = some 0) :
    doTransition s = if s.power.policy = true then { s with power := { s.power with transition := none } } else wakeAll (enterPower 0 s) := by
  simp only [doTransition, ht, transitionReady_p0]
  rfl

/-- The other transitions enter their state; P3 puts the Vat to sleep, P2 ends a waking and may lead on, and P1 leads on to P0
where POLICY is 0. -/
theorem doTransition_of_ready {s : State} {t : BitVec 3} (ht : s.power.transition = some t) (hr : transitionReady t s = true)
    (h0 : t ≠ 0) : doTransition s =
      if t = 3 then vatSleep (enterPower t s)
      else if t = 2 then leaveParked (if s.vat.state = 3 then vatWake (enterPower t s) else enterPower t s)
      else if t = 1 ∧ s.power.policy = false then
        wakeAll { enterPower t s with power := { (enterPower t s).power with transition := some 0 } }
      else enterPower t s := by
  simp only [doTransition, ht, hr, Bool.not_true, if_neg h0]
  rfl

/-- Waking the Vat leaves the order that P2 leads on to. -/
theorem onward_vatWake_enterPower (t : BitVec 3) (s : State) :
    (if s.vat.state = 3 then vatWake (enterPower t s) else enterPower t s).power.onward = s.power.onward := by
  split <;> rfl

/-- An order for P3 leads on to P3. -/
theorem leaveParked_p3 {s : State} (h : s.power.onward = some 3) :
    leaveParked s = { s with power := { s.power with transition := some 3, onward := none } } := by
  simp only [leaveParked, h]
  rfl

/-- An order for P1 leads back up. -/
theorem leaveParked_p1 {s : State} (h : s.power.onward = some 1) : leaveParked s = startWake s := by
  simp only [leaveParked, h]
  rfl

/-- Without a later order the block stays in P2. -/
theorem leaveParked_of_ne {s : State} (h3 : s.power.onward ≠ some 3) (h1 : s.power.onward ≠ some 1) : leaveParked s = s := by
  unfold leaveParked
  split
  next h => exact absurd h h3
  next h => exact absurd h h1
  next => rfl

/-- Settles O13: the drain by its two outcomes, and a transition by the state that it leads to. -/
theorem powerDrainAndTransitionEvents : Obligations.PowerDrainAndTransitionEvents := by
  refine ⟨fun s o hl hd hr ht => runs_of (exec_p2DrainComplete s) hl (doP2Drained_of_drained hd hr ht),
    fun s hl h => runs_of (exec_p2DrainComplete s) hl (doP2Drained_of_waiting h),
    fun s hl h => runs_of (exec_p2DrainTimeout s) hl (doP2Timeout_of_draining h),
    fun s hl h => runs_of (exec_p2DrainTimeout s) hl (doP2Timeout_of_none h),
    fun s hl h => runs_of (exec_powerTransitionComplete s) hl (doTransition_of_none h),
    fun s t hl ht hr => runs_of (exec_powerTransitionComplete s) hl (doTransition_of_waiting ht hr),
    fun s u t hl ht hr hu => ?ends,
    fun s => ⟨transitionReady_p0 s, transitionReady_p1 s, transitionReady_p2 s, transitionReady_p3 s⟩⟩
  case ends =>
    have run {v : State} : doTransition s = v → Runs .powerTransitionComplete s v := runs_of (exec_powerTransitionComplete s) hl
    replace hu : u = enterPower t s := hu
    subst hu
    refine ⟨?wakes, ?stays, ?entersP1, ?passesP1, ?entersP2, ?entersP3, ?other⟩
    case wakes =>
      rintro rfl hp
      exact run (by rw [doTransition_p0 ht, if_neg (by simp [hp])])
    case stays =>
      rintro rfl hp
      exact run (by rw [doTransition_p0 ht, if_pos hp])
    case entersP1 =>
      rintro rfl hp
      exact run (by rw [doTransition_of_ready ht hr (by decide), if_neg (by decide), if_neg (by decide), if_neg (by simp [hp])])
    case passesP1 =>
      rintro rfl hp
      exact run (by rw [doTransition_of_ready ht hr (by decide), if_neg (by decide), if_neg (by decide), if_pos ⟨rfl, hp⟩])
    case entersP2 =>
      rintro v rfl rfl
      have parked := doTransition_of_ready ht hr (by decide)
      rw [if_neg (by decide), if_pos rfl] at parked
      have kept := onward_vatWake_enterPower 2 s
      refine ⟨fun h => ?_, fun h => ?_, fun h3 h1 => ?_⟩ <;> refine run (parked.trans ?_)
      · exact leaveParked_p3 (kept.trans h)
      · exact leaveParked_p1 (kept.trans h)
      · exact leaveParked_of_ne (kept ▸ h3) (kept ▸ h1)
    case entersP3 =>
      rintro rfl
      exact run (by rw [doTransition_of_ready ht hr (by decide), if_pos rfl])
    case other =>
      intro h
      obtain ⟨h0, h1, h2, h3⟩ : t ≠ 0 ∧ t ≠ 1 ∧ t ≠ 2 ∧ t ≠ 3 := by
        refine ⟨?_, ?_, ?_, ?_⟩ <;> rintro rfl <;> simp at h
      exact run (by rw [doTransition_of_ready ht hr h0, if_neg h3, if_neg h2, if_neg (fun e => h1 e.1)])

end Sys2Proof.Machine

/-! PROOFS. The throttle: its level follows the 1 ms average, and its intervals idle the ports (03 R86, R89, R90; log entry 2). -/

namespace Sys2Proof.Machine

/-! ### The throttle level (03 R86, R89) -/

/-- The ticks that THROTTLE_TICK counts before it judges the average. -/
def countTick (s : State) : State :=
  { s with power := { s.power with
    raiseTicks := s.power.raiseTicks + 1, t7Ticks := if s.power.level = 7 then s.power.t7Ticks + 1 else 0 } }

/-- A level other than T0 is set and starts nothing. -/
theorem setLevel_of_ne_zero {k : Nat} (h : k ≠ 0) (s : State) :
    setLevel k s = { s with power := { s.power with level := BitVec.ofNat 3 k } } := by
  simp only [setLevel, if_neg h]

/-- A tick judges the average after it has counted. -/
theorem doThrottleTick_eq (s : State) : doThrottleTick s =
    if aboveCeiling (countTick s) s.power.effective.toNat = true then
      (if s.power.level.toNat < 7 then setLevel (s.power.level.toNat + 1) (countTick s) else countTick s)
    else if s.power.level.toNat = 0 ∨ s.power.raiseTicks + 1 < 10 then countTick s
    else if levelPower (s.power.level.toNat - 1) * 100 < s.power.effective.toNat * 10 * 95 then
      setLevel (s.power.level.toNat - 1) { countTick s with power := { (countTick s).power with raiseTicks := 0 } }
    else countTick s := rfl

/-- Above the ceiling the level rises by one. -/
theorem doThrottleTick_raises {s : State} (ha : aboveCeiling (countTick s) s.power.effective.toNat = true)
    (hl : s.power.level.toNat < 7) :
    doThrottleTick s = { countTick s with power := { (countTick s).power with level := s.power.level + 1 } } := by
  have next : BitVec.ofNat 3 (s.power.level.toNat + 1) = s.power.level + 1 := by bv_omega
  rw [doThrottleTick_eq, if_pos ha, if_pos hl, setLevel_of_ne_zero (by omega), next]

/-- The highest level stays. -/
theorem doThrottleTick_stays_at_top {s : State} (ha : aboveCeiling (countTick s) s.power.effective.toNat = true)
    (hl : s.power.level = 7) : doThrottleTick s = countTick s := by
  have top : ¬ s.power.level.toNat < 7 := by simp [hl]
  rw [doThrottleTick_eq, if_pos ha, if_neg top]

/-- The lowest level stays, and so does any other within 1 ms of the last lowering. -/
theorem doThrottleTick_stays_below {s : State} (ha : aboveCeiling (countTick s) s.power.effective.toNat = false)
    (h : s.power.level = 0 ∨ s.power.raiseTicks + 1 < 10) : doThrottleTick s = countTick s := by
  have held : s.power.level.toNat = 0 ∨ s.power.raiseTicks + 1 < 10 := h.imp_left (fun e => by simp [e])
  rw [doThrottleTick_eq, if_neg (by simp [ha]), if_pos held]

/-- Below the ceiling, 1 ms after the last lowering, the level falls by one where its prediction is under 95 per cent. -/
theorem doThrottleTick_lowers {s : State} (ha : aboveCeiling (countTick s) s.power.effective.toNat = false)
    (hl : s.power.level ≠ 0) (ht : 10 ≤ s.power.raiseTicks + 1) : doThrottleTick s =
      if levelPower (s.power.level.toNat - 1) * 100 < s.power.effective.toNat * 10 * 95 then
        setLevel (s.power.level.toNat - 1) { countTick s with power := { (countTick s).power with raiseTicks := 0 } }
      else countTick s := by
  have due : ¬ (s.power.level.toNat = 0 ∨ s.power.raiseTicks + 1 < 10) := by
    rintro (h | h)
    · exact hl (BitVec.eq_of_toNat_eq h)
    · omega
  rw [doThrottleTick_eq, if_neg (by simp [ha]), if_neg due]

/-! ### The throttle interval (03 R90) -/

/-- Within its interval a port leaves electrical idle in P0, and otherwise when it has something to send. -/
theorem doThrottleInterval_inside {s : State} {n : Nat} {b : Bool}
    (hi : b = true ∨ s.power.level = 0 ∨ (portOf s n).cal.forceActive = true) : doThrottleInterval n b s = modPort n (fun p =>
      if (s.power.cur == 0 || hasWork s (portOf s n) || (portOf s n).rx.nullReady) = true then idleExit n { p with inInterval := true }
      else { p with inInterval := true }) s := by
  have inside : (b || decide (s.power.level = 0) || (portOf s n).cal.forceActive) = true := by simpa [or_assoc] using hi
  simp only [doThrottleInterval, inside, if_true]

/-- Within its interval a port in P0, or with something to send, leaves electrical idle. -/
theorem doThrottleInterval_wakes {s : State} {n : Nat} {b : Bool} (hi : b = true ∨ s.power.level = 0 ∨ (portOf s n).cal.forceActive = true)
    (hw : s.power.cur = 0 ∨ hasWork s (portOf s n) = true ∨ (portOf s n).rx.nullReady = true) :
    doThrottleInterval n b s = modPort n (fun p => idleExit n { p with inInterval := true }) s := by
  have wake : (s.power.cur == 0 || hasWork s (portOf s n) || (portOf s n).rx.nullReady) = true := by simpa [or_assoc] using hw
  simp only [doThrottleInterval_inside hi, wake, if_true]

/-- Within its interval a port outside P0 with nothing to send stays in electrical idle. -/
theorem doThrottleInterval_quiet {s : State} {n : Nat} {b : Bool} (hi : b = true ∨ s.power.level = 0 ∨ (portOf s n).cal.forceActive = true)
    (hc : s.power.cur ≠ 0) (hw : hasWork s (portOf s n) = false) (hn : (portOf s n).rx.nullReady = false) :
    doThrottleInterval n b s = modPort n (fun p => { p with inInterval := true }) s := by
  have quiet : (s.power.cur == 0 || hasWork s (portOf s n) || (portOf s n).rx.nullReady) = false := by
    rw [beq_false_of_ne hc, hw, hn]; rfl
  simp only [doThrottleInterval_inside hi, quiet, Bool.false_eq_true, if_false]

/-- Outside its interval a port whose link is up is in electrical idle. -/
theorem doThrottleInterval_outside {s : State} {n : Nat} {b : Bool} (hb : b = false) (hl : s.power.level ≠ 0)
    (hf : (portOf s n).cal.forceActive = false) : doThrottleInterval n b s =
      modPort n (fun p => if linkUp p = true then idleEnter n { p with inInterval := false } else { p with inInterval := false }) s := by
  have outside : (b || decide (s.power.level = 0) || (portOf s n).cal.forceActive) = false := by
    rw [hb, decide_eq_false hl, hf]; rfl
  simp only [doThrottleInterval, outside]
  rfl

/-- Settles O14: a tick by the side of the ceiling that the average is on, and an interval by its side of the port's. -/
theorem throttleFollowsTheAverage : Obligations.ThrottleFollowsTheAverage := by
  refine ⟨fun s u hl hu => ?tick, fun s n b hl => ?interval, fun s => rfl⟩
  case tick =>
    have run {v : State} : doThrottleTick s = v → Runs .throttleTick s v := runs_of (exec_throttleTick s) hl
    replace hu : u = countTick s := hu
    subst hu
    exact ⟨fun ha hk => run (doThrottleTick_raises ha hk), fun ha hk => run (doThrottleTick_stays_at_top ha hk),
      fun ha hk => run (doThrottleTick_stays_below ha hk), fun ha hk ht => run (doThrottleTick_lowers ha hk ht)⟩
  case interval =>
    have run {v : State} : doThrottleInterval n b s = v → Runs (.throttleInterval n b) s v := runs_of (exec_throttleInterval n b s) hl
    exact ⟨fun hi => ⟨fun hw => run (doThrottleInterval_wakes hi hw), fun hc hw hn => run (doThrottleInterval_quiet hi hc hw hn)⟩,
      fun hb hk hf => run (doThrottleInterval_outside hb hk hf)⟩

end Sys2Proof.Machine

/-! PROOFS. A port's electrical idle, detect pulses, retries, lost lane clocks and partner's loops (03 R68, R72, R80; 05 R130 to R137, R145;
log entry 46). -/

namespace Sys2Proof.Machine

/-! ### Electrical idle (03 R72; 05 R136, R137) -/

/-- In P1 a port whose link is up enters electrical idle when it has nothing to send and no pass. -/
theorem doIdleEnter_idles {s : State} {n : Nat} (hi : idleState s = true) (hu : linkUp (portOf s n) = true)
    (hw : hasWork s (portOf s n) = false) (hn : (portOf s n).rx.nullReady = false) (hp : (portOf s n).cal.pass = none) :
    doIdleEnter n s = modPort n (idleEnter n) s := by
  simp [doIdleEnter, hi, hu, hw, hn, hp]

/-- Otherwise it stays as it is. -/
theorem doIdleEnter_stays {s : State} {n : Nat} (h : idleState s = false ∨ linkUp (portOf s n) = false ∨
    hasWork s (portOf s n) = true ∨ (portOf s n).rx.nullReady = true ∨ (portOf s n).cal.pass ≠ none) : doIdleEnter n s = s := by
  unfold doIdleEnter
  refine if_neg fun hc => ?_
  simp only [Bool.and_eq_true, Bool.not_eq_true', Option.isNone_iff_eq_none] at hc
  obtain ⟨⟨⟨⟨hi, hu⟩, hw⟩, hn⟩, hp⟩ := hc
  simp [hi, hu, hw, hn, hp] at h

/-- Within its interval an idle port leaves electrical idle for what it has to send. -/
theorem doIdleExit_wakes {s : State} {n : Nat} (hx : (portOf s n).txIdle = true) (hi : (portOf s n).inInterval = true)
    (h : hasWork s (portOf s n) = true ∨ (portOf s n).rx.nullReady = true ∨ (portOf s n).cal.pass ≠ none) :
    doIdleExit n s = modPort n (idleExit n) s := by
  have sends : (hasWork s (portOf s n) || (portOf s n).rx.nullReady || (portOf s n).cal.pass.isSome) = true := by
    simpa [or_assoc, Option.isSome_iff_ne_none] using h
  simp only [doIdleExit, hx, hi, sends, Bool.and_self, if_true]

/-- A port that does not idle, and one outside its interval, stay as they are. -/
theorem doIdleExit_stays {s : State} {n : Nat} (h : (portOf s n).txIdle = false ∨ (portOf s n).inInterval = false) :
    doIdleExit n s = s := by
  rcases h with h | h <;> simp [doIdleExit, h]

/-- On a port in service whose idle lanes have seen a BURST and not aligned, the failed exit is counted; the third retrains it. -/
theorem doIdleExitTimeout_of_failed {s : State} {n : Nat} (hs : inService (portOf s n) = true)
    (hl : allLanes.any (fun k => (laneOf (portOf s n) k).state == lsIdle) = true) (hb : (portOf s n).bursts ≠ 0) :
    doIdleExitTimeout n s =
      if 3 ≤ (portOf s n).exitFails + 1 then downAndRetrain n 0x05 true (modPort n (fun p => { p with exitFails := 0 }) s)
      else modPort n (fun p => askExit n { p with exitFails := p.exitFails + 1, bursts := 0 }) s := by
  unfold doIdleExitTimeout
  exact if_neg (by simp [hs, hl, hb])

/-! ### Detect pulses and retries (03 R80; 05 R130) -/

/-- A port in DETECT shows its pulse. -/
theorem doDetectPulse_shows {s : State} {n : PortNo} (h : (portOf s n).state = psDetect) :
    doDetectPulse n s = { s with out := { s.out with pulse := some (n, usedMask s n) } } := by
  have self : (⟨n.val % 12, Nat.mod_lt _ (by decide)⟩ : PortNo) = n := Fin.ext (Nat.mod_eq_of_lt n.isLt)
  simp only [doDetectPulse, h, if_true, self]

/-- A DOWN port that waits for its next attempt begins it when the retry interval has passed, or on a signal on two lanes. -/
theorem retry_of_armed {s : State} {n : Nat} (hd : (portOf s n).state = psDown) (ha : (portOf s n).retryArmed = true) (m : BitVec 9) :
    doTrainingRetry n s = beginAttempt n (!(portOf s n).nextFull) s ∧
    doPartnerSignal n m s = if 2 ≤ maskCount m then beginAttempt n (!(portOf s n).nextFull) s else s := by
  simp only [doTrainingRetry, doPartnerSignal, hd, ha, true_and, if_true, and_self]

/-- Another port begins no attempt. -/
theorem retry_of_not_armed {s : State} {n : Nat} (h : (portOf s n).state ≠ psDown ∨ (portOf s n).retryArmed = false) (m : BitVec 9) :
    doTrainingRetry n s = s ∧ doPartnerSignal n m s = s := by
  have waits : ¬ ((portOf s n).state = psDown ∧ (portOf s n).retryArmed = true) := by
    rintro ⟨hd, ha⟩
    simp [hd, ha] at h
  exact ⟨if_neg waits, if_neg fun e => waits ⟨e.1, e.2.1⟩⟩

/-! ### Lost lane clocks and loops (03 R68; 05 R145) -/

/-- A lost lane clock silences a FENCED port, leaves one DOWN or in TEST, and takes another down. -/
theorem doLanePllUnlock_eq (n : Nat) (s : State) : doLanePllUnlock n s =
    if (portOf s n).state = psFenced then modPort n fenceDark (modPort n (fun p => { p with pllLock := false }) s)
    else if (portOf s n).state = psDown ∨ (portOf s n).state = psTest then modPort n (fun p => { p with pllLock := false }) s
    else downAndRetrain n 0x07 false (modPort n (fun p => { p with pllLock := false }) s) := rfl

/-- Settles O18: each event by the port's state, and by what it has to send. -/
theorem idleAndDetectEventsOfAPort : Obligations.IdleAndDetectEventsOfAPort := by
  refine ⟨fun s n hl => ⟨?idles, ?busy, ?wakes, ?awake⟩, fun s => rfl, fun s n hl hs ha hb => ?timeout,
    fun s n hl => ⟨?pulse, ?noPulse⟩, fun s n m hl hd ha => ?retry, fun s n m hl h => ?noRetry,
    fun s u n hl hu => ?unlock, fun s n c m hl => ⟨?loops, ?noLoops⟩⟩
  case idles => exact fun hi hu hw hn hp => runs_of (exec_electricalIdleEntry n s) hl (doIdleEnter_idles hi hu hw hn hp)
  case busy => exact fun h => runs_of (exec_electricalIdleEntry n s) hl (doIdleEnter_stays h)
  case wakes => exact fun hx hi h => runs_of (exec_electricalIdleExit n s) hl (doIdleExit_wakes hx hi h)
  case awake => exact fun h => runs_of (exec_electricalIdleExit n s) hl (doIdleExit_stays h)
  case timeout =>
    have failed := doIdleExitTimeout_of_failed hs ha hb
    exact ⟨fun h => runs_of (exec_idleExitTimeout n s) hl (failed.trans (if_neg (by omega))),
      fun h => runs_of (exec_idleExitTimeout n s) hl (failed.trans (if_pos (by omega)))⟩
  case pulse => exact fun h => runs_of (exec_detectPulse n s) hl (doDetectPulse_shows h)
  case noPulse => exact fun h => runs_of (exec_detectPulse n s) hl (if_neg h)
  case retry =>
    obtain ⟨timer, signal⟩ := retry_of_armed hd ha m
    exact ⟨runs_of (exec_trainingRetryTimer n s) hl timer,
      fun h => runs_of (exec_partnerSignalDetect n m s) hl (signal.trans (if_pos h)),
      fun h => runs_of (exec_partnerSignalDetect n m s) hl (signal.trans (if_neg (Nat.not_le.mpr h)))⟩
  case noRetry =>
    obtain ⟨timer, signal⟩ := retry_of_not_armed h m
    exact ⟨runs_of (exec_trainingRetryTimer n s) hl timer, runs_of (exec_partnerSignalDetect n m s) hl signal⟩
  case unlock =>
    subst hu
    have run {v : State} : doLanePllUnlock n s = v → Runs (.lanePllUnlock n) s v := runs_of (exec_lanePllUnlock n s) hl
    refine ⟨fun hf => run ?_, fun h => run ?_, fun hf hd ht => run ?_⟩ <;> rw [doLanePllUnlock_eq]
    · rw [if_pos hf]
    · have hf : (portOf s n).state ≠ psFenced := by rcases h with h | h <;> simp [h, psFenced, psDown, psTest]
      rw [if_neg hf, if_pos h]
    · rw [if_neg hf, if_neg (not_or.mpr ⟨hd, ht⟩)]
  case loops => exact fun h => runs_of (exec_loopReq n c m s) hl (if_pos h)
  case noLoops => exact fun h => runs_of (exec_loopReq n c m s) hl (if_neg h)

end Sys2Proof.Machine

/-! PROOFS. Writes of PWR_STATE, PWR_CEIL_HOST, PORT_RETRAIN and PORT_LOOP_CTRL (03 R71, R82, R85; 05 R144, R145; 06 R469). -/

namespace Sys2Proof.Machine

/-! ### What each register's write does (03 R71, R85; 05 R144, R145; 06 R469) -/

/-- What a register refuses, it refuses from every requester. -/
theorem privOnly_none {f : RegFun} {par : Nat} {v : Word} {be : BitVec 8} {s : State} (h : f par v be s = none) :
    privOnly f par v be s = none := by
  simp only [privOnly, h, ite_self]

/-- A write of PWR_STATE with byte 0 enabled sets IDLE_DELAY and POLICY. -/
theorem wrPwrState_byte0 {be : BitVec 8} (hb : be.getLsbD 0 = true) (par : Nat) (v : Word) (s : State) : wrPwrState par v be s = some
    (setPolicyBit (bitOf (mergeBytes (rdPwrState s.power) v be).toNat 3)
      { s with power := { s.power with idleDelay := BitVec.ofNat 16 (fld (mergeBytes (rdPwrState s.power) v be) 16 16) } }) := by
  simp only [wrPwrState, hb, if_true]

/-- In P0 with no transition under way POLICY acts at once. -/
theorem setPolicyBit_of_p0 {s : State} (ht : s.power.transition = none) (hc : s.power.cur = 0) (p : Bool) : setPolicyBit p s =
    if p = true then { s with power := { s.power with policy := true, cur := 1 } }
    else { s with power := { s.power with policy := false } } := by
  cases p <;> simp [setPolicyBit, ht, hc]

/-- A write of PORT_RETRAIN with byte 0 enabled and PASS_NOW clear retrains where RETRAIN is set. -/
theorem wrRetrain_without_pass {be : BitVec 8} {v : Word} (hb : be.getLsbD 0 = true) (hp : bitOf v.toNat 2 = false) (n par : Nat) (s : State) :
    wrRetrain n par v be s = some (if bitOf v.toNat 0 = true then orderRetrain n (bitOf v.toNat 1) s else s) := by
  simp only [wrRetrain, hb, hp]
  rfl

/-- With PASS_NOW set and RETRAIN clear only the pass begins, where one may. -/
theorem wrRetrain_pass_alone {be : BitVec 8} {v : Word} (hb : be.getLsbD 0 = true) (hp : bitOf v.toNat 2 = true) (hr : bitOf v.toNat 0 = false)
    (n par : Nat) (s : State) : wrRetrain n par v be s = passNow n s := by
  simp only [wrRetrain, hb, hp, hr]
  exact Option.map_id' ..

/-- PASS_NOW begins a pass outside the conditions of R144. -/
theorem passNow_begins {s : State} {n : Nat} (hm : mayPass s n = true) (hk : passSkipped (portOf s n) = false) (hl : s.power.level = 0)
    (ht : (portOf s (twinOf n)).cal.pass = none) (hp : passPaused s n = false) : passNow n s = some (beginPass n 0 false s) := by
  simp [passNow, hm, hk, hl, ht, hp]

/-- The write of PORT_LOOP_CTRL merges into what the register reads, and is taken in TEST only. -/
theorem wrLoopCtrl_eq (n par : Nat) (v : Word) (be : BitVec 8) (s : State) : wrLoopCtrl n par v be s =
    if (portOf s n).state = psTest then some (modPort n (chooseLoops
      (BitVec.ofNat 2 (fld (mergeBytes (rdLoopCtrl (portOf s n)) v be) 0 2))
      (bitOf (mergeBytes (rdLoopCtrl (portOf s n)) v be).toNat 2)
      (BitVec.ofNat 9 (fld (mergeBytes (rdLoopCtrl (portOf s n)) v be) 3 9))) s)
    else none := rfl

/-- Settles O25: each command is the write of its register. -/
theorem powerAndPortRegisters : Obligations.PowerAndPortRegisters := by
  refine ⟨fun s a h hb => ?policy, fun s ht hc => ⟨setPolicyBit_of_p0 ht hc true, setPolicyBit_of_p0 ht hc false⟩, fun s a h => ?ceil,
    fun s n a h hb hp => ?retrain, fun s n a h hb hp hr hm hk hv ht hq => ?pass, fun s n a h ht => ?loops, fun s n a h ht => ?noLoops⟩
  case policy =>
    exact runs_hostWrite (exec_policy a s) h (readReg_pwrState s) (by decide) wrAt_pwrState (wrPwrState_byte0 hb _ _ s)
  case ceil => exact runs_hostWrite (exec_hostCeil a s) h (readReg_ceilHost s) (by decide) wrAt_ceilHost rfl
  case retrain =>
    have run {t : State} (ht : wrRetrain n a.par.toNat a.value a.be s = some t) : Runs (.portRetrain n a) s (answered 0 t) :=
      runs_hostWrite (exec_portRetrain n a s) h (readReg_retrain n s) (by simp [offWinData]; omega) (wrAt_retrain n) ht
    have written := wrRetrain_without_pass hb hp n a.par.toNat s
    exact ⟨fun hr => run (written.trans (by rw [if_pos hr])), fun hr => run (written.trans (by simp [hr]))⟩
  case pass =>
    exact runs_hostWrite (exec_passNow n a s) h (readReg_retrain n s) (by simp [offWinData]; omega) (wrAt_retrain n)
      ((wrRetrain_pass_alone hb hp hr n _ s).trans (passNow_begins hm hk hv ht hq))
  case loops =>
    exact runs_hostWrite (exec_portLoopCtrl n a s) h (readReg_loopCtrl n s) (by simp [offWinData]; omega) (wrAt_loopCtrl n)
      ((wrLoopCtrl_eq ..).trans (if_pos ht))
  case noLoops =>
    have no : wrAt (0x100270 + 0x10000 * n) a.par.toNat a.value a.be s = none := by
      rw [wrAt_loopCtrl]
      exact privOnly_none ((wrLoopCtrl_eq ..).trans (if_neg ht))
    exact runs_of (exec_portLoopCtrl n a s) h.ready.1
      (cmdWrite_refused (hostWrite_mayWrite h) (readReg_loopCtrl n s) (by simp [offWinData]; omega) no)

end Sys2Proof.Machine

/-! PROOFS. What each sideband command answers and does (04 R105, R106, R113; 16 R449, R450, R453; log entries 61, 63, 65). -/

namespace Sys2Proof.Machine

/-! ### Reading and writing (16 R449, R450) -/

/-- PORT_STATUS gives four registers of a port. -/
theorem mgPortStatus_of_lt {n : Nat} (h : n < 12) (s : State) : mgPortStatus n s =
    (stOk, leBytes 8 (rdPortState (portOf s n)).toNat ++ leBytes 8 (rdDeckle (portOf s n)).toNat ++
      leBytes 8 (rdLaneState (portOf s n)).toNat ++ leBytes 8 (rdPortLink (portOf s n)).toNat, s) := by
  simp only [mgPortStatus, if_neg (Nat.not_le.mpr h), List.flatMap_cons, List.flatMap_nil, List.append_nil, List.append_assoc]

/-- Past the boot stage READ_REG gives the registers, or refuses them together and leaves the window address. -/
theorem mgReadReg_of_ran {n o : Nat} {s t : State} {ok : Bool} {bs : List Byte} (h1 : 1 ≤ n) (h30 : n ≤ 30) (hb : bootStage s = false)
    (hr : readRegs n o s = (ok, bs, t)) : mgReadReg o n s =
      if ok = true then (stOk, bs, t) else (stRights, [], { t with vat := { t.vat with winAddr := s.vat.winAddr } }) := by
  have inRange : ¬ (n = 0 ∨ 30 < n) := by omega
  simp only [mgReadReg, if_neg inRange, hb, hr, Bool.false_and, Bool.false_eq_true, if_false]

/-- In directed mode WRITE_REG writes any register. -/
theorem mgWriteReg_directed {s t : State} {o : Nat} {v : Word} {be : BitVec 8} {e : BitVec 2} (hd : s.fur.directed = true)
    (hw : writeReg true o parPriv v be s = (e, t)) : mgWriteReg o v be s = (if e = rspDone then stOk else stRights, [], t) := by
  simp [mgWriteReg, hd, hw]

/-- Outside it, and before ready, WRITE_REG is refused a field other than RW. -/
theorem mgWriteReg_other {s : State} {o : Nat} {v : Word} {be : BitVec 8} (hy : s.pins.ready = false) (hd : s.fur.directed = false)
    (hw : writesOther o v be s = true) : mgWriteReg o v be s = (stStateRefused, [], s) := by
  simp [mgWriteReg, hy, hd, hw]

/-- NVM_READ gives bytes of the device. -/
theorem mgNvmRead_of_within {n o : Nat} (h1 : 1 ≤ n) (h240 : n ≤ 240) (he : o + n ≤ nvmEnd) (s : State) :
    mgNvmRead o n s = (stOk, nvmBytes s o n, s) := if_neg (by omega)

/-! ### Orders (03 R71, R83; 06 R469; 07 R191; 14 R398) -/

/-- A good SET_POWER is the power order as a long command. -/
theorem sbPower_of_state {x : Byte} (h1 : 1 ≤ x.toNat) (h3 : x.toNat ≤ 3) (s : State) :
    sbPower x s = startLong false 0x06 (x.setWidth 16) (orderPower x.toNat) s := by
  refine if_neg ?_
  rintro (rfl | h)
  · simp at h1
  · omega

/-- A good RETRAIN is the order of a retrain as a long command. -/
theorem sbRetrain_of_port {n f : Byte} (hn : n.toNat < 12) (hf : f.toNat < 2) (s : State) : sbRetrain n f s =
    startLong false 0x09 (n.setWidth 16) (fun s => (stOk, orderRetrain n.toNat (f == 1) s)) s := if_neg (by omega)

/-- RESET of a partition is a long command. -/
theorem sbReset_of_part {p : Byte} (h : p.toNat < 16) (u : Nat) (f : State → Byte × State) (s : State) :
    sbReset u p f s = startLong false 0x0A (BitVec.ofNat 16 (u + 256 * p.toNat)) f s := if_neg (by omega)

/-- RANK_COMMIT starts the digest. -/
theorem sbRankCommit_of_free {s : State} (hs : s.sec.longFrom = none) (hd : s.route.digestBusy = false) :
    sbRankCommit s = (stOk, [], beginOp false 0x0D 0 (commitRanks s)) := startLong_ok hs (by simp [hd])

/-- It is refused while a digest is computed. -/
theorem sbRankCommit_of_busy {s : State} (hs : s.sec.longFrom = none) (hd : s.route.digestBusy = true) :
    sbRankCommit s = (stStateRefused, [], s) := startLong_no hs (by simp [hd]) (by decide)

/-- RANK_WRITE without entries, with too many, or past the table is malformed. -/
theorem sbRankWrite_malformed {r : Nat} {es : List (BitVec 32)} (h : es = [] ∨ 60 < es.length ∨ 131072 < r + es.length) (s : State) :
    sbRankWrite r es s = (stMalformed, [], s) := if_pos (h.imp_left List.length_eq_zero_iff.mpr)

/-- RANK_WRITE writes its entries when no digest is computed and none is refused. -/
theorem sbRankWrite_of_taken {r : Nat} {es : List (BitVec 32)} {s : State} (hne : es ≠ []) (h60 : es.length ≤ 60)
    (hend : r + es.length ≤ 131072) (hd : s.route.digestBusy = false)
    (ht : (es.zipIdx r).any (fun x => rankRefused (writeRanks r es s) x.2 x.1) = false) :
    sbRankWrite r es s = (stOk, [], writeRanks r es s) := by
  have form : ¬ (es.length = 0 ∨ 60 < es.length ∨ 131072 < r + es.length) := by
    have := List.length_pos_iff.mpr hne
    omega
  simp only [sbRankWrite, if_neg form, hd, ht, Bool.false_eq_true, if_false]

/-! ### Tests (16 R449, R450) -/

/-- Outside directed mode every test is refused. -/
theorem sbTest_undirected {s : State} (h : s.fur.directed = false) (k : Nat) (f : State → Byte × State) :
    sbTest k f s = (stStateRefused, [], s) := by
  simp only [sbTest, h]
  rfl

/-- In directed mode a test is a long command. -/
theorem sbTest_directed {s : State} (h : s.fur.directed = true) (k : Nat) (f : State → Byte × State) :
    sbTest k f s = startLong false 0x11 (BitVec.ofNat 16 k) f s := if_pos h

/-- A test of a port that there is. -/
theorem sbPortTest_of_lt {n : Byte} (h : n.toNat < 12) (k : Nat) (f : Nat → State → Byte × State) (s : State) :
    sbPortTest k n f s = sbTest k (f n.toNat) s := if_neg (Nat.not_le.mpr h)

/-- A test of a port in directed mode that its rules let run. -/
theorem sbPortTest_ok {s t : State} {n : Byte} {k : Nat} {f : Nat → State → Byte × State} (hd : s.fur.directed = true)
    (hs : s.sec.longFrom = none) (hn : n.toNat < 12) (hf : f n.toNat s = (stOk, t)) :
    sbPortTest k n f s = (stOk, [], beginOp false 0x11 (BitVec.ofNat 16 k) t) := by
  rw [sbPortTest_of_lt hn, sbTest_directed hd]
  exact startLong_ok hs hf

/-- A test of a port in directed mode that its rules refuse. -/
theorem sbPortTest_no {s : State} {n : Byte} {k : Nat} {f : Nat → State → Byte × State} (hd : s.fur.directed = true)
    (hs : s.sec.longFrom = none) (hn : n.toNat < 12) (hf : f n.toNat s = (stStateRefused, s)) :
    sbPortTest k n f s = (stStateRefused, [], s) := by
  rw [sbPortTest_of_lt hn, sbTest_directed hd]
  exact startLong_no hs hf (by decide)

/-- TEST LOOP on a port in TEST chooses its loops. -/
theorem testLoops_of_test {s : State} {n : Nat} (h : (portOf s n).state = psTest) (b : BitVec 16) : testLoops n b s =
    (stOk, modPort n (chooseLoops (b.extractLsb' 0 2) (b.getLsbD 2) (b.extractLsb' 3 9)) s) := by
  simp only [testLoops, setLoopCtrl, h, if_true]

/-- TEST LOOP on another port chooses a loop of its spare lane. -/
theorem testLoops_of_spare {s t : State} {n : Nat} {b : BitVec 16} (h : (portOf s n).state ≠ psTest)
    (ht : setSpareLoop n (b.extractLsb' 0 2) (b.getLsbD 2) (b.extractLsb' 3 9) s = some t) : testLoops n b s = (stOk, t) := by
  simp only [testLoops, if_neg h, ht]

/-- It is refused where the spare lane may not. -/
theorem testLoops_of_no_spare {s : State} {n : Nat} {b : BitVec 16} (h : (portOf s n).state ≠ psTest)
    (ht : setSpareLoop n (b.extractLsb' 0 2) (b.getLsbD 2) (b.extractLsb' 3 9) s = none) :
    testLoops n b s = (stStateRefused, s) := by
  simp only [testLoops, if_neg h, ht]

/-- The spare lane of a port that is UP enters or leaves the near-end serial loop between passes. -/
theorem setSpareLoop_of_up {s : State} {n : Nat} {m : BitVec 2} {l : BitVec 9} (p : Bool) (hu : (portOf s n).state = psUp)
    (hp : (portOf s n).cal.pass = none)
    (hm : m = 0 ∨ (m = 1 ∧ l ≠ 0 ∧ l = lanesWhere (fun k => decide ((portOf s n).deckle.spare.toNat = k)))) :
    setSpareLoop n m p l s = some (modPort n (chooseLoops m p l) s) := by
  refine if_pos ⟨hu, by rw [hp]; rfl, hm.imp_right ?_⟩
  rintro ⟨h1, hne, rfl⟩
  exact ⟨h1, rfl, hne⟩

/-- A port that is not UP has no loop on its spare lane. -/
theorem setSpareLoop_of_not_up {s : State} {n : Nat} (h : (portOf s n).state ≠ psUp) (m : BitVec 2) (p : Bool) (l : BitVec 9) :
    setSpareLoop n m p l s = none := if_neg fun e => h e.1

/-! ### Staging (04 R105, R106) -/

/-- A well-formed NVM_ERASE is the erase as a long command, refused in a slot in use. -/
theorem mgNvmErase_eq {o n : Nat} {x : Byte} (hx : (x = 0 ∧ n = 0x1000) ∨ (x = 1 ∧ n = 0x10000)) (ho : o % n = 0)
    (he : o + n ≤ nvmEnd) (s : State) : mgNvmErase false o x s =
      startLong false 0x21 0 (fun s => if stagingRefused s o then (stStateRefused, s) else (stOk, eraseNvm o n s)) s := by
  have size : (if x = 0 then 0x1000 else 0x10000) = n := by rcases hx with ⟨rfl, rfl⟩ | ⟨rfl, rfl⟩ <;> rfl
  have known : x.toNat < 2 := by rcases hx with ⟨rfl, -⟩ | ⟨rfl, -⟩ <;> decide
  simp only [mgNvmErase, size]
  exact if_neg (by omega)

/-- A well-formed NVM_WRITE is the programming as a long command, refused in a slot in use. -/
theorem mgNvmWrite_eq {o : Nat} {d : List Byte} (hne : d ≠ []) (h240 : d.length ≤ 240) (hp : o / 256 = (o + d.length - 1) / 256)
    (he : o + d.length ≤ nvmEnd) (s : State) : mgNvmWrite false o d s =
      startLong false 0x22 0 (fun s => if stagingRefused s o then (stStateRefused, s) else (stOk, programNvm o d s)) s := by
  have := List.length_pos_iff.mpr hne
  exact if_neg (by omega)

/-- A long command of staging runs outside the slots in use. -/
theorem startLong_staging_ok {s : State} {code : Byte} {o : Nat} {f : State → State} (hs : s.sec.longFrom = none)
    (hr : stagingRefused s o = false) :
    startLong false code 0 (fun s => if stagingRefused s o then (stStateRefused, s) else (stOk, f s)) s =
      (stOk, [], beginOp false code 0 (f s)) := startLong_ok hs (by simp [hr])

/-- It is refused in a slot in use. -/
theorem startLong_staging_no {s : State} {code : Byte} {o : Nat} {f : State → State} (hs : s.sec.longFrom = none)
    (hr : stagingRefused s o = true) :
    startLong false code 0 (fun s => if stagingRefused s o then (stStateRefused, s) else (stOk, f s)) s =
      (stStateRefused, [], s) := startLong_no hs (by simp [hr]) (by decide)

/-- NVM_CHECK starts the checks of a staged slot. -/
theorem mgNvmCheck_of_slot {s : State} {b : Byte} (hs : s.sec.longFrom = none) (h : b.toNat < 2) :
    mgNvmCheck false b s = (stOk, [], checkStaged (b == 1) (beginOp false 0x23 (b.setWidth 16) s)) := by
  have started : startLong false 0x23 (b.setWidth 16) (fun s => (stOk, s)) s = (stOk, [], beginOp false 0x23 (b.setWidth 16) s) :=
    startLong_ok hs rfl
  simp only [mgNvmCheck, if_neg (Nat.not_le.mpr h), started, if_true]

/-- Settles O58: each command is answered by its operation, whose outcome in the case at hand is the lemma named. -/
theorem sidebandCommandsTakeEffect : Obligations.SidebandCommandsTakeEffect := by
  refine ⟨fun s => ?reads, fun s n p hp => ?portStatus, fun s t o n bs => ?readReg, fun s t o v be e => ?writeReg,
    fun s v h => ?ceiling, fun s t x st hs => ?power, fun s c hs hc => ?busy, fun s n f hs hn hf => ?retrain,
    fun s t p st hs => ?resets, fun s r es => ?rankWrite, fun s k l hk => ?reports, fun s => ?directed,
    fun s n b hd hn => ?noTests, fun s t n b hd hs => ?tests, fun s n m p l => ?spare, fun s o n h1 h240 he => ?nvmRead,
    fun s o d hs hr => ?stages, fun s o d hs hr => ?noStaging, fun s b hs => ?check⟩
  case reads =>
    exact ⟨sbAnswers_of rfl (exec_identify ..) rfl, sbAnswers_of rfl (exec_getEpoch ..) rfl,
      sbAnswers_of rfl (exec_telemetry ..) rfl, sbAnswers_of rfl (exec_opState ..) rfl⟩
  case portStatus =>
    subst hp
    exact ⟨fun h => sbAnswers_of rfl (exec_portStatus ..) (mgPortStatus_of_lt h s),
      fun h => sbAnswers_of rfl (exec_portStatus ..) (if_pos h)⟩
  case readReg =>
    refine ⟨fun h => sbAnswers_of rfl (exec_readReg ..) (if_pos (h.imp_left fun e => by rw [e]; rfl)), fun h1 h30 hb hr => ?_,
      fun h1 h30 hb hr => ?_⟩ <;>
    exact sbAnswers_of rfl (exec_readReg ..) (mgReadReg_of_ran h1 h30 hb hr)
  case writeReg =>
    exact ⟨fun hd hw => sbAnswers_of rfl (exec_writeReg ..) (mgWriteReg_directed hd hw),
      fun hy hd hw => sbAnswers_of rfl (exec_writeReg ..) (mgWriteReg_other hy hd hw)⟩
  case ceiling =>
    exact ⟨fun h => sbAnswers_of rfl (exec_setCeiling ..) (if_neg (Nat.not_le.mpr h)),
      fun h => sbAnswers_of rfl (exec_setCeiling ..) (if_pos h)⟩
  case power =>
    exact ⟨fun h => sbAnswers_of rfl (exec_setPower ..) (if_pos h),
      fun h1 h3 ho => sbAnswers_of rfl (exec_setPower ..) ((sbPower_of_state h1 h3 s).trans (startLong_ok hs ho)),
      fun h1 h3 ho hn => sbAnswers_of rfl (exec_setPower ..) ((sbPower_of_state h1 h3 s).trans (startLong_no hs ho hn))⟩
  case busy =>
    simp only [List.mem_cons, List.not_mem_nil, or_false] at hc
    obtain rfl | rfl | rfl | rfl | rfl := hc
    · exact sbAnswers_of rfl (exec_resetEngineDomain ..) ((sbReset_eq ..).trans (startLong_busy hs))
    · exact sbAnswers_of rfl (exec_resetSteward ..) ((sbReset_eq ..).trans (startLong_busy hs))
    · exact sbAnswers_of rfl (exec_resetCapture ..) ((sbReset_eq ..).trans (startLong_busy hs))
    · exact sbAnswers_of rfl (exec_drain ..) (startLong_busy hs)
    · exact sbAnswers_of rfl (exec_rankCommit ..) (startLong_busy hs)
  case retrain => exact sbAnswers_of rfl (exec_retrain ..) ((sbRetrain_of_port hn hf s).trans (startLong_ok hs rfl))
  case resets =>
    refine ⟨fun hp ho => ?_, fun hp ho hn => ?_, fun ho => ?_, fun ho hn => ?_, ?_, ?_, ?_, fun hd => ?_, fun hd => ?_⟩
    · exact sbAnswers_of rfl (exec_resetPartition ..) ((sbReset_of_part hp ..).trans (startLong_ok hs ho))
    · exact sbAnswers_of rfl (exec_resetPartition ..) ((sbReset_of_part hp ..).trans (startLong_no hs ho hn))
    · exact sbAnswers_of rfl (exec_resetEngineDomain ..) ((sbReset_eq ..).trans (startLong_ok hs ho))
    · exact sbAnswers_of rfl (exec_resetEngineDomain ..) ((sbReset_eq ..).trans (startLong_no hs ho hn))
    · exact sbAnswers_of rfl (exec_resetSteward ..) ((sbReset_eq ..).trans (startLong_ok hs rfl))
    · exact sbAnswers_of rfl (exec_resetCapture ..) ((sbReset_eq ..).trans (startLong_ok hs rfl))
    · exact sbAnswers_of rfl (exec_drain ..) (startLong_ok hs rfl)
    · exact sbAnswers_of rfl (exec_rankCommit ..) (sbRankCommit_of_free hs hd)
    · exact sbAnswers_of rfl (exec_rankCommit ..) (sbRankCommit_of_busy hs hd)
  case rankWrite =>
    exact ⟨fun h => sbAnswers_of rfl (exec_rankWrite ..) (sbRankWrite_malformed h s),
      fun hne h60 hend hd ht => sbAnswers_of rfl (exec_rankWrite ..) (sbRankWrite_of_taken hne h60 hend hd ht)⟩
  case reports =>
    subst hk
    exact sbAnswers_of rfl (exec_reports ..) rfl
  case directed =>
    refine ⟨fun hr => ?_, fun hr => ?_, fun h => ⟨?_, ?_⟩, fun h => ⟨?_, ?_⟩, fun hr hd => ?_, fun h => ?_⟩
    · exact sbAnswers_of rfl (exec_directedHold ..) (if_pos hr)
    · exact sbAnswers_of rfl (exec_directedHold ..) (if_neg (by simp [hr]))
    · exact sbAnswers_of rfl (exec_directedStep ..) (if_pos h)
    · exact sbAnswers_of rfl (exec_directedResume ..) (if_pos h)
    · exact sbAnswers_of rfl (exec_directedStep ..) (if_neg (by simp [h]))
    · exact sbAnswers_of rfl (exec_directedResume ..) (if_neg (by simp [h]))
    · exact sbAnswers_of rfl (exec_directedLeave ..) (if_pos (by simp [hr, hd]))
    · exact sbAnswers_of rfl (exec_directedLeave ..) (if_neg (by rcases h with h | h <;> simp [h]))
  case noTests =>
    have noPortTest (k : Nat) (f : Nat → State → Byte × State) : sbPortTest k n f s = (stStateRefused, [], s) :=
      (sbPortTest_of_lt hn k f s).trans (sbTest_undirected hd ..)
    exact ⟨sbAnswers_of rfl (exec_testDestructiveMarch ..) (sbTest_undirected hd ..),
      sbAnswers_of rfl (exec_testPreservingMarch ..) (sbTest_undirected hd ..),
      sbAnswers_of rfl (exec_testBeaterSelfTest ..) (sbTest_undirected hd ..),
      sbAnswers_of rfl (exec_testPortEnter ..) (noPortTest ..), sbAnswers_of rfl (exec_testPortExit ..) (noPortTest ..),
      sbAnswers_of rfl (exec_testLoop ..) (noPortTest ..)⟩
  case tests =>
    refine ⟨fun hm => ?_, fun hm => ?_, fun hm => ?_, fun hn hb => ?_, fun hn hb => ?_, fun hn ht => ?_, fun hn ht => ?_,
      fun hn ht hl => ?_, fun hn ht hl => ?_⟩
    · exact sbAnswers_of rfl (exec_testDestructiveMarch ..) ((sbTest_directed hd ..).trans (startLong_ok hs (if_pos hm)))
    · exact sbAnswers_of rfl (exec_testPreservingMarch ..) ((sbTest_directed hd ..).trans (startLong_ok hs (if_pos hm)))
    · exact sbAnswers_of rfl (exec_testBeaterSelfTest ..) ((sbTest_directed hd ..).trans (startLong_ok hs (if_pos hm)))
    · exact sbAnswers_of rfl (exec_testPortEnter ..) (sbPortTest_ok hd hs hn (if_neg (by simp [hb])))
    · exact sbAnswers_of rfl (exec_testPortEnter ..) (sbPortTest_no hd hs hn (if_pos hb))
    · exact sbAnswers_of rfl (exec_testPortExit ..) (sbPortTest_ok hd hs hn (if_pos ht))
    · exact sbAnswers_of rfl (exec_testLoop ..) (sbPortTest_ok hd hs hn (testLoops_of_test ht b))
    · exact sbAnswers_of rfl (exec_testLoop ..) (sbPortTest_ok hd hs hn (testLoops_of_spare ht hl))
    · exact sbAnswers_of rfl (exec_testLoop ..) (sbPortTest_no hd hs hn (testLoops_of_no_spare ht hl))
  case spare => exact ⟨setSpareLoop_of_up p, fun h => setSpareLoop_of_not_up h m p l⟩
  case nvmRead => exact sbAnswers_of rfl (exec_nvmRead ..) (mgNvmRead_of_within h1 h240 he s)
  case stages =>
    exact ⟨fun ho he => sbAnswers_of rfl (exec_nvmErase ..)
        ((mgNvmErase_eq (.inl ⟨rfl, rfl⟩) ho he s).trans (startLong_staging_ok hs hr)),
      fun ho he => sbAnswers_of rfl (exec_nvmErase ..)
        ((mgNvmErase_eq (.inr ⟨rfl, rfl⟩) ho he s).trans (startLong_staging_ok hs hr)),
      fun hne h240 hp he => sbAnswers_of rfl (exec_nvmWrite ..)
        ((mgNvmWrite_eq hne h240 hp he s).trans (startLong_staging_ok hs hr))⟩
  case noStaging =>
    exact ⟨fun ho he => sbAnswers_of rfl (exec_nvmErase ..)
        ((mgNvmErase_eq (.inl ⟨rfl, rfl⟩) ho he s).trans (startLong_staging_no hs hr)),
      fun hne h240 hp he => sbAnswers_of rfl (exec_nvmWrite ..)
        ((mgNvmWrite_eq hne h240 hp he s).trans (startLong_staging_no hs hr))⟩
  case check =>
    exact ⟨fun h => sbAnswers_of rfl (exec_nvmCheck ..) (mgNvmCheck_of_slot hs h),
      fun h => sbAnswers_of rfl (exec_nvmCheck ..) (if_pos h)⟩

end Sys2Proof.Machine

end

section

/- As above, one proof after another: proofs that wait for the kernel together pass the memory that the check allows. -/
set_option Elab.async false

/-! PROOFS. Start-up: what each phase finds at its end, and whether start-up then stops, holds or goes on (04 R95, R97, R102, R107,
R112, R113, R115; 12 R356; 13 R373; log entry 57). -/

namespace Sys2Proof.Machine

/-! ### What a phase finds at its end (04 R95, R97, R107, R115; 12 R356; 13 R373) -/

/-- Without started firmware phase 1 fails, by whether there was an image at all. -/
theorem endImage_of_not_started {s : State} (h : s.fur.fwStarted = false) :
    (endImage s).2 = some (if s.fur.verdict0 = vdEmpty ∧ s.fur.verdict1 = vdEmpty then 0x02 else 0x03) := by
  have unstarted : (!s.fur.fwStarted) = true := by simp [h]
  exact congrArg Prod.snd (if_pos unstarted)

/-- The state with the results of the march and of the Beaters' self-test in it, which phase 2 judges. -/
def afterSelfTests (o : PhaseObs) (s : State) : State :=
  let m := destructiveResult o.banksFailed s
  startBeaters o.beatersPassed o.selfTestUs { m with vat := { m.vat with passed := o.banksFailed == 0, lastUs := o.marchUs } }

/-- Phase 2 judges the banks first, then the Beaters. -/
theorem endVatTest_eq (o : PhaseObs) (s : State) : endVatTest o s =
    if 3 ≤ (banksIn o.banksFailed).length then (afterSelfTests o s, some 0x10)
    else if beatersServing (afterSelfTests o s) = 0 then (afterSelfTests o s, some 0x11)
    else (releaseHeld { afterSelfTests o s with vat := { (afterSelfTests o s).vat with state := vatActive } }, none) := rfl

/-- Three failing banks fail phase 2, whatever the Beaters. -/
theorem endVatTest_of_banks {o : PhaseObs} (h : 3 ≤ (banksIn o.banksFailed).length) (s : State) :
    endVatTest o s = (afterSelfTests o s, some 0x10) := if_pos h

/-- A phase 2 that fails has three failing banks, or leaves no Beater in service. -/
theorem endVatTest_fails {o : PhaseObs} {s u : State} {c : Byte} (h : endVatTest o s = (u, some c)) :
    c = 0x10 ∧ 3 ≤ (banksIn o.banksFailed).length ∨ c = 0x11 ∧ beatersServing u = 0 := by
  rw [endVatTest_eq] at h
  split at h
  case isTrue banks =>
    cases h
    exact .inl ⟨rfl, banks⟩
  case isFalse =>
    split at h
    case isTrue noBeater =>
      cases h
      exact .inr ⟨rfl, noBeater⟩
    case isFalse => cases h

/-- The end of phase 1 judges the slots. -/
theorem endPhase_image {s : State} (h : s.fur.phase = 1) (o : PhaseObs) : endPhase o s = endImage s := by
  simp [endPhase, h]

/-- The end of phase 2 judges the self-tests. -/
theorem endPhase_vatTest {s : State} (h : s.fur.phase = 2) (o : PhaseObs) : endPhase o s = endVatTest o s := by
  simp [endPhase, h]

/-- Only phases 1 and 2 can fail. -/
theorem endPhase_passes {s : State} (h1 : s.fur.phase ≠ 1) (h2 : s.fur.phase ≠ 2) (o : PhaseObs) : (endPhase o s).2 = none := by
  unfold endPhase
  split
  case h_1 e => exact absurd (BitVec.eq_of_toNat_eq e) h1
  case h_2 e => exact absurd (BitVec.eq_of_toNat_eq e) h2
  all_goals rfl

/-! ### Start-up stops, holds or goes on (04 R107, R112, R113) -/

/-- After start-up, and while it is stopped or held, there is no phase to end. -/
theorem doPhaseEnd_over {s : State} (h : 6 ≤ s.fur.phase.toNat ∨ s.fur.outcome ≠ 0) (o : PhaseObs) : doPhaseEnd o s = s := if_pos h

section Running

variable {s u : State} {o : PhaseObs} (hp : s.fur.phase.toNat < 6) (ho : s.fur.outcome = 0)
include hp ho

/-- A phase that fails stops start-up. -/
theorem doPhaseEnd_stops {c : Byte} (h : endPhase o (addRun o.runUs s) = (u, some c)) : doPhaseEnd o s = stopStart c u := by
  have runs : ¬ (6 ≤ s.fur.phase.toNat ∨ s.fur.outcome ≠ 0) := by simp [ho, hp]
  simp only [doPhaseEnd, if_neg runs, h]

/-- A phase that passes lets start-up hold or go on. -/
theorem doPhaseEnd_passes (h : endPhase o (addRun o.runUs s) = (u, none)) : doPhaseEnd o s =
    if u.fur.holdOrder = true ∨ (s.fur.phase = 2 ∧ u.fur.image.startHold = true) then holdStart u
    else startPhase (s.fur.phase.toNat + 1) o.nvmUsable u := by
  have runs : ¬ (6 ≤ s.fur.phase.toNat ∨ s.fur.outcome ≠ 0) := by simp [ho, hp]
  have two : s.fur.phase.toNat = 2 ↔ s.fur.phase = 2 := BitVec.toNat_inj (y := 2#4)
  simp only [doPhaseEnd, if_neg runs, h, Bool.or_eq_true, Bool.and_eq_true, decide_eq_true_eq, two]

end Running

/-- Settles O11: the phase's checks decide between a stop and the other two, and the orders to hold between these.  The severity
and the unit kind of the START record are the model's choice (log entry 57). -/
theorem phasesStopHoldOrGoOn : Obligations.PhasesStopHoldOrGoOn := by
  intro s u o hl hp ho
  have run {v : State} : doPhaseEnd o s = v → Runs (.phaseEnd o) s v := runs_of (exec_phaseEnd o s) hl
  refine ⟨fun c fails => run (doPhaseEnd_stops hp ho fails), fun passes => ⟨fun holds => ?held, fun order image => ?goesOn⟩⟩
  case held => exact run ((doPhaseEnd_passes hp ho passes).trans (if_pos holds))
  case goesOn =>
    have free : ¬ (u.fur.holdOrder = true ∨ (s.fur.phase = 2 ∧ u.fur.image.startHold = true)) := by
      rintro (h | ⟨h2, hi⟩)
      · simp [order] at h
      · simp [h2, hi] at image
    exact run ((doPhaseEnd_passes hp ho passes).trans (if_neg free))

/-! ### A phase starts (04 R107) -/

/-- The state in which phase n begins, before what it does at once. -/
def enterPhase (n : Nat) (s : State) : State :=
  { s with fur := { s.fur with phase := BitVec.ofNat 4 n, outcome := 0, phaseAt := s.nowUs } }

/-- Phase 2 starts the Beaters' self-test. -/
theorem startPhase_two (nvm : Bool) (s : State) : startPhase 2 nvm s = startSelfTest (enterPhase 2 s) := rfl

/-- A phase other than 1, 2, 3, 5 and 6 does nothing at once. -/
theorem startPhase_waits {n : Nat} (h1 : n ≠ 1) (h2 : n ≠ 2) (h3 : n ≠ 3) (h5 : n ≠ 5) (h6 : n ≠ 6) (nvm : Bool) (s : State) :
    startPhase n nvm s = enterPhase n s := by
  unfold startPhase
  split
  case h_6 => rfl
  all_goals contradiction

/-- Settles O12: a phase's end by its number, and the start of those that do nothing at once. -/
theorem phaseEndsFollowTheRules : Obligations.PhaseEndsFollowTheRules := by
  refine ⟨fun s o hl h => ?past, fun s o h1 hf => ?image, fun s o h2 => ⟨fun banks => ?banks, fun u c fails => ?vatTest⟩,
    fun s o h1 h2 => endPhase_passes h1 h2 o, fun n nvm s u hn _ hu => ⟨fun h2 => ?two, fun h2 h3 h5 h6 => ?others⟩⟩
  case past => exact runs_of (exec_phaseEnd o s) hl (doPhaseEnd_over h o)
  case image => rw [endPhase_image h1, endImage_of_not_started hf]
  case banks => rw [endPhase_vatTest h2, endVatTest_of_banks banks]
  case vatTest =>
    rw [endPhase_vatTest h2] at fails
    exact (endVatTest_fails fails).imp_left And.left
  case two =>
    subst h2 hu
    exact startPhase_two nvm s
  case others =>
    subst hu
    exact startPhase_waits (Nat.ne_of_gt hn) h2 h3 h5 h6 nvm s

end Sys2Proof.Machine

end

section

/- As above, one proof after another: proofs that wait for the kernel together pass the memory that the check allows. -/
set_option Elab.async false

/-! PROOFS. The Deckle: the width, the logical lanes and the spare that the good lanes give (05 R126, R129). -/

namespace Sys2Proof.Machine

/-- No width takes more lanes than are good. -/
theorem widthLanes_widthFor_le (g : Nat) : widthLanes (widthFor g) ≤ g := by
  unfold widthFor
  split
  case isTrue x8 => exact x8
  case isFalse =>
    split
    case isTrue x4 => exact x4
    case isFalse =>
      split
      case isTrue x2 => exact x2
      case isFalse => exact Nat.zero_le g

/-- The number of a physical lane fits its four bits. -/
theorem toNat_ofNat_lane {k : Nat} (h : k < 9) : (BitVec.ofNat 4 k).toNat = k :=
  (BitVec.toNat_ofNat k 4).trans (Nat.mod_eq_of_lt (by omega))

/-- A logical lane within the width stands on the good lane of its rank. -/
theorem physOf_chooseDeckle_of_lt (good : List Nat) (e : Byte) {l : Nat} (h : l < widthLanes (widthFor good.length)) :
    physOf (chooseDeckle good e) l = (good[l]?.map (BitVec.ofNat 4)).getD 0xF := by
  refine (tabGet_zipIdx _ 0 l).trans ?_
  rw [if_neg (Nat.not_lt_zero l), Nat.sub_zero, List.getElem?_take_of_lt h]

/-- No lane stands beyond the width. -/
theorem physOf_chooseDeckle_of_le (good : List Nat) (e : Byte) {l : Nat} (h : widthLanes (widthFor good.length) ≤ l) :
    physOf (chooseDeckle good e) l = 0xF := by
  refine (tabGet_zipIdx _ 0 l).trans ?_
  rw [if_neg (Nat.not_lt_zero l), Nat.sub_zero, List.getElem?_take_eq_none h]
  rfl

/-- The spare of a port with a width is the good lane of the next rank. -/
theorem spare_chooseDeckle (good : List Nat) (e : Byte) (hw : widthFor good.length ≠ 0) :
    (chooseDeckle good e).spare = (good[widthLanes (widthFor good.length)]?.map (BitVec.ofNat 4)).getD 0xF := by
  simp only [chooseDeckle, if_neg hw]
  cases good[widthLanes (widthFor good.length)]? <;> rfl

/-- A port without a width has no spare. -/
theorem spare_chooseDeckle_of_down (good : List Nat) (e : Byte) (hw : widthFor good.length = 0) : (chooseDeckle good e).spare = 0xF :=
  if_pos hw

/-- Settles O20: the map and the spare read the list of good lanes by rank, and the width is never more than its length. -/
theorem deckleIsChosenByRank : Obligations.DeckleIsChosenByRank := by
  intro good e _ hlane
  refine ⟨rfl, fun l hl => ?carried, fun l hl => physOf_chooseDeckle_of_le good e hl, fun hw hn => ?spare, fun h => ?noSpare⟩
  case carried =>
    have hrank : l < good.length := Nat.lt_of_lt_of_le hl (widthLanes_widthFor_le good.length)
    refine ⟨good[l], List.getElem?_eq_getElem hrank, ?_⟩
    rw [physOf_chooseDeckle_of_lt good e hl, List.getElem?_eq_getElem hrank]
    exact toNat_ofNat_lane (hlane _ (List.getElem_mem hrank))
  case spare =>
    rw [spare_chooseDeckle good e hw]
    replace hn : widthLanes (widthFor good.length) < good.length := hn
    refine (List.getElem?_eq_getElem hn).trans (congrArg some ?_)
    rw [List.getElem?_eq_getElem hn]
    exact (toNat_ofNat_lane (hlane _ (List.getElem_mem hn))).symm
  case noSpare =>
    by_cases hw : widthFor good.length = 0
    · exact spare_chooseDeckle_of_down good e hw
    · have hn : good.length = widthLanes (widthFor good.length) := h.resolve_left hw
      rw [spare_chooseDeckle good e hw, List.getElem?_eq_none (Nat.le_of_eq hn)]
      rfl

end Sys2Proof.Machine

/-! PROOFS. The blocks and ordered sets of a lane: LANE_BLOCK with its alignment, MARKER, TRAIN, BURST and IDLE_ENTRY (05 R117 to R124,
R127, R135 to R137; log entries 33, 92, 103, 104). -/

namespace Sys2Proof.Machine

/-! ### The bits of a block (05 R117, R127; log entry 92) -/

/-- Over wires that are not swapped a block's bits arrive as they were sent. -/
theorem lineBits_of_straight {x : Lane} (hx : x.swapped = false) (h : BitVec 2) (d : BitVec 128) : lineBits x h d = blockNat h d := by
  simp [lineBits, hx]

/-- The header is the first two bits of a block. -/
theorem header_blockNat (h : BitVec 2) (d : BitVec 128) : BitVec.ofNat 2 (blockNat h d) = h := by
  refine BitVec.eq_of_toNat_eq ?_
  rw [BitVec.toNat_ofNat, blockNat]
  omega

/-- The payload is the other 128. -/
theorem payload_blockNat (h : BitVec 2) (d : BitVec 128) : BitVec.ofNat 128 (blockNat h d / 4) = d := by
  refine BitVec.eq_of_toNat_eq ?_
  rw [BitVec.toNat_ofNat, blockNat]
  omega

/-! ### LANE_BLOCK by the state of its lane (05 R121, R127, R145; log entry 33) -/

section
variable {s : State} {n k : Nat} (h : BitVec 2) (d : BitVec 128)

/-- In step 2 only polarity and TRAIN bytes count. -/
theorem doLaneBlock_of_step2 (h2 : inStep2 (portOf s n) (laneOf (portOf s n) k) = true) :
    doLaneBlock n k h d s = modPort n (step2Block k h d) s := if_pos h2

/-- On a lane in LOOP the block goes round the loop or to the checker. -/
theorem doLaneBlock_of_loop (h2 : inStep2 (portOf s n) (laneOf (portOf s n) k) = false) (hl : (laneOf (portOf s n) k).state = lsLoop) :
    doLaneBlock n k h d s = modPort n (modLane k (loopBlock (portOf s n) k (lineBits (laneOf (portOf s n) k) h d))) s :=
  (if_neg (Bool.eq_false_iff.mp h2)).trans (if_pos hl)

/-- The receiver of a lane that neither runs nor loops looks for no block. -/
theorem doLaneBlock_of_stopped (h2 : inStep2 (portOf s n) (laneOf (portOf s n) k) = false) (hl : (laneOf (portOf s n) k).state ≠ lsLoop)
    (hr : laneRuns (laneOf (portOf s n) k) = false) : doLaneBlock n k h d s = s :=
  ((if_neg (Bool.eq_false_iff.mp h2)).trans (if_neg hl)).trans (if_pos (by rw [hr]; rfl))

/-- A lane that runs takes the block with its pairs put right. -/
theorem doLaneBlock_of_runs (h2 : inStep2 (portOf s n) (laneOf (portOf s n) k) = false) (hl : (laneOf (portOf s n) k).state ≠ lsLoop)
    (hr : laneRuns (laneOf (portOf s n) k) = true) : doLaneBlock n k h d s =
      runBlock n k (BitVec.ofNat 2 (lineBits (laneOf (portOf s n) k) h d))
        (BitVec.ofNat 128 (lineBits (laneOf (portOf s n) k) h d / 4)) s :=
  ((if_neg (Bool.eq_false_iff.mp h2)).trans (if_neg hl)).trans (if_neg (by rw [hr]; decide))

end

/-! ### A block on a lane that runs (05 R118 to R120; log entry 103) -/

/-- An ordered set of a known type is a valid header, and its content is left to the set's own command. -/
theorem runBlock_of_known {d : BitVec 128} (ht : orderedTypes.contains (d.toNat % 256) = true) (n k : Nat) (s : State) :
    runBlock n k 1 d s = laneHeader n k true s := by
  simp only [runBlock, ht, if_true, onlyIf, Bool.not_true, Bool.false_eq_true, if_false]

/-- One of an unknown type counts a header error besides. -/
theorem runBlock_of_unknown {d : BitVec 128} (ht : orderedTypes.contains (d.toNat % 256) = false) (n k : Nat) (s : State) :
    runBlock n k 1 d s = laneHeader n k true (modPort n (modLane k headerError) s) := by
  simp only [runBlock, ht, if_true, onlyIf, Bool.not_false]

/-- A data block is taken and is a valid header. -/
theorem runBlock_of_data (d : BitVec 128) (n k : Nat) (s : State) :
    runBlock n k 2 d s = laneHeader n k true (modPort n (dataBlock k true d) s) := rfl

/-- A block with another header is taken as invalid. -/
theorem runBlock_of_invalid {h : BitVec 2} (hh : h = 0 ∨ h = 3) (d : BitVec 128) (n k : Nat) (s : State) :
    runBlock n k h d s = laneHeader n k false (modPort n (dataBlock k false d) s) := by
  rcases hh with rfl | rfl <;> rfl

/-- The descrambler moves over a data block, valid or not, and the payload of an invalid one is zero. -/
theorem dataBlock_of_scramble {p : Port} {k : Nat} {d y : BitVec 128} {v : BitVec 23}
    (hs : scramble 128 (laneOf p k).scrambler d = (v, y)) (valid : Bool) : dataBlock k valid d p =
      deskewBlock k (.data (if valid = true then y else 0))
        (modLane k (fun x => { x with scrambler := v, lastPayload := if valid = true then y else 0 }) p) := by
  simp only [dataBlock, hs]

/-! ### Alignment (05 R121) -/

/-- In hunt a valid header is the first of 64, and an invalid one slips the position by a bit. -/
theorem alignStep_of_hunt {x : Lane} (hx : x.align = .hunt) (valid : Bool) : alignStep valid x =
    if valid = true then { x with align := .tentative 1 } else { x with align := .hunt, position := (x.position + 1) % 130 } := by
  simp only [alignStep, hx, slip]

/-- After c valid headers one more counts on or locks, and an invalid one slips. -/
theorem alignStep_of_tentative {x : Lane} {c : Nat} (hx : x.align = .tentative c) :
    alignStep true x = (if 64 ≤ c + 1 then { x with align := .locked, window := [] } else { x with align := .tentative (c + 1) }) ∧
    alignStep false x = { x with align := .hunt, position := (x.position + 1) % 130 } := by
  constructor <;> simp only [alignStep, hx] <;> rfl

/-- The invalid headers of a window. -/
theorem length_filter_not (w : List Bool) : (w.filter (fun b => !b)).length = w.count false := by
  rw [List.count_eq_length_filter]
  exact congrArg (fun f => (w.filter f).length) (funext fun b => by cases b <;> rfl)

/-- A locked lane keeps a window of 64 headers, and loses its lock at 16 invalid ones. -/
theorem alignStep_of_locked {x : Lane} (hx : x.align = .locked) (v : Bool) : alignStep v x =
    if 16 ≤ ((v :: x.window).take 64).count false then { x with align := .hunt, window := [], lockLosses := satInc x.lockLosses }
    else { x with window := (v :: x.window).take 64 } := by
  simp only [alignStep, hx, length_filter_not]

/-- Settles O16: a block by the state of its lane and its header, and the alignment by its own state.  A lane in LOOP advances with
each block: the model's choice (log entry 33). -/
theorem laneBlocksAlignAndDescramble : Obligations.LaneBlocksAlignAndDescramble := by
  refine ⟨fun s n k h hh d e x hl hx hhh he => ?block, fun p k valid d y v hs => dataBlock_of_scramble hs valid,
    fun x hx => ⟨alignStep_of_hunt hx true, alignStep_of_hunt hx false⟩, fun x c hx => ?tentative, fun x v hx => ?locked⟩
  case block =>
    subst hx
    have run {t : State} : doLaneBlock n k h d s = t → Runs (.laneBlock n k h d) s t := runs_of (exec_laneBlock n k h d s) hl
    refine ⟨fun straight => ?_, fun h2 => run (doLaneBlock_of_step2 h d h2), fun h2 loops => run (doLaneBlock_of_loop h d h2 loops),
      fun h2 loops stopped => run (doLaneBlock_of_stopped h d h2 loops stopped), fun h2 loops runs => ?_⟩
    · rw [hhh, he, lineBits_of_straight straight]
      exact ⟨header_blockNat h d, payload_blockNat h d⟩
    · have taken := doLaneBlock_of_runs h d h2 loops runs
      rw [← hhh, ← he] at taken
      refine ⟨fun set known => run ?_, fun set unknown => run ?_, fun data => run ?_, fun invalid => run (taken.trans ?_)⟩
      · rw [taken, set, runBlock_of_known known]
      · rw [taken, set, runBlock_of_unknown unknown]
      · rw [taken, data, runBlock_of_data]
      · exact runBlock_of_invalid invalid e n k s
  case tentative =>
    obtain ⟨valid, invalid⟩ := alignStep_of_tentative hx
    exact ⟨fun h => valid.trans (if_neg (by omega)), fun h => valid.trans (if_pos (by omega)), invalid⟩
  case locked =>
    have step := alignStep_of_locked hx v
    exact ⟨fun h => step.trans (if_neg (Nat.not_le.mpr h)), fun h => step.trans (if_pos h)⟩

/-! ### MARKER (05 R123, R124; log entry 104) -/

section
variable {s u : State} {n k : Nat} {d : BitVec 128} {e : Byte} {c : BitVec 24}

/-- A lane that does not run sees no marker. -/
theorem doMarker_of_stopped (hr : laneRuns (laneOf (portOf s n) k) = false) : doMarker n k d s = s :=
  if_pos (by rw [hr]; rfl)

variable (hr : laneRuns (laneOf (portOf s n) k) = true) (hu : u = laneHeader n k true s)
include hr hu

/-- A marker of wrong form is a header error. -/
theorem doMarker_of_badForm (hf : markerOk d.toNat = false) : doMarker n k d s = modPort n (modLane k headerError) u := by
  simp [doMarker, hr, hf, hu]

variable (he : e = BitVec.ofNat 8 (bitsOf d.toNat 16 8)) (hc : c = BitVec.ofNat 24 (bitsOf d.toNat 40 24)) (hf : markerOk d.toNat = true)
include he hc hf

/-- A lane without a logical lane takes the one that its marker names. -/
theorem doMarker_of_unmapped (hl : logicalOf (portOf u n).deckle k = none) :
    doMarker n k d s = modPort n (takeMarker k (bitsOf d.toNat 8 8) e c) u := by
  subst hu
  simp [doMarker, hr, hf, hl, he, hc]

/-- A lane of the Deckle takes a marker that fits its logical lane, width and count, and fails otherwise. -/
theorem doMarker_of_mapped {l : Nat} (hl : logicalOf (portOf u n).deckle k = some l) : doMarker n k d s =
    if bitsOf d.toNat 8 8 = l ∧ bitsOf d.toNat 24 8 = (portOf u n).deckle.width.toNat ∧ markerCountOk (portOf u n) k c = true then
      modPort n (takeMarker k (bitsOf d.toNat 8 8) e c) u
    else laneFailed n k u := by
  subst hu
  simp only [doMarker, hr, hf, hl, he, hc, Bool.not_true, Bool.false_eq_true, if_false]

end

/-! ### TRAIN and BURST (05 R120, R127, R136, R137) -/

section
variable {s : State} {n k : Nat}

/-- In step 2 a TRAIN block shows its lane's polarity and carries the exchange. -/
theorem doTrain_of_step2 (h2 : inStep2 (portOf s n) (laneOf (portOf s n) k) = true) (d : BitVec 128) :
    doTrain n k d s = modPort n (fun p => takeTrain d (takePolarity k (d.toNat % 256) p)) s := if_pos h2

/-- On a lane that does not run, and for another type byte, TRAIN changes nothing. -/
theorem doTrain_of_not {d : BitVec 128} (h2 : inStep2 (portOf s n) (laneOf (portOf s n) k) = false)
    (h : laneRuns (laneOf (portOf s n) k) = false ∨ d.toNat % 256 ≠ 0x54) : doTrain n k d s = s := by
  refine (if_neg (Bool.eq_false_iff.mp h2)).trans (if_pos ?_)
  rcases h with h | h <;> simp [h]

/-- On a lane that runs it carries the exchange, and makes a port in service leave electrical idle. -/
theorem doTrain_of_runs {d : BitVec 128} {u : State} (h2 : inStep2 (portOf s n) (laneOf (portOf s n) k) = false)
    (hr : laneRuns (laneOf (portOf s n) k) = true) (ht : d.toNat % 256 = 0x54) (hu : u = modPort n (takeTrain d) (laneHeader n k true s)) :
    doTrain n k d s = if inService (portOf u n) = true then modPort n (sendExit n) u else u := by
  subst hu
  exact (if_neg (Bool.eq_false_iff.mp h2)).trans (if_neg (by simp [hr, ht]))

/-- BURST on an idle lane ends its deafness and is counted. -/
theorem doBurst_of_idle (hi : (laneOf (portOf s n) k).state = lsIdle) : doBurst n k s = laneHeader n k true (modPort n (fun p =>
      { modLane k (fun x => { x with deaf := false }) p with rxIdle := true, bursts := p.bursts + 1 }) s) := if_pos hi

/-- On another lane it is a header where the lane runs, and nothing where it does not. -/
theorem doBurst_of_not_idle (hi : (laneOf (portOf s n) k).state ≠ lsIdle) : doBurst n k s =
    if laneRuns (laneOf (portOf s n) k) = true then laneHeader n k true s else s := by
  refine (if_neg hi).trans ?_
  cases laneRuns (laneOf (portOf s n) k) <;> rfl

/-! ### IDLE_ENTRY (05 R135; 06 R149, R150) -/

/-- IDLE_ENTRY stops no lane but an ACTIVE one. -/
theorem doIdleEntry_of_not_active (ha : (laneOf (portOf s n) k).state ≠ lsActive) : doIdleEntry n k s = s := if_pos ha

/-- It stops an ACTIVE lane, and the receiver with the last lane of the Deckle. -/
theorem doIdleEntry_of_active {q : Port} (ha : (laneOf (portOf s n) k).state = lsActive)
    (hq : q = { modLane k idleLane (portOf s n) with rxIdle := false, bursts := 0 }) : doIdleEntry n k s =
      setPort n (if (deckleLanes q).all (fun j => (laneOf q j).state == lsIdle) = true then idlePort q else q) s := by
  subst hq
  exact if_neg (fun off => off ha)

end

/-- Settles O17: each ordered set by the state of its lane, and a marker by its form and by what the Deckle expects there. -/
theorem orderedSetsActOnTheirLane : Obligations.OrderedSetsActOnTheirLane := by
  refine ⟨fun s n k d hl hr => ⟨?noMarker, fun h2 => ?noTrain, fun hi => ?noBurst⟩, fun s u n k d c e hl hr hu hc he => ?marker,
    fun s u n k d hl h2 hr hu => ?train, fun s n k d hl h2 => runs_of (exec_train n k d s) hl (doTrain_of_step2 h2 d),
    fun s n k hl hi => runs_of (exec_burst n k s) hl (doBurst_of_idle hi),
    fun s n k hl => ⟨fun ha => runs_of (exec_idleEntry n k s) hl (doIdleEntry_of_not_active ha),
      fun q ha hq => runs_of (exec_idleEntry n k s) hl (doIdleEntry_of_active ha hq)⟩⟩
  case noMarker => exact runs_of (exec_marker n k d s) hl (doMarker_of_stopped hr)
  case noTrain => exact runs_of (exec_train n k d s) hl (doTrain_of_not h2 (.inl hr))
  case noBurst => exact runs_of (exec_burst n k s) hl ((doBurst_of_not_idle hi).trans (if_neg (Bool.eq_false_iff.mp hr)))
  case marker =>
    have run {t : State} : doMarker n k d s = t → Runs (.marker n k d) s t := runs_of (exec_marker n k d s) hl
    refine ⟨fun bad => run (doMarker_of_badForm hr hu bad), fun good off => run (doMarker_of_unmapped hr hu he hc good off),
      fun l good on => ⟨fun lane width count => run ?_, fun misfit => run ?_⟩,
      fun hi => runs_of (exec_burst n k s) hl (((doBurst_of_not_idle hi).trans (if_pos hr)).trans hu.symm)⟩
    · rw [doMarker_of_mapped hr hu he hc good on, if_pos ⟨lane.symm, width, count⟩, ← lane]
    · refine (doMarker_of_mapped hr hu he hc good on).trans (if_neg ?_)
      rintro ⟨lane, width, count⟩
      simp [lane, width, count] at misfit
  case train =>
    have run {t : State} : doTrain n k d s = t → Runs (.train n k d) s t := runs_of (exec_train n k d s) hl
    exact ⟨fun ht serves => run ((doTrain_of_runs h2 hr ht hu).trans (if_pos serves)),
      fun ht trains => run ((doTrain_of_runs h2 hr ht hu).trans (if_neg (Bool.eq_false_iff.mp trains))),
      fun ht => run (doTrain_of_not h2 (.inr ht))⟩

end Sys2Proof.Machine

/-! PROOFS. The steps of a training attempt (05 R127, R128, R130, R131; log entries 43, 93). -/

namespace Sys2Proof.Machine

/-- Without an attempt no step ends. -/
theorem doTrainingStep_of_none {s : State} {n : Nat} (h : (portOf s n).attempt = none) (o : TrainObs) : doTrainingStep n o s = s := by
  simp only [doTrainingStep, h]

section
variable {s : State} {n : Nat} {o : TrainObs} {a : Attempt} (ha : (portOf s n).attempt = some a)
include ha

/-- Step 1 fails without two lanes that answer, and goes on to step 2. -/
theorem doTrainingStep_step1 (h1 : a.step = 1) : doTrainingStep n o s =
    if o.timedOut = true ∨ maskCount o.lanes < 2 then attemptFailed n 0x03 s else startStep2 n a.held s := by
  simp only [doTrainingStep, ha, h1, if_true, Bool.or_eq_true, decide_eq_true_eq]

/-- A later step fails when its time is over. -/
theorem doTrainingStep_of_timeout (h2 : 2 ≤ a.step) (ht : o.timedOut = true) : doTrainingStep n o s = attemptFailed n 0x0C s := by
  have past : a.step ≠ 1 := by omega
  simp only [doTrainingStep, ha, ht, if_neg past, if_true]

variable (ht : o.timedOut = false)
include ht

/-- Step 2 ends by the polarity found. -/
theorem doTrainingStep_step2 (h : a.step = 2) : doTrainingStep n o s = endStep2 n a o.swapped s := by
  simp [doTrainingStep, ha, ht, h]

/-- Step 3 keeps the lanes that have locked. -/
theorem doTrainingStep_step3 {m : BitVec 9} (h : a.step = 3) (hm : m = a.lanes &&& lockedLanes (portOf s n)) : doTrainingStep n o s =
    modPort n (fun p => sendPrbs m { p with attempt := some { a with step := 4, lanes := m } }) s := by
  simp [doTrainingStep, ha, ht, h, hm, setAttempt]

/-- Step 4 ends by the good-lane test. -/
theorem doTrainingStep_step4 (h : a.step = 4) : doTrainingStep n o s = endStep4 n a o s := by
  simp [doTrainingStep, ha, ht, h]

/-- Step 5 fails where no TRAIN of step 5 has named the partner's lanes. -/
theorem doTrainingStep_step5_of_silent (h : a.step = 5) (hp : partnerLanes (portOf s n) = none) :
    doTrainingStep n o s = attemptFailed n 0x0C s := by
  simp [doTrainingStep, ha, ht, h, hp]

/-- It keeps the lanes that are good on both sides, of which it needs two. -/
theorem doTrainingStep_step5_of_named {m : BitVec 9} (h : a.step = 5) (hp : partnerLanes (portOf s n) = some m) : doTrainingStep n o s =
    if maskCount (a.lanes &&& m) < 2 then attemptFailed n 0x04 s else endStep5 n a (a.lanes &&& m) s := by
  simp [doTrainingStep, ha, ht, h, hp]

/-- No other step ends here: step 6 is the link's. -/
theorem doTrainingStep_of_other (h : a.step = 0 ∨ 6 ≤ a.step) : doTrainingStep n o s = s := by
  have past : a.step ≠ 1 := by omega
  simp only [doTrainingStep, ha, ht, if_neg past, Bool.false_eq_true, if_false]
  split
  case h_5 => rfl
  all_goals omega

end

section
variable {s : State} {n : Nat} {o : TrainObs} {a : Attempt} {m : BitVec 9} (hm : m = a.lanes &&& cleanLanes a.held o)
include hm

/-- A held attempt that loses a lane starts a full one at step 2 (log entry 43). -/
theorem endStep4_of_lost (hh : a.held = true) (hu : m ≠ usedMask s n) : endStep4 n a o s = startStep2 n false s := by
  subst hm
  exact if_pos (by simpa [hh] using hu)

/-- Otherwise the good lanes go on to step 5, if there are two. -/
theorem endStep4_of_kept (h : a.held = false ∨ m = usedMask s n) : endStep4 n a o s =
    if maskCount m < 2 then attemptFailed n 0x04 s
    else modPort n (fun p => sendTrain 5 m { p with attempt := some { a with step := 5, lanes := m } }) s := by
  subst hm
  exact if_neg (by rcases h with h | h <;> simp [h])

end

/-- Settles O19: the end of a step by its number, and by the lanes that are left. -/
theorem trainingStepsFollowTheirOrder : Obligations.TrainingStepsFollowTheirOrder := by
  refine ⟨fun s n o hl h => runs_of (exec_trainingStepComplete n o s) hl (doTrainingStep_of_none h o),
    fun s n o a hl ha => ?steps, fun p held o => ⟨rfl, rfl⟩⟩
  case steps =>
    have run {t : State} : doTrainingStep n o s = t → Runs (.trainingStepComplete n o) s t := runs_of (exec_trainingStepComplete n o s) hl
    refine ⟨fun h fails => run ((doTrainingStep_step1 ha h).trans (if_pos fails)),
      fun h ht two => run ((doTrainingStep_step1 ha h).trans (if_neg ?answered)),
      fun h ht => run (doTrainingStep_of_timeout ha h ht), fun h ht => run (doTrainingStep_step2 ha ht h),
      fun m h ht hm => run (doTrainingStep_step3 ha ht h hm), fun m h ht hm => ?goodLanes,
      fun h ht silent => run (doTrainingStep_step5_of_silent ha ht h silent), fun m h ht named => ?bothSides,
      fun h ht => run (doTrainingStep_of_other ha ht h)⟩
    case answered => exact not_or.mpr ⟨Bool.eq_false_iff.mp ht, Nat.not_lt.mpr two⟩
    case goodLanes =>
      have ends := doTrainingStep_step4 ha ht h
      exact ⟨fun held lost => run (ends.trans (endStep4_of_lost hm held lost)),
        fun kept few => run ((ends.trans (endStep4_of_kept hm kept)).trans (if_pos few)),
        fun kept two => run ((ends.trans (endStep4_of_kept hm kept)).trans (if_neg (Nat.not_lt.mpr two)))⟩
    case bothSides =>
      have ends := doTrainingStep_step5_of_named ha ht h named
      exact ⟨fun few => run (ends.trans (if_pos few)), fun two => run (ends.trans (if_neg (Nat.not_lt.mpr two)))⟩

end Sys2Proof.Machine

/-! PROOFS. When a calender pass is wanted, and what then becomes of it (05 R140, R141, R143, R144). -/

namespace Sys2Proof.Machine

/-! ### A pass is due (05 R140) -/

/-- A port with a temperature read: the reading counts towards the 60 s of R140 while the port is in service. -/
def temperatureRead (t : BitVec 10) (p : Port) : Port :=
  { p with cal := { p.cal with temp := t, sinceCal := if inService p then p.cal.sinceCal + 1 else p.cal.sinceCal } }

/-- A reading wants a pass when the temperature has moved, or 60 s have gone by, and none waits already. -/
theorem doTemperature_eq {s u : State} {n : Nat} {t : BitVec 10} (hu : u = modPort n (temperatureRead t) s) : doTemperature n t s =
    if (32 ≤ max t.toNat (portOf u n).cal.calTemp.toNat - min t.toNat (portOf u n).cal.calTemp.toNat ∨
        6000 ≤ (portOf u n).cal.sinceCal) ∧ (portOf u n).cal.waiting = false ∧ (portOf u n).cal.deferred = false ∧ (portOf u n).cal.waitsTwin = false then
      wantPass n ((portOf u n).cal.retry.getD 0) u
    else u := by
  subst hu
  rfl

/-! ### The timers (05 R142, R144) -/

section
variable {s u : State} {n : Nat}

/-- The retry timer wants what waits: the pass, or a repair's swap on a port in service. -/
theorem doCalenderRetry_of_waiting (hw : (portOf s n).cal.waiting = true)
    (hu : u = modPort n (fun p => { p with cal := { p.cal with waiting := false } }) s) : doCalenderRetry n s =
      if (portOf u n).cal.repair = true then
        (if inService (portOf u n) = true then beginRepair n ((portOf u n).cal.retry.getD 0) u else u)
      else wantPass n ((portOf u n).cal.retry.getD 0) u := by
  subst hu
  exact if_pos hw

/-- Nothing waits for its retry. -/
theorem doCalenderRetry_of_not (hw : (portOf s n).cal.waiting = false) : doCalenderRetry n s = s := if_neg (Bool.eq_false_iff.mp hw)

/-- The end of its deferral forces a pass. -/
theorem doCalenderDefer_of_deferred (hd : (portOf s n).cal.deferred = true)
    (hu : u = modPort n (fun p => { p with cal := { p.cal with deferred := false, forceActive := true } }) s) :
    doCalenderDefer n s = wantPass n ((portOf u n).cal.retry.getD 0) u := by
  subst hu
  exact if_pos hd

/-- No pass is deferred. -/
theorem doCalenderDefer_of_not (hd : (portOf s n).cal.deferred = false) : doCalenderDefer n s = s := if_neg (Bool.eq_false_iff.mp hd)

/-- A pass whose CALENDER the partner has not answered stops and waits. -/
theorem doCalenderAnswer_of_silent (hp : (portOf s n).cal.pass.isSome = true) (hs : (portOf s n).cal.step = 1)
    (hd : (portOf s n).deckle.spare ≠ 0xF) : doCalenderAnswer n s = modPort n (fun p =>
      { stopPass p with cal := { (stopPass p).cal with
        waiting := true, repair := p.cal.repair, retry := if p.cal.repair = true then p.cal.pass else p.cal.retry } }) s :=
  if_pos (by simpa [hp, hs] using hd)

/-- Without a pass that waits for an answer nothing happens. -/
theorem doCalenderAnswer_of_not (h : (portOf s n).cal.pass = none ∨ (portOf s n).cal.step ≠ 1 ∨ (portOf s n).deckle.spare = 0xF) :
    doCalenderAnswer n s = s :=
  if_neg (by rcases h with h | h | h <;> simp [h])

/-! ### A pass that is wanted (05 R143, R144) -/

/-- A port that may not pass begins none. -/
theorem wantPass_of_not (hm : mayPass s n = false) (l : Nat) : wantPass n l s = s := if_pos (by simp [hm])

variable (hm : mayPass s n = true)
include hm

/-- At x2 without a spare the pass is skipped. -/
theorem wantPass_skips (hk : passSkipped (portOf s n) = true) (l : Nat) :
    wantPass n l s = modPort n (fun p => { p with cal := { p.cal with stale := true } }) s := by
  simp only [wantPass, hm, hk, Bool.not_true, Bool.false_eq_true, if_false, if_true]

variable (hk : passSkipped (portOf s n) = false)
include hk

/-- A throttled port defers a pass that is not forced. -/
theorem wantPass_defers (hl : s.power.level ≠ 0) (hf : (portOf s n).cal.forceActive = false) (l : Nat) :
    wantPass n l s = modPort n (fun p => { p with cal := { p.cal with deferred := true } }) s := by
  simp only [wantPass, hm, hk, Bool.not_true, Bool.false_eq_true, if_false]
  exact if_pos ⟨hl, hf⟩

/-- Any other pass begins, unless its twin's is under way. -/
theorem wantPass_goes (h : s.power.level = 0 ∨ (portOf s n).cal.forceActive = true) (l : Nat) : wantPass n l s =
    if (portOf s (twinOf n)).cal.pass.isSome = true then modPort n (fun p => { p with cal := { p.cal with waitsTwin := true } }) s
    else beginPass n l (portOf s n).cal.forceActive s := by
  have now : ¬ (s.power.level ≠ 0 ∧ (portOf s n).cal.forceActive = false) := by
    rintro ⟨hl, hf⟩
    exact hl (h.resolve_right (Bool.eq_false_iff.mp hf))
  simp only [wantPass, hm, hk, Bool.not_true, Bool.false_eq_true, if_false]
  exact if_neg now

end

/-- Settles O21: what each timer and reading wants, and the pass that is wanted by what stands in its way. -/
theorem passesBeginWhenTheyAreDue : Obligations.PassesBeginWhenTheyAreDue := by
  refine ⟨fun s u n t hl hu => ?temperature, fun s u v n hl hu hv => ?timers,
    fun s n hl hp hs hd => runs_of (exec_calenderAnswerTimeout n s) hl (doCalenderAnswer_of_silent hp hs hd),
    fun s n hl h => runs_of (exec_calenderAnswerTimeout n s) hl (doCalenderAnswer_of_not h),
    fun s n l hm hk => ⟨fun h => ⟨fun free => ?begins, fun busy => ?twin⟩, fun hp hf => wantPass_defers hm hk hp hf l⟩,
    fun s n l hm hk => wantPass_skips hm hk l, fun s n l hm => wantPass_of_not hm l⟩
  case temperature =>
    have read := doTemperature_eq (show u = modPort n (temperatureRead t) s from hu)
    refine ⟨fun h => ?_, fun hw hd ht due => ?_⟩ <;> refine runs_of (exec_laneTemperatureRead n t s) hl (read.trans ?_)
    · refine if_neg fun ⟨due, hw, hd, ht⟩ => ?_
      rcases h with h | h | h | ⟨near, early⟩
      · simp [h] at hw
      · simp [h] at hd
      · simp [h] at ht
      · omega
    · exact if_pos ⟨due, hw, hd, ht⟩
  case timers =>
    have retry {t : State} : doCalenderRetry n s = t → Runs (.calenderRetryTimer n) s t := runs_of (exec_calenderRetryTimer n s) hl
    refine ⟨fun hw => ?_, fun hw => retry (doCalenderRetry_of_not hw),
      fun hd => runs_of (exec_calenderDeferExpiry n s) hl (doCalenderDefer_of_deferred hd hv),
      fun hd => runs_of (exec_calenderDeferExpiry n s) hl (doCalenderDefer_of_not hd)⟩
    have waited := doCalenderRetry_of_waiting hw hu
    exact ⟨fun pass => retry (waited.trans (if_neg (Bool.eq_false_iff.mp pass))),
      fun repair serves => retry ((waited.trans (if_pos repair)).trans (if_pos serves)),
      fun repair out => retry ((waited.trans (if_pos repair)).trans (if_neg (Bool.eq_false_iff.mp out)))⟩
  case begins => exact (wantPass_goes hm hk h l).trans (if_neg (by simp [free]))
  case twin => exact (wantPass_goes hm hk h l).trans (if_pos busy)

end Sys2Proof.Machine

/-! PROOFS. The steps of a calender pass, and the partner's CALENDER (05 R126, R141 to R144). -/

namespace Sys2Proof.Machine

/-! ### The Deckle of a port whose lanes change (05 R126) -/

/-- A change of the lanes leaves the Deckle. -/
@[simp] theorem setLanes_deckle (f : Nat → Lane → Lane) (p : Port) : (setLanes f p).deckle = p.deckle := by
  unfold setLanes
  induction allLanes generalizing p with
  | nil => rfl
  | cons k ks ih => exact ih (modLane k (f k) p)

/-- The states that a Deckle gives its lanes leave the Deckle. -/
@[simp] theorem settleLanes_deckle (p : Port) : (settleLanes p).deckle = p.deckle := setLanes_deckle (settleLane p) p

/-- A swap exchanges the lane and the spare, with the next epoch. -/
theorem swapLane_deckle (l : Nat) (p : Port) : (swapLane l p).deckle = { p.deckle with
    map := tabSet 0xF l p.deckle.spare p.deckle.map, spare := physOf p.deckle l, epoch := p.deckle.epoch + 1 } :=
  settleLanes_deckle _

/-! ### CALENDER_STEP (05 R141 to R143) -/

section
variable {s : State} {n d : Nat}

/-- Without a pass, and while it pauses, no step is made. -/
theorem doCalenderStep_of_not (h : (portOf s n).cal.pass = none ∨ passPaused s n = true) : doCalenderStep n d s = s := by
  cases hp : (portOf s n).cal.pass with
  | none => simp only [doCalenderStep, hp]
  | some l =>
    have paused : passPaused s n = true := h.resolve_left (by simp [hp])
    simp only [doCalenderStep, hp, paused, if_true]

variable {l : Nat} (hp : (portOf s n).cal.pass = some l) (hq : passPaused s n = false)
include hp hq

/-- Without a spare the port narrows for the lane. -/
theorem doCalenderStep_of_no_spare (hd : (portOf s n).deckle.spare = 0xF) : doCalenderStep n d s = narrowStep n l s := by
  simp only [doCalenderStep, hp, hq, hd, Bool.false_eq_true, if_false, if_true]

variable (hd : (portOf s n).deckle.spare ≠ 0xF)
include hd

/-- Step 2 trims the spare, and mirrors the lane on it. -/
theorem doCalenderStep_step2 (h : (portOf s n).cal.step = 2) : doCalenderStep n d s =
    modPort n (fun p => setSpare lsMirror .data { p with cal := { p.cal with step := 3 } }) (trimSpare n s) := by
  simp only [doCalenderStep, hp, hq, if_neg hd, h, Bool.false_eq_true, if_false]

/-- Step 3 compares the two. -/
theorem doCalenderStep_step3 (h : (portOf s n).cal.step = 3) : doCalenderStep n d s =
    if 16 < d then swapFailed n l s else modPort n (fun p => { p with cal := { p.cal with step := 4 } }) s := by
  simp only [doCalenderStep, hp, hq, if_neg hd, h, Bool.false_eq_true, if_false]

/-- Step 4 swaps them, which ends a repair and leads a pass on. -/
theorem doCalenderStep_step4 {u : State} (h : (portOf s n).cal.step = 4) (hu : u = modPort n (swapLane l) s) : doCalenderStep n d s =
    if (portOf u n).cal.repair = true then endRepair n u else modPort n (nextLogical l) u := by
  subst hu
  simp only [doCalenderStep, hp, hq, if_neg hd, h, Bool.false_eq_true, if_false]
  rfl

/-- Step 5 trims the last spare, which ends both. -/
theorem doCalenderStep_step5 {u : State} (h : (portOf s n).cal.step = 5) (hu : u = trimSpare n s) : doCalenderStep n d s =
    if (portOf u n).cal.repair = true then modPort n stopPass u else endPass n u := by
  subst hu
  simp only [doCalenderStep, hp, hq, if_neg hd, h, Bool.false_eq_true, if_false]
  rfl

end

/-! ### CALENDER (05 R141, R144) -/

section
variable {s : State} {n l sp : Nat} {e : Byte}

/-- A CALENDER with another spare or epoch, beyond the width or out of service changes nothing. -/
theorem doCalender_of_misfit (h : inService (portOf s n) = false ∨ (portOf s n).deckle.spare.toNat ≠ sp ∨
    (portOf s n).deckle.epoch + 1 ≠ e ∨ widthLanes (portOf s n).deckle.width ≤ l) : doCalender n l sp e s = s :=
  if_pos (by simpa [or_assoc] using h)

variable (hs : inService (portOf s n) = true) (hsp : (portOf s n).deckle.spare.toNat = sp) (he : (portOf s n).deckle.epoch + 1 = e)
  (hl : l < widthLanes (portOf s n).deckle.width)
include hs hsp he hl

/-- One that fits begins the partner's pass at a port without a pass. -/
theorem doCalender_begins (hp : (portOf s n).cal.pass = none) : doCalender n l sp e s = modPort n (fun p =>
    trimState { sendCalender l (idleExit n p) with
      loopMode := 0, loopLanes := 0
      cal := { (sendCalender l (idleExit n p)).cal with pass := some l, step := 2, peerPass := true } }) s := by
  subst he
  refine (if_neg (by simp [hs, hsp, hl])).trans ?_
  simp only [hp]

/-- One that fits answers the port's own at its step 1. -/
theorem doCalender_answers (hp : (portOf s n).cal.pass = some l) (h1 : (portOf s n).cal.step = 1) :
    doCalender n l sp e s = modPort n (fun p => trimState { p with cal := { p.cal with
      step := 2, peerPass := p.cal.peerPass || (decide (l = 0) && decide ((portOf s n).peerEndpoint.toNat < selfEp s)) } }) s := by
  subst he
  refine (if_neg (by simp [hs, hsp, hl])).trans ?_
  simp only [hp, h1, and_self, if_true]

end

/-- Settles O22: a step by its number and by the spare, a CALENDER by whether it fits, and a swap by its Deckle. -/
theorem passesRunTheirSteps : Obligations.PassesRunTheirSteps := by
  refine ⟨fun s n d hl h => runs_of (exec_calenderStep n d s) hl (doCalenderStep_of_not h),
    fun s n d l hl hp hq => ?steps, fun s n l sp e hl hs hsp he hw => ?fits,
    fun s n l sp e hl h => runs_of (exec_calender n l sp e s) hl (doCalender_of_misfit h), fun p l => swapLane_deckle l p⟩
  case steps =>
    have run {t : State} : doCalenderStep n d s = t → Runs (.calenderStep n d) s t := runs_of (exec_calenderStep n d s) hl
    refine ⟨fun hd => run (doCalenderStep_of_no_spare hp hq hd), fun hd => ⟨fun h => run (doCalenderStep_step2 hp hq hd h),
      fun h few => run ((doCalenderStep_step3 hp hq hd h).trans (if_neg (Nat.not_lt.mpr few))),
      fun h many => run ((doCalenderStep_step3 hp hq hd h).trans (if_pos many)), fun u h hu => ?swap, fun u h hu => ?trim⟩⟩
    case swap =>
      have swapped := doCalenderStep_step4 (d := d) hp hq hd h hu
      exact ⟨fun pass => run (swapped.trans (if_neg (Bool.eq_false_iff.mp pass))), fun repair => run (swapped.trans (if_pos repair))⟩
    case trim =>
      have trimmed := doCalenderStep_step5 (d := d) hp hq hd h hu
      exact ⟨fun pass => run (trimmed.trans (if_neg (Bool.eq_false_iff.mp pass))), fun repair => run (trimmed.trans (if_pos repair))⟩
  case fits =>
    have run {t : State} : doCalender n l sp e s = t → Runs (.calender n l sp e) s t := runs_of (exec_calender n l sp e s) hl
    exact ⟨fun hp => run (doCalender_begins hs hsp he hw hp), fun hp h1 => run (doCalender_answers hs hsp he hw hp h1)⟩

end Sys2Proof.Machine

/-! PROOFS. Lanes that wear out or fail in service (05 R122, R138, R139; log entries 48, 102). -/

namespace Sys2Proof.Machine

/-! ### LANE_ERROR_WINDOW (05 R138) -/

/-- With nothing armed for injection the window holds what was corrected, and acts on the lanes above the limit. -/
theorem doLaneWindow_of_no_inject {s : State} (hi : s.err.inject = none) (n : Nat) (c : List Nat) : doLaneWindow n c s =
    (allLanes.filter (fun k => decide (268 < c.getD k 0 + (laneOf (portOf s n) k).winSymbols))).foldl (fun t k => laneWorn n k t)
      (modPort n (setLanes (fun k x => { x with corrSymbols := satAdd x.corrSymbols (c.getD k 0), winSymbols := 0 })) s) := by
  simp only [doLaneWindow, laneInject, hi, ite_self, Nat.add_zero, forEach, symbolLimit]

section
variable {s : State} {n k : Nat}

/-- A lane that carries nothing, a port out of service and one that repairs already are left. -/
theorem laneWorn_of_not (h : logicalOf (portOf s n).deckle k = none ∨ inService (portOf s n) = false ∨ (portOf s n).cal.repair = true) :
    laneWorn n k s = s := by
  cases hl : logicalOf (portOf s n).deckle k with
  | none => simp only [laneWorn, hl]
  | some l =>
    have spared : (!inService (portOf s n) || (portOf s n).cal.repair) = true := by simpa [hl] using h
    simp only [laneWorn, hl, spared, if_true]

/-- A worn lane in service is swapped out by a repair, or fails without a spare. -/
theorem laneWorn_of_mapped {l : Nat} (hl : logicalOf (portOf s n).deckle k = some l) (hs : inService (portOf s n) = true)
    (hr : (portOf s n).cal.repair = false) :
    laneWorn n k s = if (portOf s n).deckle.spare = 0xF then laneFailed n k s else beginRepair n l s := by
  simp only [laneWorn, hl, hs, hr, Bool.not_true, Bool.or_self, Bool.false_eq_true, if_false]

/-! ### A lane fails (05 R122, R138) -/

/-- A lane that has failed before, or whose port has no link or width, changes nothing. -/
theorem laneFailed_of_not (h : linkUp (portOf s n) = false ∨ (portOf s n).deckle.width = 0 ∨ (laneOf (portOf s n) k).good = false) :
    laneFailed n k s = s :=
  if_pos (by rcases h with h | h | h <;> simp [h])

/-- Without a pass there is none to stop. -/
theorem stopPass_of_none {p : Port} (h : p.cal.pass = none) : stopPass p = p := if_pos (by simp [h])

/-- Without a repair there is none to give up. -/
theorem dropRepair_of_not {p : Port} (h : p.cal.repair = false) : dropRepair p = p := if_neg (Bool.eq_false_iff.mp h)

/-- Outside a pass the spare takes over a logical lane that fails, trimmed as the new spare is (log entry 102). -/
theorem laneFailed_takes_spare {u v : State} {l : Nat} (hu : linkUp (portOf s n) = true) (hw : (portOf s n).deckle.width ≠ 0)
    (hg : (laneOf (portOf s n) k).good = true) (hp : (portOf s n).cal.pass = none) (hr : (portOf s n).cal.repair = false)
    (hd : (portOf s n).deckle.spare ≠ 0xF) (hl : logicalOf (portOf s n).deckle k = some l)
    (hf : u = setPort n (modLane k (fun x => { stopLane lsFailed x with good := false, tx := .quiet }) (portOf s n)) s)
    (hv : v = lanesTaken (trimSpare n (modPort n (takeSpare l) (trimSpare n u)))) :
    laneFailed n k s = logTakeover { laneEvt n k with detail := remains (portOf v n) } (goodLanes (portOf v n)).length v := by
  subst hv hf
  refine (if_neg (by simpa [hu, hg] using hw)).trans ?_
  simp only [stopPass_of_none hp, dropRepair_of_not hr, hl]
  exact if_pos hd

end

/-- Settles O23: a window by its lanes above the limit, and a lane that wears out or fails by what can take its place.  The DETAIL of
the TAKEOVER record is the model's choice (log entry 48). -/
theorem errorWindowsFailBadLanes : Obligations.ErrorWindowsFailBadLanes := by
  refine ⟨fun s n c hl hi => runs_of (exec_laneErrorWindow n c s) hl (doLaneWindow_of_no_inject hi n c),
    fun s n k h => laneWorn_of_not h, fun s n k l hl hs hr => ⟨fun hd => ?fails, fun hd => ?repairs⟩,
    fun s u v n k l hu hw hg hp hr hd hl hf hv => laneFailed_takes_spare hu hw hg hp hr hd hl hf hv,
    fun s n k h => laneFailed_of_not h⟩
  case fails => exact (laneWorn_of_mapped hl hs hr).trans (if_pos hd)
  case repairs => exact (laneWorn_of_mapped hl hs hr).trans (if_neg hd)

end Sys2Proof.Machine

end

section

/- As above, one proof after another: proofs that wait for the kernel together pass the memory that the check allows. -/
set_option Elab.async false

/-! PROOFS. What a quiet command answers, and control packets that may not come now (06 R158, R182, R183; log entries 5, 11). -/

namespace Sys2Proof.Machine

/-! ### A quiet command -/

/-- Settles O8: settling leaves a quiet effect as it is, and so does putting back inputs that it has kept.  That what a step found
takes effect in the same step is the model's choice (log entry 5). -/
theorem quietCommandsAnswerTheirEffect : Obligations.QuietCommandsAnswerTheirEffect := by
  intro c s t hr hk hq
  calc exec c s
      = .next (keepInputs s (settle t)) := hr
    _ = .next (keepInputs s t) := by rw [settle_quiet hq]
    _ = .next t := congrArg _ hk

/-! ### Control packets (06 R158) -/

/-- A command that carries a control packet acts by taking that packet. -/
theorem exec_packet {c : Instr} {n : PortNo} {typ : Byte} {part : Bool} {body : List Byte} (h : ctrlOf c = some (n, typ, part, body))
    (s : State) : ∃ f, exec c s = act (onPacket n typ part body f) s := by
  unfold ctrlOf at h
  split at h <;> cases h <;> exact ⟨_, rfl⟩

/-- Settles O35: each of the commands takes its packet, which the port's state refuses.  That a packet which waits in the inbox is
taken from there, and any other arrives now, is the model's choice (log entry 11). -/
theorem controlPacketsAreJudged : Obligations.ControlPacketsAreJudged := by
  intro c s n typ part body hl hc hno
  obtain ⟨f, hf⟩ := exec_packet hc s
  exact runs_packet_refused hl hf hno

end Sys2Proof.Machine

/-! PROOFS. Replay: NAK, REPLAY_START, CNAK and the timers of a link's counts (06 R156, R160, R162 to R164, R167, R182). -/

namespace Sys2Proof.Machine

section
variable {s : State} {n : Nat}

/-! ### NAK and REPLAY_START (06 R162, R163) -/

/-- Out of service a NAK is not acted on. -/
theorem doNak_of_not (hs : inService (portOf s n) = false) (e : Count) : doNak n e s = s := if_pos (by simp [hs])

section
variable {w : State} {e : Count} (hs : inService (portOf s n) = true)
  (hw : w = logErr { cls := clsLink, sev := 0, transient := true, port := n, unitKind := 2, detail := leBytes 5 e.toNat } (countNak n s))
include hs hw

/-- In service a NAK whose count lies from OLDEST to NEXT_TX frees the flits before it and replays from it. -/
theorem doNak_replays {d : Nat} (hd : fromOldest (portOf w n).tx e = some d) :
    doNak n e s = startReplay n e 1 (modPort n (fun p => { p with tx := freeAcked d p.tx }) w) := by
  subst hw
  simp only [doNak, hs, hd, Bool.not_true, Bool.false_eq_true, if_false]

/-- Any other count of a NAK in service is impossible. -/
theorem doNak_impossible (hd : fromOldest (portOf w n).tx e = none) : doNak n e s = impossibleCount n w := by
  subst hw
  simp only [doNak, hs, hd, Bool.not_true, Bool.false_eq_true, if_false]

end

/-- In service a REPLAY_START whose count equals EXPECTED, or lies below it within the window, is where acceptance resumes. -/
theorem doReplayStart_resumes {f : Count} (hs : inService (portOf s n) = true)
    (hf : f = (portOf s n).rx.expected ∨ belowInWindow f (portOf s n).rx.expected = true) :
    doReplayStart n f s = modPort n (fun p => { p with rx := { p.rx with cur := f, waiting := false } }) s := by
  have taken : (belowInWindow f (portOf s n).rx.expected || f == (portOf s n).rx.expected) = true := by simpa using hf.symm
  simp only [doReplayStart, hs, taken, Bool.not_true, Bool.false_eq_true, if_false, if_true]

/-- Any other count of a REPLAY_START in service is impossible. -/
theorem doReplayStart_impossible {f : Count} (hs : inService (portOf s n) = true) (hne : f ≠ (portOf s n).rx.expected)
    (hb : belowInWindow f (portOf s n).rx.expected = false) : doReplayStart n f s = impossibleCount n s := by
  simp [doReplayStart, hs, hb, hne]

/-! ### The timers (06 R156, R164, R167) -/

/-- With nothing unacknowledged, and out of service, the replay timer has nothing to time. -/
theorem doReplayTimeout_of_not (h : inService (portOf s n) = false ∨ (portOf s n).tx.broke = []) : doReplayTimeout n s = s :=
  if_pos (by simpa using h)

/-- A replay timeout is counted and logged; the fourth loses the link, and one before it replays from OLDEST. -/
theorem doReplayTimeout_eq {u : State} (hs : inService (portOf s n) = true) (hb : (portOf s n).tx.broke ≠ [])
    (hu : u = logErr { cls := clsLink, sev := 0, port := n, unitKind := 2, detail := leBytes 5 (oldestOf (portOf s n).tx).toNat }
      (modPort n (fun p => { p with
        replayTimeouts := satInc p.replayTimeouts, tx := { p.tx with replayFails := p.tx.replayFails + 1 } }) s)) :
    doReplayTimeout n s = if 4 ≤ (portOf s n).tx.replayFails + 1 then loseLink n 0x05 u
      else startReplay n (oldestOf (portOf s n).tx) 2 u := by
  subst hu
  exact if_neg (by simpa [hs] using hb)

/-- A receiver that has waited for REPLAY_START loses the link after four NAKs, and sends its NAK again before. -/
theorem doReplayStartWait_eq (hs : inService (portOf s n) = true) (hw : (portOf s n).rx.waiting = true) :
    doReplayStartWait n s = if 4 ≤ (portOf s n).rx.naksForCount then loseLink n 0x05 s
      else modPort n (fun p => sendNak p.rx.nakReason p) s :=
  if_neg (by simp [hs, hw])

/-- Control packets that were sent and not acknowledged in time are resent on a link that is up. -/
theorem doControlTimeout_resends (hu : linkUp (portOf s n) = true) (hc : (portOf s n).ctl.sent ≠ 0) :
    doControlTimeout n s = modPort n (fun p => { p with ctl := { p.ctl with sent := 0 } }) s :=
  if_pos (by simpa [hu] using hc)

/-- An acknowledgement owed for its time makes a null flit ready, which wakes the port. -/
theorem doAckOwed_wakes (hs : inService (portOf s n) = true) (ho : (portOf s n).rx.ackOwed = true) :
    doAckOwed n s = wakePort n (modPort n (fun p => { p with rx := { p.rx with nullReady := true } }) s) :=
  if_pos (by simp [hs, ho])

end

/-- Settles O36: a packet by its count, and a timer by how often it has run out. -/
theorem replayFollowsTheCounts : Obligations.ReplayFollowsTheCounts := by
  refine ⟨fun s u w n e r h hs hw => ?nak, fun s u n e r h hs => runs_packet h rfl (exec_nak n e r s) (doNak_of_not hs e),
    fun s u n f r h hs => ?replayStart, fun s u n e h => runs_packet h rfl (exec_cnak n e s) rfl,
    fun s u n hl hs hb hu => ?replayTimeout, fun s n hl h => runs_of (exec_replayTimeout n s) hl (doReplayTimeout_of_not h),
    fun s n hl hs hw => ?wait, fun s n hl hu hc => runs_of (exec_controlReplayTimeout n s) hl (doControlTimeout_resends hu hc),
    fun s n hl hs ho => runs_of (exec_ackOwedTimeout n s) hl (doAckOwed_wakes hs ho)⟩
  case nak =>
    have run {t : State} : doNak n e u = t → Runs (.nak n e r) s t := runs_packet h rfl (exec_nak n e r s)
    exact ⟨fun d hd => run (doNak_replays hs hw hd), fun hd => run (doNak_impossible hs hw hd)⟩
  case replayStart =>
    have run {t : State} : doReplayStart n f u = t → Runs (.replayStart n f r) s t := runs_packet h rfl (exec_replayStart n f r s)
    exact ⟨fun hf => run (doReplayStart_resumes hs hf), fun hne hb => run (doReplayStart_impossible hs hne hb)⟩
  case replayTimeout =>
    have run {t : State} : doReplayTimeout n s = t → Runs (.replayTimeout n) s t := runs_of (exec_replayTimeout n s) hl
    have counted := doReplayTimeout_eq hs hb hu
    exact ⟨fun few => run (counted.trans (if_neg (by omega))), fun four => run (counted.trans (if_pos (by omega)))⟩
  case wait =>
    have run {t : State} : doReplayStartWait n s = t → Runs (.replayStartWaitTimeout n) s t := runs_of (exec_replayStartWaitTimeout n s) hl
    have waited := doReplayStartWait_eq hs hw
    exact ⟨fun few => run (waited.trans (if_neg (Nat.not_le.mpr few))), fun four => run (waited.trans (if_pos four))⟩

end Sys2Proof.Machine

/-! PROOFS. Pauses that last too long, the window of the partner's misbehaviour, and the receiver's own pauses (06 R170, R172, R173, R182;
log entries 79, 100). -/

namespace Sys2Proof.Machine

/-- The pause limit of a buffer that the partner does not pause, and of a port out of service, ends nothing. -/
theorem doPauseLimit_of_not {s : State} {n v : Nat} (h : inService (portOf s n) = false ∨ (portOf s n).rx.xoffRcvd.getLsbD v = false) :
    doPauseLimit n v s = s :=
  if_pos (by simpa using h)

/-- The end of the pause limit is counted and kept: the third within the span fences after STUCK_NOTICE, and one before it leaves
with that packet. -/
theorem doPauseLimit_eq {s u : State} {n v : Nat} (hs : inService (portOf s n) = true) (hx : (portOf s n).rx.xoffRcvd.getLsbD v = true)
    (hu : u = modPort n (fun p => { p with
      stuckCount := satInc p.stuckCount, stuckAt := s.nowUs :: p.stuckAt
      longestXoff := satAdd 0 (max p.longestXoff.toNat (s.nowUs - tabGet s.nowUs p.rx.xoffSince v)) }) s) :
    doPauseLimit n v s = if 3 ≤ ((portOf u n).stuckAt.filter (fun a => decide (spanFrom u ≤ a))).length then
        modPort n (fun p => { p with fenceDue := some 0x05 }) (flushCtrl n (sendCtrlAt n tyStuckNotice [BitVec.ofNat 8 v] false u))
      else announce n tyStuckNotice [BitVec.ofNat 8 v] .stuck u := by
  subst hu
  exact if_neg (by simp only [hs, hx]; decide)

/-- The end of a window: a limit that has been reached in service fences, for pause violations before malformed events. -/
theorem doMisbehaviourWindow_eq (n : Nat) (s : State) : doMisbehaviourWindow n s = modPort n (fun p => { p with
    fenceDue := if inService p = true ∧ 16 ≤ p.winViol then some 0x06
      else if inService p = true ∧ 64 ≤ p.winMalformed then some 0x08 else p.fenceDue
    winViol := 0, winNaks := 0, winMalformed := 0 }) s := by
  refine congrArg (fun f => modPort n f s) (funext fun p => ?_)
  cases hs : inService p with
  | false => simp
  | true => simp

/-- Settles O37: a pause limit by the ends within the span, a window by its counts.  Judging the limits of R182 again at the window's end
is the model's reading (log entry 79), and so is losing the link once STUCK_NOTICE has been sent (log entry 100). -/
theorem pauseAndMisbehaviourAreLimited : Obligations.PauseAndMisbehaviourAreLimited := by
  refine ⟨fun s u n v h => runs_packet h rfl (exec_stuckNotice n v s) rfl,
    fun s n v hl h => runs_of (exec_pauseLimitExpiry n v s) hl (doPauseLimit_of_not h), fun s u n v hl hs hx hu => ?limit,
    fun s n hl => runs_of (exec_misbehaviourWindow n s) hl (doMisbehaviourWindow_eq n s), fun r => rfl⟩
  case limit =>
    have run {t : State} : doPauseLimit n v s = t → Runs (.pauseLimitExpiry n v) s t := runs_of (exec_pauseLimitExpiry n v s) hl
    have ended := doPauseLimit_eq hs hx hu
    exact ⟨fun few => run (ended.trans (if_neg (Nat.not_le.mpr few))), fun three => run (ended.trans (if_pos three))⟩

end Sys2Proof.Machine

/-! PROOFS. How streams leave a port and come back: handover, hand-back, and the partner's PARK, RETRAIN_REQ and FENCE_NOTICE (06 R175,
R178 to R181, R469; log entries 29, 77). -/

namespace Sys2Proof.Machine

section
variable {s : State} {n : Nat}

/-! ### Handover and hand-back (06 R178 to R181) -/

/-- A second HANDOVER of an exchange, after the partner's counts have come, changes nothing. -/
theorem doHandover_of_answered {h : Handover} (h6 : sixPort s = false) (hs : inService (portOf s (twinOf n)) = false)
    (hh : (portOf s (twinOf n)).hand = some h) (hp : h.peerExp.isSome = true) (e : Count) : doHandover n e s = s := by
  simp only [doHandover, h6, hs, hh, hp, Bool.false_eq_true, if_false, if_true]

/-- An exchange fails at its timeout when the partner's counts have not come. -/
theorem doHandoverTimeout_eq {h : Handover} (hh : (portOf s n).hand = some h) :
    doHandoverTimeout n s = if h.peerExp.isNone = true then handoverFail n s else s := by
  simp only [doHandoverTimeout, hh]

/-- A HANDBACK_MARK that the twin does not wait for ends the wait on both twins and marks no flit older (log entry 29). -/
theorem doHandbackMark_of_unawaited (ha : (portOf s (twinOf n)).rx.awaitMark = false) :
    doHandbackMark n s = modPort n (fun p => { p with rx := { p.rx with awaitMark := false } })
      (modPort (twinOf n) (fun p => { p with rx := { p.rx with awaitMark := false } }) s) := by
  simp only [doHandbackMark, ha, Bool.false_eq_true, if_false]

/-- A port that holds flits, and waits for no mark, releases them once its twin's buffer has no older flit. -/
theorem doHoldRelease_releases (hh : (portOf s n).rx.hold = true) (ha : (portOf s n).rx.awaitMark = false)
    (ho : (portOf s (twinOf n)).rx.buf.any (·.older) = false) : doHoldRelease n s = modPort n (fun p => { p with rx := { p.rx with
      hold := false, buf := p.rx.buf.map (fun f => { f with onHold := false }) } }) s :=
  if_pos (by simp only [hh, ha, ho]; rfl)

/-! ### The partner's announcements (06 R175, R469) -/

/-- PARKING 1 takes a port in service down, to be retried. -/
theorem doPark_parks (hs : inService (portOf s n) = true) :
    doPark n 1 s = modPort n (fun p => { p with retryArmed := true }) (goDown n 0x0A false s) :=
  if_pos (by simp [hs])

/-- RETRAIN_REQ retrains a port in service. -/
theorem doRetrainReq_retrains (hs : inService (portOf s n) = true) (f : Byte) :
    doRetrainReq n f s = downAndRetrain n 0x08 (f != 1) s :=
  if_pos (by simp [hs])

end

/-- Settles O38: each packet and timer by what the exchange or the port it speaks of waits for.  That HANDOVER_DONE does nothing more is
the model's reading (log entry 77). -/
theorem portsLeaveAndHandOver : Obligations.PortsLeaveAndHandOver := by
  refine ⟨fun s u n d e x h ht h6 hs hh hp => runs_packet ht rfl (exec_handover n d e x s) (doHandover_of_answered h6 hs hh hp e),
    fun s u n d e x ht => runs_packet ht rfl (exec_handover n d e x s) rfl,
    fun s u n d k ht => runs_packet ht rfl (exec_handoverDone n d k s) rfl,
    fun s u n r ht ha => runs_packet ht rfl (exec_handbackMark n r s) (doHandbackMark_of_unawaited ha),
    fun s n h hl hh => ?timeout,
    fun s n hl hh ha ho => runs_of (exec_twinHoldRelease n s) hl (doHoldRelease_releases hh ha ho),
    fun s u n ht hs => runs_packet ht rfl (exec_park n 1 s) (doPark_parks hs),
    fun s u n f ht hs => runs_packet ht rfl (exec_retrainReq n f s) (doRetrainReq_retrains hs f),
    fun s u n k ht => runs_packet ht rfl (exec_fenceNotice n k s) rfl⟩
  case timeout =>
    have run {t : State} : doHandoverTimeout n s = t → Runs (.handoverTimeout n) s t := runs_of (exec_handoverTimeout n s) hl
    have timed := doHandoverTimeout_eq hh
    exact ⟨fun silent => run (timed.trans (if_pos (by simp [silent]))),
      fun answered => run (timed.trans (if_neg (by simpa [Option.isSome_iff_ne_none] using answered)))⟩

end Sys2Proof.Machine

/-! PROOFS. Link initialisation and the admission exchange (06 R176, R182; 16 R434 to R436; log entries 2, 47). -/

namespace Sys2Proof.Machine

section
variable {s : State} {n : Nat}

/-! ### LINK_INIT and the round-trip probes (06 R176) -/

/-- In link initialisation LINK_INIT fences for its PROTOCOL, then for its Broke store, and otherwise starts admission. -/
theorem doLinkInit_eq (hi : inLinkInit (portOf s n) = true) (pr : BitVec 16) (ep : BitVec 32) (pp : Byte) (br : BitVec 16) :
    doLinkInit n pr ep pp br s = if pr ≠ 2 then fencePort n 0x03 true s
      else if 1024 < br.toNat then fencePort n 0x04 true s
      else startAdmission n (modPort n (fun p => { p with initOk := true, peerEndpoint := ep, peerPort := pp }) s) :=
  if_neg (by simp [hi])

/-- The first echo of one of the block's three probes is the smallest round trip measured. -/
theorem doRttEcho_first {t : Word} (hu : linkUp (portOf s n) = true) (ht : t.toNat < 3) (he : (portOf s n).echoes < 3)
    (hb : (portOf s n).rttBest = none) (tf : BitVec 32) (m : BitVec 16) :
    doRttEcho n t tf m s = modPort n (fun p => { p with
      echoes := p.echoes + 1, rttBest := some (m.toNat, tf.toNat)
      rttFclk := BitVec.ofNat 16 (min 65535 (m.toNat - tf.toNat + 64)) }) s := by
  have probe : (!linkUp (portOf s n) || decide (3 ≤ t.toNat) || decide (3 ≤ (portOf s n).echoes)) = false := by
    simpa [hu] using And.intro ht he
  simp only [doRttEcho, probe, hb, Bool.false_eq_true, if_false]

/-! ### ADMIT_ID, ADMIT_NONCE, ADMIT_MAC and ADMIT_RESULT (16 R434, R435) -/

variable {a : Admission} (ha : admOf s n = some a)
include ha

/-- An ADMIT_ID of another machine than the cabled partner's is refused. -/
theorem doAdmitId_of_stranger {mi : BitVec 128} (hm : mi ≠ (tabGet {} s.fur.image.cabling n).peerMachineId) (ep : BitVec 32) (pp : Byte) :
    doAdmitId n mi ep pp s = fencePort n 0x01 true (sendCtrlAt n tyAdmitResult [2, 0x01] false s) := by
  simp only [doAdmitId, ha]
  exact if_pos (.inl hm)

/-- The cabled partner's ADMIT_ID passes; a further one drops what came before it, and unless the exchange is suspended a NONCE is
asked for. -/
theorem doAdmitId_of_partner (hs : a.suspended = false) : doAdmitId n (tabGet {} s.fur.image.cabling n).peerMachineId
    (tabGet {} s.fur.image.cabling n).peerEndpoint (tabGet {} s.fur.image.cabling n).peerPort s =
      askNonce n (modAdm n (fun b =>
        { (if b.idOk then { b with peerNonce := none, mac0 := none, mac1 := none, rcvdOk := false } else b) with idOk := true }) s) := by
  simp [doAdmitId, ha, hs]

/-- A NONCE is kept, and answered at once when ADMIT_ID has been checked and the exchange is not suspended. -/
theorem doAdmitNonce_eq (v : BitVec 192) : doAdmitNonce n v s =
    if (a.idOk && !a.suspended) = true then answerNonce n v (modAdm n (fun b => { b with peerNonce := some v }) s)
    else modAdm n (fun b => { b with peerNonce := some v }) s := by
  simp only [doAdmitNonce, ha]

/-- Before the block has given its own NONCE no MAC is taken. -/
theorem doAdmitMac_of_no_nonce (hn : a.nonce = none) (pt : Bool) (v : BitVec 192) : doAdmitMac n pt v s = s := by
  simp only [doAdmitMac, ha, hn]

/-- The second half of a MAC, with the first there, asks the root of trust for the MAC that is expected. -/
theorem doAdmitMac_asks {w : State} {b : Admission} {v k : BitVec 192} (hn : a.nonce = some k)
    (hw : w = modAdm n (fun x => { x with mac1 := some v }) s) (hb : admOf w n = some b) (h0 : b.mac0.isSome = true)
    (h1 : b.mac1.isSome = true) : doAdmitMac n true v s =
      rotSend rotAdmitMac (admitInput w (tabGet {} w.fur.image.cabling n).peerEndpoint.toNat
        (tabGet {} w.fur.image.cabling n).peerPort.toNat (selfEp w) n k) (.macExpect (portNo n)) w := by
  subst hw
  simp only [doAdmitMac, ha, hn, if_true, hb, h0, h1, Bool.and_self]

/-- ADMIT_RESULT 1 lets the exchange end, and any other refuses the block. -/
theorem doAdmitResult_eq (r k : Byte) : doAdmitResult n r k s =
    if r = 1 then tryAdmit n (modAdm n (fun b => { b with rcvdOk := true }) s) else fencePort n k true s := by
  simp only [doAdmitResult, ha]

/-! ### The timers (16 R436) -/

/-- An exchange that is not suspended, and in which anything is missing, ends at its timeout. -/
theorem doAdmissionTimeout_of_missing (hs : a.suspended = false)
    (h : a.idOk = false ∨ a.peerNonce = none ∨ a.mac0 = none ∨ a.mac1 = none ∨ a.rcvdOk = false) :
    doAdmissionTimeout n s = fencePort n 0x02 true s := by
  simp only [doAdmissionTimeout, ha]
  exact if_neg (by rcases h with h | h | h | h | h <;> simp [hs, h])

/-- A suspended exchange has no timeout. -/
theorem doAdmissionTimeout_of_suspended (hs : a.suspended = true) : doAdmissionTimeout n s = s := by
  simp only [doAdmissionTimeout, ha]
  exact if_pos (by simp [hs])

/-- Only a suspended exchange restarts. -/
theorem doAdmissionRestart_of_running (hs : a.suspended = false) : doAdmissionRestart n s = s := by
  simp only [doAdmissionRestart, ha]
  exact if_pos (by simp [hs])

/-- A suspended exchange before ADMIT_ID restarts by sending its own. -/
theorem doAdmissionRestart_before_id (hs : a.suspended = true) (hi : a.idOk = false) :
    doAdmissionRestart n s = sendAdmitId n (modAdm n (fun b => { b with suspended := false }) s) := by
  simp [doAdmissionRestart, ha, hs, hi]

end

/-- Settles O39: a packet of link initialisation by what it carries, one of the exchange by what has come before it.  The turn-around in
an echo is a free value (log entry 2); that a good LINK_INIT starts admission without waiting for the echoes, and that any
ADMIT_RESULT but 1 refuses, is the model's reading (log entry 47). -/
theorem linkInitialisationAndAdmission : Obligations.LinkInitialisationAndAdmission := by
  refine ⟨fun s u n pr ve ep pp wi br rx h hi => ?init, fun s u n t h => runs_packet h rfl (exec_rttProbe n t s) rfl,
    fun s u n t tf m h hu ht he hb => runs_packet h rfl (exec_rttEcho n t tf m s) (doRttEcho_first hu ht he hb tf m),
    fun s u n a mi ep pp h ha => ?id, fun s u n a v h ha => ?nonce,
    fun s u n a pt v h ha hn => runs_packet h rfl (exec_admitMac n pt v s) (doAdmitMac_of_no_nonce ha hn pt v),
    fun s u w n a b v k h ha hn hw hb h0 h1 => runs_packet h rfl (exec_admitMac n true v s) (doAdmitMac_asks ha hn hw hb h0 h1),
    fun s u n a r k h ha => ?result, fun s n a hl ha hs => ?running, fun s n a hl ha hs => ?suspended⟩
  case init =>
    have run {t : State} : doLinkInit n pr ep pp br u = t → Runs (.linkInit n pr ve ep pp wi br rx) s t :=
      runs_packet h rfl (exec_linkInit n pr ve ep pp wi br rx s)
    have judged := doLinkInit_eq hi pr ep pp br
    exact ⟨fun other => run (judged.trans (if_pos other)),
      fun two large => run ((judged.trans (if_neg (not_not_intro two))).trans (if_pos large)),
      fun two fits => run ((judged.trans (if_neg (not_not_intro two))).trans (if_neg (Nat.not_lt.mpr fits)))⟩
  case id =>
    have run {t : State} : doAdmitId n mi ep pp u = t → Runs (.admitId n mi ep pp) s t := runs_packet h rfl (exec_admitId n mi ep pp s)
    refine ⟨fun stranger => run (doAdmitId_of_stranger ha stranger ep pp), fun hm he hp _ hs => run ?_⟩
    rw [hm, he, hp]
    exact doAdmitId_of_partner ha hs
  case nonce =>
    have run {t : State} : doAdmitNonce n v u = t → Runs (.admitNonce n v) s t := runs_packet h rfl (exec_admitNonce n v s)
    have kept := doAdmitNonce_eq ha v
    exact ⟨fun checked hs => run (kept.trans (if_pos (by simp [checked, hs]))),
      fun unchecked => run (kept.trans (if_neg (by simp [unchecked])))⟩
  case result =>
    have run {t : State} : doAdmitResult n r k u = t → Runs (.admitResult n r k) s t := runs_packet h rfl (exec_admitResult n r k s)
    have judged := doAdmitResult_eq ha r k
    exact ⟨fun accepted => run (judged.trans (if_pos accepted)), fun refused => run (judged.trans (if_neg refused))⟩
  case running =>
    exact ⟨fun missing => runs_of (exec_admissionTimeout n s) hl (doAdmissionTimeout_of_missing ha hs missing),
      runs_of (exec_admissionRestartTimer n s) hl (doAdmissionRestart_of_running ha hs)⟩
  case suspended =>
    exact ⟨runs_of (exec_admissionTimeout n s) hl (doAdmissionTimeout_of_suspended ha hs),
      fun early => runs_of (exec_admissionRestartTimer n s) hl (doAdmissionRestart_before_id ha hs early)⟩

end Sys2Proof.Machine

/-! PROOFS. Received flits: which are refused, which are duplicates, and which are accepted (06 R152 to R154, R159, R162, R165, R169, R172;
log entry 31). -/

namespace Sys2Proof.Machine

/-! ### A flit arrives (06 R152 to R154) -/

section
variable {s w : State} {n : Nat} {bs : List Byte} {b : Bool} (hw : w = takeArrived n bs b s)
include hw

/-- Without a link a flit is only taken from where it waits. -/
theorem recvFlit_of_no_link (hu : linkUp (portOf s n) = false) : recvFlit n bs b s = w := by
  subst hw
  exact if_pos (by simp [hu])

variable (hu : linkUp (portOf s n) = true)
include hu

/-- A flit of an uncorrectable frame, or with a bad CRC, is refused in service. -/
theorem recvFlit_of_bad (h : b = true ∨ flitCrcOk bs = false) :
    recvFlit n bs b s = if inService (portOf s n) = true then refuseFlit n 1 w else w := by
  subst hw
  have bad : (!(!b && flitCrcOk bs)) = true := by rcases h with h | h <;> simp [h]
  simp only [recvFlit, hu, bad, onlyIf, Bool.not_true, Bool.false_eq_true, if_false, if_true]

variable (hb : b = false) (hc : flitCrcOk bs = true) (hv : (parseHdr bs).rsv = 0)
include hb hc hv

/-- A good data flit is taken in service only. -/
theorem recvFlit_of_data (hk : (parseHdr bs).kind = 1) :
    recvFlit n bs b s = if inService (portOf s n) = true then takeData n (parseHdr bs) (bytesAt bs 8 240) w else w := by
  subst hw
  simp [recvFlit, hu, hb, hc, hv, hk]

/-- The header of a good control flit is taken, and its packets where no count of the header was impossible. -/
theorem recvFlit_of_control (hk : (parseHdr bs).kind = 2) :
    recvFlit n bs b s = if (portOf (takeHeader n (parseHdr bs) w) n).lossDue.isSome = true then takeHeader n (parseHdr bs) w
      else takePackets n (parseHdr bs).vcb (bytesAt bs 8 240) (takeHeader n (parseHdr bs) w) := by
  subst hw
  simp [recvFlit, hu, hb, hc, hv, hk]

end

/-! ### A good data flit in service (06 R162, R165, R169, R172) -/

/-- A receiver that waits for REPLAY_START refuses nothing more. -/
theorem refuseFlit_of_waiting {s : State} {n : Nat} (hw : (portOf s n).rx.waiting = true) (r : Byte) : refuseFlit n r s = s := if_pos hw

section
variable {s u : State} {n : Nat} {h : FlitHdr} (hw : (portOf s n).rx.waiting = false) (hu : u = takeHeader n h s)
  (hl : (portOf u n).lossDue = none)
include hw hu hl

/-- A flit below EXPECTED is a duplicate: counted, and an acknowledgement is owed. -/
theorem takeData_of_duplicate (hd : belowInWindow (portOf u n).rx.cur (portOf u n).rx.expected = true) (d : List Byte) :
    takeData n h d s = modPort n (fun p => { p with
      dupDiscarded := satInc p.dupDiscarded, rx := { p.rx with cur := p.rx.cur + 1, ackOwed := true } }) u := by
  subst hu
  simp [takeData, hw, hl, hd]

variable (hd : belowInWindow (portOf u n).rx.cur (portOf u n).rx.expected = false)
include hd

/-- A flit in order is refused when its VC buffer's reserve and the shared area are full, and accepted otherwise. -/
theorem takeData_in_order (d : List Byte) :
    takeData n h d s = if 32 ≤ vcbUsed (portOf u n).rx (h.vcb % 8) ∧ 1792 ≤ sharedUsed (portOf u n).rx then
        pauseViolAt n (refuseFlit n 2 u)
      else acceptFlit n ⟨h.vcb % 8, Nat.mod_lt _ (by decide)⟩ d u := by
  subst hu
  simp only [takeData, hw, hl, hd, Option.isSome_none, Bool.false_eq_true, if_false]

end

/-- Settles O40: a flit by its CRC and KIND, a data flit by its count and by the room that is left.  That FLIT_RECEIVED takes a flit the
lanes have given, or any other its operand gives, is the model's choice (log entry 31). -/
theorem flitsAreTakenInOrder : Obligations.FlitsAreTakenInOrder := by
  refine ⟨fun s w n bs b hl hw => ?arrives, fun s n r hw => refuseFlit_of_waiting hw r,
    fun s u n h d hw hu hl => ⟨fun hd => takeData_of_duplicate hw hu hl hd d, fun hd hv ha => ?full, fun hd room => ?accepted⟩⟩
  case arrives =>
    have run {t : State} : recvFlit n bs b s = t → Runs (.flitReceived n bs b) s t := runs_of (exec_flitReceived n bs b s) hl
    refine ⟨fun hu => run (recvFlit_of_no_link hw hu), fun hu bad => ?_, fun hu hb hc hv => ⟨fun hk hs => ?_, fun hk hs => ?_, fun hk hn => ?_⟩⟩
    · have refused := recvFlit_of_bad hw hu bad
      exact ⟨fun hs => run (refused.trans (if_pos hs)), fun hs => run (refused.trans (if_neg (Bool.eq_false_iff.mp hs)))⟩
    · exact run ((recvFlit_of_data hw hu hb hc hv hk).trans (if_pos hs))
    · exact run ((recvFlit_of_data hw hu hb hc hv hk).trans (if_neg (Bool.eq_false_iff.mp hs)))
    · exact run ((recvFlit_of_control hw hu hb hc hv hk).trans (if_neg (by simp [hn])))
  case full => exact (takeData_in_order hw hu hl hd d).trans (if_pos ⟨hv, ha⟩)
  case accepted => exact (takeData_in_order hw hu hl hd d).trans (if_neg (by omega))

end Sys2Proof.Machine

/-! PROOFS. What a port sends next, and what it keeps of a new flit (06 R156, R161, R163, R171, R178; 14 R388; log entry 59). -/

namespace Sys2Proof.Machine

/-- A port after its own update. -/
@[simp] theorem portOf_modPort_self (s : State) (n : Nat) (f : Port → Port) : portOf (modPort n f s) n = f (portOf s n) :=
  tabGet_tabSet_self ..

/-! ### The order of sending (06 R156, R163, R178; 14 R388) -/

section
variable {s : State} {n : Nat}

/-- A port that may not send sends nothing. -/
theorem sendFlit_of_not (hm : maySend (portOf s n) = false) : sendFlit n s = s := if_pos (by simp [hm])

variable (hm : maySend (portOf s n) = true)
include hm

/-- Ready control packets go first, and a port out of service sends nothing else. -/
theorem sendFlit_of_control (h : ctrlReady (portOf s n).ctl = true ∨ inService (portOf s n) = false) : sendFlit n s = sendControl n s := by
  refine (if_neg (by simp [hm])).trans ?_
  rcases h with h | h <;> simp [h]

variable (hc : ctrlReady (portOf s n).ctl = false) (hs : inService (portOf s n) = true)
include hc hs

/-- No data flit goes before a REPLAY_START that is still held. -/
theorem sendFlit_of_held_replayStart (hr : ctrlStalled tyReplayStart (portOf s n).ctl = true) : sendFlit n s = sendControl n s := by
  simp [sendFlit, hm, hc, hs, hr]

variable (hr : ctrlStalled tyReplayStart (portOf s n).ctl = false)
include hr

/-- A replay under way goes before every new flit. -/
theorem sendFlit_of_replay (hx : (portOf s n).tx.resend ≠ (portOf s n).tx.nextTx) : sendFlit n s = sendReplay n s := by
  simp [sendFlit, hm, hc, hs, hr, hx]

variable (hx : (portOf s n).tx.resend = (portOf s n).tx.nextTx)
include hx

/-- A full Broke store stalls new flits. -/
theorem sendFlit_of_full_store (hb : 1024 ≤ (portOf s n).tx.broke.length) : sendFlit n s = sendControl n s := by
  simp [sendFlit, hm, hc, hs, hr, hx, hb]

/-- With nothing taken over, no hand-back under way and no buffer for the arbiter to pick, a null flit goes. -/
theorem sendFlit_of_none_picked (ht : (portOf s n).tx.takeover = []) (hk : (portOf s n).handback = false)
    (hp : pickVcb s (portOf s n) = none) : sendFlit n s = sendControl n s := by
  simp [sendFlit, hm, hc, hs, hr, hx, ht, hk, hp]

variable (hb : (portOf s n).tx.broke.length < 1024)
include hb

/-- A flit taken over goes before new ones, once its buffer is open and the HANDOVER before it has a place. -/
theorem sendFlit_of_takeover {f : Flit} {fs : List Flit} (ht : (portOf s n).tx.takeover = f :: fs) (hv : vcbOpen (portOf s n) f.vcb = true)
    (hh : ctrlStalled tyHandover (portOf s n).ctl = false) : sendFlit n s = sendTakeover n s := by
  simp [sendFlit, hm, hc, hs, hr, hx, Nat.not_le.mpr hb, ht, hv, hh]

/-- With nothing taken over and no hand-back under way, the buffer that the arbiter picks sends a new flit. -/
theorem sendFlit_of_picked {v : Nat} (ht : (portOf s n).tx.takeover = []) (hk : (portOf s n).handback = false)
    (hp : pickVcb s (portOf s n) = some v) : sendFlit n s = sendNew n v s := by
  simp [sendFlit, hm, hc, hs, hr, hx, Nat.not_le.mpr hb, ht, hk, hp]

end

/-! ### What is kept and what is paused (06 R161, R171) -/

/-- A buffer that may send a new flit is not paused, and holds fewer than 16 unacknowledged flits while any other is. -/
theorem vcbOpen_iff (p : Port) (v : Nat) :
    vcbOpen p v = true ↔ p.rx.xoffRcvd.getLsbD v = false ∧ (p.rx.xoffRcvd = 0 ∨ unacked p.tx v < 16) := by
  simp [vcbOpen]

/-- Settles O41: the order of sending by what stands before each kind of flit, and what a new flit leaves in the Broke store.  That ready
control packets go before replays is the model's order (log entry 59). -/
theorem flitsAreSentByPriority : Obligations.FlitsAreSentByPriority := by
  refine ⟨fun s n hl => ?order, fun s n f => ?kept, fun p v => (vcbOpen_iff p v).mp⟩
  case order =>
    have run {t : State} : sendFlit n s = t → Runs (.flitTransmit n) s t := runs_of (exec_flitTransmit n s) hl
    refine ⟨fun hm => run (sendFlit_of_not hm), fun hm h => run (sendFlit_of_control hm h), fun hm hc hs =>
      ⟨fun hr => run (sendFlit_of_held_replayStart hm hc hs hr), fun hr hx => run (sendFlit_of_replay hm hc hs hr hx),
      fun hr hx hb => run (sendFlit_of_full_store hm hc hs hr hx hb),
      fun f fs hr hx hb ht hv hh => run (sendFlit_of_takeover hm hc hs hr hx hb ht hv hh), fun hr hx hb ht hk =>
      ⟨fun v hp => run (sendFlit_of_picked hm hc hs hr hx hb ht hk hp), fun hp => run (sendFlit_of_none_picked hm hc hs hr hx ht hk hp)⟩⟩⟩
  case kept =>
    rw [portOf_modPort_self]
    exact ⟨rfl, rfl⟩

end Sys2Proof.Machine

end

section

/- As above, one proof after another: proofs that wait for the kernel together pass the memory that the check allows. -/
set_option Elab.async false

/-! PROOFS. Endpoint numbers, and the rank table's writes and commit (07 R185, R188, R191). -/

namespace Sys2Proof.Machine

/-! ### Endpoint numbers (07 R185) -/

/-- The X coordinate of a number. -/
theorem coordOf_x (e : Nat) : coordOf e 0 = e % 64 := rfl

/-- The Y coordinate of a number. -/
theorem coordOf_y (e : Nat) : coordOf e 1 = e / 64 % 64 := rfl

/-- The Z coordinate of a number. -/
theorem coordOf_z (e : Nat) : coordOf e 2 = e / 4096 % 32 := rfl

/-- The coordinates of a number are its bits [5:0], [11:6] and [16:12]. -/
theorem bitsOf_eq_coordOf (e : Nat) : bitsOf e 0 6 = coordOf e 0 ∧ bitsOf e 6 6 = coordOf e 1 ∧ bitsOf e 12 5 = coordOf e 2 :=
  ⟨congrArg (· % 64) (Nat.div_one e), rfl, rfl⟩

/-- The number that packs three coordinates has these coordinates. -/
theorem coordOf_packed {x y z : Nat} (hx : x < 64) (hy : y < 64) (hz : z < 32) : coordOf (x + 64 * y + 4096 * z) 0 = x ∧
    coordOf (x + 64 * y + 4096 * z) 1 = y ∧ coordOf (x + 64 * y + 4096 * z) 2 = z := by
  rw [coordOf_x, coordOf_y, coordOf_z]
  omega

/-- A number of 17 bits packs its own coordinates. -/
theorem packed_coordOf {e : Nat} (h : e < 2 ^ 17) : e = coordOf e 0 + 64 * coordOf e 1 + 4096 * coordOf e 2 := by
  rw [coordOf_x, coordOf_y, coordOf_z]
  omega

/-- Settles O60: packing and unpacking are inverse, and a block's own coordinates are read from its endpoint number alone. -/
theorem endpointNumbersPackCoordinates : Obligations.EndpointNumbersPackCoordinates := by
  refine ⟨fun x y z hx hy hz => ?packed, fun e he => packed_coordOf he, fun s t d h => congrArg (coordOf · d) h⟩
  case packed =>
    obtain ⟨bitsX, bitsY, bitsZ⟩ := bitsOf_eq_coordOf (x + 64 * y + 4096 * z)
    obtain ⟨atX, atY, atZ⟩ := coordOf_packed hx hy hz
    exact ⟨atX, atY, atZ, bitsX.trans atX, bitsY.trans atY, bitsZ.trans atZ⟩

/-! ### The rank table (07 R188, R191) -/

/-- A rank's entry after its own write. -/
theorem tabGet_writeRank_self (r : Nat) (e : BitVec 32) (s : State) : tabGet 0 (writeRank r e s).route.ranks r = e :=
  tabGet_tabSet_self ..

/-- While no digest is computed, two entries are written together when neither of those that the write touches is refused. -/
theorem wrRank_of_taken {w par : Nat} {v : Word} {be : BitVec 8} {lo hi : BitVec 32} {s t : State} (hb : s.route.digestBusy = false)
    (hlo : lo = BitVec.ofNat 32 (fld (mergeBytes (rdRank s w) v be) 0 32))
    (hhi : hi = BitVec.ofNat 32 (fld (mergeBytes (rdRank s w) v be) 32 32))
    (ht : t = writeRank (2 * w + 1) hi (writeRank (2 * w) lo s))
    (h0 : fieldTouched be 0 32 = true → rankRefused t (2 * w) lo = false)
    (h1 : fieldTouched be 32 32 = true → rankRefused t (2 * w + 1) hi = false) : wrRank w par v be s = some t := by
  subst hlo hhi ht
  refine (if_neg (Bool.eq_false_iff.mp hb)).trans (if_neg ?_)
  simp only [Bool.or_eq_true, Bool.and_eq_true, not_or, not_and, Bool.not_eq_true]
  exact ⟨h0, h1⟩

/-- A commit closes the batch while no digest is computed. -/
theorem wrRankCommit_of_free {par : Nat} {v : Word} {be : BitVec 8} {s : State} (hd : s.route.digestBusy = false)
    (hb : be.getLsbD 0 = true) (hv : bitOf v.toNat 0 = true) : wrRankCommit par v be s = some (commitRanks s) := by
  simp only [wrRankCommit, hd, hb, hv, Bool.and_self, Bool.false_eq_true, if_false, if_true]

/-- A commit is refused while one is. -/
theorem wrRankCommit_of_busy {s : State} (hd : s.route.digestBusy = true) (par : Nat) (v : Word) (be : BitVec 8) :
    wrRankCommit par v be s = none := if_pos hd

/-- Settles O26: both commands are writes of privileged registers, refused while DIGEST_BUSY is set, and the entries also by R188. -/
theorem rankTableWritesAndCommit : Obligations.RankTableWritesAndCommit := by
  refine ⟨fun s t w a h hb ht h0 h1 => ?entries, fun s a h hb he hv => ?commit, fun s a h hb => ?busy,
    fun s r e => tabGet_writeRank_self r e s⟩
  case entries =>
    exact runs_hostWrite (exec_rteRank w a s) h (readReg_rank w s) (by simp [offWinData]; omega) (wrAt_rank w)
      (wrRank_of_taken hb rfl rfl ht h0 h1)
  case commit =>
    exact runs_hostWrite (exec_rteRankCommit a s) h (readReg_rankCommit s) (by decide) wrAt_rankCommit (wrRankCommit_of_free hb he hv)
  case busy =>
    have no : wrAt 0x200040 a.par.toNat a.value a.be s = none := by
      rw [wrAt_rankCommit]
      exact privOnly_none (wrRankCommit_of_busy hb ..)
    exact runs_of (exec_rteRankCommit a s) h.ready.1
      (cmdWrite_refused (hostWrite_mayWrite h) (readReg_rankCommit s) (by decide) no)

end Sys2Proof.Machine

/-! PROOFS. Rank digests, route notices and the restore of a link (07 R191, R192, R196, R199). -/

namespace Sys2Proof.Machine

/-! ### Digests (07 R191, R192) -/

/-- The first half of a partner's digest is kept. -/
theorem takeDigest_first (n : Nat) (h : BitVec 192) (s : State) :
    takeDigest n false h s = modPort n (fun p => { p with digest0 := some h }) s := rfl

/-- A second half that completes the block's own digest leaves only the first half gone. -/
theorem takeDigest_of_match {n : Nat} {g h : BitVec 192} {s : State} (hg : (portOf s n).digest0 = some g)
    (hd : leBytes 24 g.toNat ++ leBytes 24 h.toNat = padTo 48 s.route.digest) :
    takeDigest n true h s = modPort n (fun p => { p with digest0 := none }) s := by
  simp only [takeDigest, hg, Bool.not_true, Bool.false_eq_true, if_false]
  exact if_pos hd

/-- The end of the computation matters only while the digest is computed. -/
theorem doDigestComputed_of_idle {s : State} (hd : s.route.digestBusy = false) : doDigestComputed s = s := if_pos (by simp [hd])

/-- The computed digest is recorded and sent on every port in service, which recording it does not change. -/
theorem doDigestComputed_of_busy {s : State} (hd : s.route.digestBusy = true) : doDigestComputed s =
    (servicePorts s).foldl (fun t n => sendDigest n t)
      { s with route := { s.route with digestBusy := false, digest := sha384 (rankBytes s) } } := if_neg (by simp [hd])

/-! ### Route notices (07 R199) -/

section
variable {s : State} {n d l : Nat} {q : BitVec 16}

/-- A notice for another dimension, or of a link outside the machine, is ignored. -/
theorem takeNotice_of_outside (h : 3 ≤ d ∨ dimSize s d ≤ l ∨ n / 4 ≠ d) (x : Nat) (o : BitVec 32) : takeNotice n d l x o q s = s :=
  if_pos h

variable {x e : Nat} {o : BitVec 32} (hd : d < 3) (hl : l < dimSize s d) (hn : n / 4 = d)
  (he : e = if coordOf (o.toNat % 2 ^ 17) d = l then 0 else 1)
include hd hl hn he

/-- A notice no newer than the report of its end is ignored. -/
theorem takeNotice_of_older (hk : (reportOf s d l e).known = true) (hq : seqNewer q (reportOf s d l e).seq = false) :
    takeNotice n d l x o q s = s := by
  subst he
  exact (if_neg (by omega)).trans (if_pos (by rw [hk, hq]; rfl))

/-- A newer notice that leaves its end's state as it is becomes the report of that end. -/
theorem takeNotice_of_unchanged {w : EndReport} (hw : w = { known := true, broken := x % 2 == 1, origin := o, seq := q })
    (hq : (reportOf s d l e).known = false ∨ seqNewer q (reportOf s d l e).seq = true)
    (hb : (reportOf s d l e).broken = (x % 2 == 1)) : takeNotice n d l x o q s =
      countRoute (fun r => { r with reports := tabSet {} (reportKey d l e) w r.reports }) s := by
  subst he hw
  exact (if_neg (by omega)).trans ((if_neg (by rcases hq with hq | hq <;> rw [hq] <;> simp)).trans (if_pos hb))

end

/-! ### Restored links (07 R196) -/

/-- Without a hold nothing is restored. -/
theorem doRestoreHold_of_free {s : State} {d : Nat} (h : s.route.restoreHold &&& holdBit d = 0) : doRestoreHold d s = s := if_pos h

/-- The end of a hold clears it and restores the block's own end of the link. -/
theorem doRestoreHold_of_held {s : State} {d : Nat} (h : s.route.restoreHold &&& holdBit d ≠ 0) : doRestoreHold d s =
    setOwnLink d false { s with route := { s.route with restoreHold := s.route.restoreHold &&& ~~~(holdBit d) } } := if_neg h

/-- Settles O42: a packet by what the port or the break map holds already, a timer by what is under way. -/
theorem routesAndDigests : Obligations.RoutesAndDigests := by
  refine ⟨fun s u n h ht => ?first, fun s u n g h ht hg hd => ?second, fun s u n d l x o q ht out => ?outside,
    fun s u n d l x o q e ht hd hl hn he => ?inside, fun s d hl => ⟨fun free => ?free, fun held => ?held⟩,
    fun s hl idle => ?idle, fun s hl busy => ?computed⟩
  case first => exact runs_packet ht rfl (exec_rankDigest n false h s) (takeDigest_first n h u)
  case second => exact runs_packet ht rfl (exec_rankDigest n true h s) (takeDigest_of_match hg hd)
  case outside => exact runs_packet ht rfl (exec_routeBreak n d l x o q s) (takeNotice_of_outside out ..)
  case inside =>
    have run {v : State} : takeNotice n d.toNat l.toNat x.toNat o q u = v → Runs (.routeBreak n d l x o q) s v :=
      runs_packet ht rfl (exec_routeBreak n d l x o q s)
    exact ⟨fun known older => run (takeNotice_of_older hd hl hn he known older),
      fun newer same w hw => run (takeNotice_of_unchanged hd hl hn he hw newer same)⟩
  case free => exact runs_of (exec_routeRestoreHoldExpiry d s) hl (doRestoreHold_of_free free)
  case held => exact runs_of (exec_routeRestoreHoldExpiry d s) hl (doRestoreHold_of_held held)
  case idle => exact runs_of (exec_digestComputed s) hl (doDigestComputed_of_idle idle)
  case computed => exact runs_of (exec_digestComputed s) hl (doDigestComputed_of_busy busy)

end Sys2Proof.Machine

/-! PROOFS. Messages that arrive, and those in transit (07 R184, R190, R197, R198, R200, R203, R205; log entries 69, 119). -/

namespace Sys2Proof.Machine

/-! ### A message here (07 R184, R190, R205) -/

section
variable {c : Instr} {s u : State} {a : Arrival} {m : Msg} {t : Taker} (hl : live s = true) (hc : messageOf c = some (a, m, t))
  (ht : t ≠ .atomic)
include hl hc ht

/-- A command leaves alone a message that is not its own, addressed elsewhere or not waiting. -/
theorem runs_message_left (h : ownMessage t m.opcode = false ∨ dstEp m ≠ selfEp s ∨ takeArrival a m s = none) : Runs c s s := by
  obtain ⟨f, hf⟩ := exec_message hc ht s
  refine runs_onlyIf hf hl ?_
  rcases h with other | off
  · exact if_neg (Bool.eq_false_iff.mp other)
  · rw [onArrival_off a m f s off, ite_self]

/-- A command discards its own message from a port where the checks of R205 fail. -/
theorem runs_message_discarded {n : PortNo} {v : Fin 8} (ha : a = .port n v) (ho : ownMessage t m.opcode = true) (hd : dstEp m = selfEp s)
    (hu : takeArrival a m s = some u) (hb : arrivalOk u n v m = false) : Runs c s (discardArrival n u) := by
  subst ha
  obtain ⟨f, hf⟩ := exec_message hc ht s
  exact runs_onlyIf hf hl ((if_pos ho).trans (onArrival_bad n v m f s u hd hu hb))

end

/-! ### A message in transit (07 R197, R203, R205) -/

/-- A word without a flipped bit is read as it is. -/
theorem readRam_of_no_flips {s : State} (h : s.err.flips = []) (w : RamWord) (e : Evt) : readRam w e s = (false, s) := by
  simp only [readRam, h, List.find?_nil]

section
variable {n : PortNo} {v : Fin 8} {m : Msg} {s u : State}

/-- A message for this endpoint, or one that does not wait at the port, is no transit. -/
theorem doTransit_stays (h : dstEp m = selfEp s ∨ takeMsg n v m s = none) : doTransit n v m s = s := by
  by_cases here : dstEp m = selfEp s
  · exact if_pos here
  · simp only [doTransit, if_neg here, h.resolve_left here]

/-- A message in transit that is taken goes on when it passes the checks of R205, and is discarded otherwise. -/
theorem doTransit_of_taken (hd : dstEp m ≠ selfEp s) (hu : takeMsg n v m s = some u) :
    doTransit n v m s = if arrivalOk u n v m = true then forwardMsg n v m u else discardArrival n u := by
  simp only [doTransit, if_neg hd, hu]

end

section
variable {n v : Nat} {m : Msg} {s x : State}

/-- A message whose buffer word cannot be corrected is lost. -/
theorem forwardMsg_of_lost (hx : readRam (.transit n) { cls := 0, sev := 2, port := n, unitKind := 3 } s = (true, x)) :
    forwardMsg n v m s = x := by
  simp only [forwardMsg, hx, if_true]

variable (hx : readRam (.transit n) { cls := 0, sev := 2, port := n, unitKind := 3 } s = (false, x))
include hx

/-- Without a route it cannot be forwarded. -/
theorem forwardMsg_of_stuck (hh : transitHop x n v m = .stuck) : forwardMsg n v m s = cannotForward m x := by
  simp only [forwardMsg, hx, hh, Bool.false_eq_true, if_false]

/-- On its route it is counted and queued, with the flags of its next hop, as a message of the port that it came by. -/
theorem forwardMsg_of_hop {p w : Nat} {f : Byte} {b : Bool} (hh : transitHop x n v m = .out p w f b) : forwardMsg n v m s =
    enqueue p w (.port ⟨n % 12, Nat.mod_lt _ (by decide)⟩) [{ m with flags := f }]
      (countRoute (fun r => { r with
        transitMsgs := satInc r.transitMsgs
        turned := if b = true then satInc r.turned else r.turned }) x) := by
  simp only [forwardMsg, hx, hh, Bool.false_eq_true, if_false]

end

/-! ### A message without a route (07 R198) -/

/-- A response or a collective message without a route is dropped and counted. -/
theorem cannotForward_of_response {m : Msg} (hv : vcOf m.opcode ≠ 0) (hc : m.opcode ≠ opCont) (s : State) :
    cannotForward m s = countRoute (fun r => { r with unreachDrops := satInc r.unreachDrops }) s := by
  simp only [cannotForward, hv, hc, and_false, if_false]

/-- A request of this endpoint that comes back without a route completes here. -/
theorem cannotForward_of_own {m : Msg} {s : State} (hv : vcOf m.opcode = 0) (hs : srcEp m = selfEp s) : cannotForward m s = noRoute m s :=
  if_pos ⟨hs, hv⟩

/-- Settles O48: a message here by its command, its address and the checks, one in transit by its buffer word and its next hop.  That a
management message has no effect is the model's reading (log entry 69), and the flipped word of the port's buffer its choice (log
entry 119). -/
theorem arrivingMessagesAreChecked : Obligations.ArrivingMessagesAreChecked := by
  refine ⟨fun c s a m t hl hc ht h => runs_message_left hl hc ht h,
    fun c s u n v m t hl hc ht ho hd hu hb => runs_message_discarded hl hc ht rfl ho hd hu hb,
    fun s u a m h => runs_arrival h rfl (exec_managementMessage a m s) rfl,
    fun s n v m hl h => runs_of (exec_transitForward n v m s) hl (doTransit_stays h), fun s u n v m hl hd hu => ?transit,
    fun s m => ⟨fun hv hc => cannotForward_of_response hv hc s, cannotForward_of_own⟩, fun s w e h => readRam_of_no_flips h w e⟩
  case transit =>
    have run {t : State} : doTransit n v m s = t → Runs (.transitForward n v m) s t := runs_of (exec_transitForward n v m s) hl
    have taken := doTransit_of_taken hd hu
    exact ⟨fun bad => run (taken.trans (if_neg (Bool.eq_false_iff.mp bad))),
      fun x ok lost => run ((taken.trans (if_pos ok)).trans (forwardMsg_of_lost lost)),
      fun x ok read stuck => run ((taken.trans (if_pos ok)).trans (forwardMsg_of_stuck read stuck)),
      fun x p w f b ok read hop => run ((taken.trans (if_pos ok)).trans (forwardMsg_of_hop read hop))⟩

end Sys2Proof.Machine

end

section

/- As above, one proof after another: proofs that wait for the kernel together pass the memory that the check allows. -/
set_option Elab.async false

/-! PROOFS. READ, WRITE, FILL and CONT at the target: the checks, admission, and the runs (08 R208, R209, R211, R212; log entry 23). -/

namespace Sys2Proof.Machine

/-! ### Requests (08 R211, R212) -/

/-- A READ, WRITE or FILL that arrives is checked before anything else. -/
theorem runs_request {c : Instr} {s u : State} {a : Arrival} {m : Msg} (h : Arrives c a m s u)
    (hc : c = .read a m ∨ c = .write a m ∨ c = .fillMessage a m) : ∃ f, Runs c s (checked m f u) := by
  rcases hc with rfl | rfl | rfl
  · exact ⟨_, runs_arrival h rfl (exec_read a m s) rfl⟩
  · exact ⟨_, runs_arrival h rfl (exec_write a m s) rfl⟩
  · exact ⟨_, runs_arrival h rfl (exec_fillMessage a m s) rfl⟩

section
variable {m : Msg} {u x : State} {w : Nat} (hf : formOk m = true) (ha : admits u = true) (hw : checkWindow u m = some w)
  (hr : runOfKey u m.source m.tag = none)
  (hx : x = admitOp m .write w (spanParts u (winPa (winOf u w) m.addr.toNat) (min m.length.toNat 192) 0
    (m.data.take (min m.length.toNat 192))) (decide (m.length.toNat ≤ 192)) u)
include hf ha hw hr hx

/-- A WRITE of at most 192 bytes is whole with its opener. -/
theorem takeWrite_of_short (hn : m.length.toNat ≤ 192) : takeWrite m u = pumpTargets x := by
  subst hx
  rw [takeWrite, checked_ok m _ u w hf ha hw]
  simp only [hr, if_pos hn]

/-- A longer one opens a run that has its first 192 bytes. -/
theorem takeWrite_of_long (hn : 192 < m.length.toNat) : takeWrite m u = pumpTargets (countTrk (fun t => { t with
    openRuns := t.openRuns ++ [{ source := m.source, tag := m.tag, pa := winPa (winOf u w) m.addr.toNat
                                 length := m.length.toNat, got := 192, next := 1, window := w, op := u.trk.nextId }] }) x) := by
  subst hx
  rw [takeWrite, checked_ok m _ u w hf ha hw]
  simp only [hr, if_neg (Nat.not_le.mpr hn), Nat.min_eq_right (Nat.le_of_lt hn)]

end

/-! ### Continuations (08 R209, R211) -/

/-- A continuation without a run is a stray one. -/
theorem takeCont_of_no_run {m : Msg} {u : State} (hr : runOfKey u m.source m.tag = none) : takeCont m u = strayCont m u := by
  simp only [takeCont, hr]

section
variable {m : Msg} {u x : State} {r : OpenRun} (hr : runOfKey u m.source m.tag = some r)
include hr

/-- One whose run's word cannot be corrected closes the run. -/
theorem takeCont_of_lost
    (hx : readRam (.openRun m.source m.tag) { cls := 0, sev := 2, unitKind := 5, addr := srcEp m } u = (true, x)) :
    takeCont m u = strayCont m (closeRun r x) := by
  simp only [takeCont, hr, hx, if_true]

variable (hx : readRam (.openRun m.source m.tag) { cls := 0, sev := 2, unitKind := 5, addr := srcEp m } u = (false, x))
include hx

/-- One out of its turn is a stray one. -/
theorem takeCont_of_other_number (hn : m.aux.toNat ≠ r.next) : takeCont m u = strayCont m x := by
  simp only [takeCont, hr, hx, Bool.false_eq_true, if_false]
  exact if_pos (.inl hn)

variable (hn : m.aux.toNat = r.next)
include hn

/-- The last bytes complete the run's request and end the run. -/
theorem takeCont_of_last (hg : r.got < r.length) (hl : r.length ≤ r.got + 224)
    (hd : m.dslots.toNat = slotsFor (r.length - r.got)) : takeCont m u =
      pumpTargets (countTrk (fun k => { k with openRuns := k.openRuns.filter (fun x => x != r) })
        (modTarget r.op (fun o => { o with
          waiting := o.waiting ++ spanParts x (r.pa + r.got) (r.length - r.got) r.got (m.data.take (r.length - r.got))
          complete := true }) x)) := by
  have rest : min 224 (r.length - r.got) = r.length - r.got := by omega
  have whole : r.got + (r.length - r.got) = r.length := by omega
  simp only [takeCont, hr, hx, hn, hd, rest, whole, ne_eq, not_true, or_self, Bool.false_eq_true, decide_true, if_true, if_false]

/-- 224 bytes of more that are to come carry the run on. -/
theorem takeCont_of_more (hl : r.got + 224 < r.length) (hd : m.dslots = 14) : takeCont m u =
    pumpTargets (countTrk (fun k => { k with
        openRuns := k.openRuns.map (fun x => if x = r then { x with got := x.got + 224, next := x.next + 1 } else x) })
      (modTarget r.op (fun o => { o with
        waiting := o.waiting ++ spanParts x (r.pa + r.got) 224 r.got (m.data.take 224), complete := false }) x)) := by
  have full : min 224 (r.length - r.got) = 224 := by omega
  have slots : m.dslots.toNat = slotsFor 224 := congrArg BitVec.toNat hd
  have short : r.got + 224 ≠ r.length := Nat.ne_of_lt hl
  simp only [takeCont, hr, hx, hn, full, slots, short, ne_eq, not_true, or_self, Bool.false_eq_true, decide_false, if_false]

end

/-! ### The gap's end (08 R211) -/

/-- Without a run there is no gap. -/
theorem doOpenRunGap_of_no_run {s : State} {src tag : BitVec 32} (hr : runOfKey s src tag = none) : doOpenRunGap src tag s = s := by
  simp only [doOpenRunGap, hr]

/-- The end of a run's gap closes the run. -/
theorem doOpenRunGap_of_run {s : State} {src tag : BitVec 32} {r : OpenRun} (hr : runOfKey s src tag = some r) :
    doOpenRunGap src tag s = closeRun r s := by
  simp only [doOpenRunGap, hr]

/-- Settles O49: a request by its checks, a continuation by the run of its key, a gap's end by whether its run is still open.  The
record of a stray continuation is the model's choice (log entry 23). -/
theorem requestsAreCheckedAndAdmitted : Obligations.RequestsAreCheckedAndAdmitted := by
  refine ⟨fun c s u a m h hc => ?refused, fun s u a m w h hf ha hw => ?read, fun s u a m w h hf ha hw => ?fill,
    fun s u x a m w h hf ha hw hr hx => ?write, fun s u a m h => ?cont, fun s src tag hl => ?gap⟩
  case refused =>
    obtain ⟨f, run⟩ := runs_request h hc
    exact ⟨fun bad => checked_bad m f u bad ▸ run, fun ok no => checked_no m f u ok no ▸ run⟩
  case read => exact runs_arrival h rfl (exec_read a m s) (checked_ok m _ u w hf ha hw)
  case fill => exact runs_arrival h rfl (exec_fillMessage a m s) (checked_ok m _ u w hf ha hw)
  case write =>
    exact ⟨fun short => runs_arrival h rfl (exec_write a m s) (takeWrite_of_short hf ha hw hr hx short),
      fun long => runs_arrival h rfl (exec_write a m s) (takeWrite_of_long hf ha hw hr hx long)⟩
  case cont =>
    have run {v : State} : takeCont m u = v → Runs (.cont a m) s v := runs_arrival h rfl (exec_cont a m s)
    exact ⟨fun stray => run (takeCont_of_no_run stray), fun r x hr lost => run (takeCont_of_lost hr lost),
      fun r x hr read other => run (takeCont_of_other_number hr read other),
      fun r x hr read next got last slots => run (takeCont_of_last hr read next got last slots),
      fun r x hr read next more slots => run (takeCont_of_more hr read next more slots)⟩
  case gap =>
    have run {v : State} : doOpenRunGap src tag s = v → Runs (.openRunGapExpiry src tag) s v :=
      runs_of (exec_openRunGapExpiry src tag s) hl
    exact ⟨fun ended => run (doOpenRunGap_of_no_run ended), fun r hr => run (doOpenRunGap_of_run hr)⟩

end Sys2Proof.Machine

/-! PROOFS. ATOMIC, RELEASE and the replay table (08 R212, R218, R233 to R235). -/

namespace Sys2Proof.Machine

/-! ### An ATOMIC that waits or is taken (08 R233, R234) -/

/-- Taking a message changes its port only. -/
theorem takeMsg_eq_some {s u : State} {n : Nat} {v : Fin 8} {m : Msg} (hu : takeMsg n v m s = some u) : ∃ f, u = modPort n f s := by
  simp only [takeMsg] at hu
  split at hu
  · cases hu
  · split at hu
    · exact ⟨_, (Option.some.inj hu).symm⟩
    · cases hu

/-- The checks of R205 read nothing of a port. -/
theorem arrivalOk_modPort (n : Nat) (f : Port → Port) (s : State) (p b : Nat) (x : Msg) :
    arrivalOk (modPort n f s) p b x = arrivalOk s p b x := rfl

/-- The message that an arrival at a port takes is one that waits there. -/
theorem takeMsg_of_takeArrival {s u : State} {n : PortNo} {v : Fin 8} {m : Msg} (hu : takeArrival (.port n v) m s = some u) :
    takeMsg n v m s = some u := by
  unfold takeArrival at hu
  split at hu
  · cases hu
  · exact hu

/-- A message that arrives could be taken before it was. -/
theorem takeable_of_arrives {c : Instr} {s u : State} {a : Arrival} {m : Msg} (h : Arrives c a m s u) : takeable s a m = true := by
  obtain ⟨-, t, -, -, here, taken, ok⟩ := h
  simp only [takeable, here, taken, beq_self_eq_true, Option.isSome_some, Bool.true_and]
  cases a with
  | self => rfl
  | port n v =>
    obtain ⟨f, rfl⟩ := takeMsg_eq_some (takeMsg_of_takeArrival taken)
    exact (arrivalOk_modPort n f s n v m).symm.trans ok

section
variable {s : State} {a : Arrival} {m : Msg}

/-- With no ATOMIC waiting, one that needs not wait is taken like any other message. -/
theorem doAtomic_of_free (hm : mustStall s m = false) (hs : s.trk.stalled = []) :
    doAtomic a m s = onArrival a m (takeAtomic m) s := by
  have gone : s.trk.stalled.erase (a, m) = s.trk.stalled := by rw [hs, List.erase_nil]
  simp only [doAtomic, hm, countTrk, gone, Bool.and_false, Bool.false_eq_true, if_false]

/-- One that must wait joins those that wait, and is counted, once. -/
theorem doAtomic_of_full (ht : takeable s a m = true) (hm : mustStall s m = true) : doAtomic a m s =
    if s.trk.stalled.contains (a, m) = true then s
    else countTrk (fun k => { k with stalled := k.stalled ++ [(a, m)], fullStalls := satInc k.fullStalls }) s :=
  if_pos (by rw [ht, hm]; rfl)

end

section
variable {s u w : State} {a : Arrival} {m : Msg} (h : Arrives (.atomic a m) a m s u)
include h

/-- An ATOMIC that is taken runs by its checks. -/
theorem runs_atomic_taken (hm : mustStall s m = false) (hs : s.trk.stalled = []) (ht : takeAtomic m u = w) : Runs (.atomic a m) s w := by
  obtain ⟨hl, own, taken⟩ := arrives_onArrival h rfl
  exact runs_onlyIf (exec_atomic a m s) hl ((if_pos own).trans ((doAtomic_of_free hm hs).trans ((taken _).trans ht)))

/-- An ATOMIC that must wait runs by whether it waits already. -/
theorem runs_atomic_waits (hm : mustStall s m = true) : Runs (.atomic a m) s (if s.trk.stalled.contains (a, m) = true then s
    else countTrk (fun k => { k with stalled := k.stalled ++ [(a, m)], fullStalls := satInc k.fullStalls }) s) := by
  obtain ⟨hl, own, -⟩ := arrives_onArrival h rfl
  exact runs_onlyIf (exec_atomic a m s) hl ((if_pos own).trans (doAtomic_of_full (takeable_of_arrives h) hm))

end

/-! ### The checks of an ATOMIC (08 R212, R233, R235) -/

section
variable {m : Msg} {u : State}

/-- One of wrong form is answered MALFORMED. -/
theorem takeAtomic_of_malformed (hf : formOk m = false) : takeAtomic m u = refuse m stMalformed u := if_pos (by rw [hf]; rfl)

variable (hf : formOk m = true)
include hf

/-- One found in the table is answered from it. -/
theorem takeAtomic_of_hit {e : ReplayEntry} (he : replayOf u m = some e) : takeAtomic m u = replayHit e m u := by
  simp only [takeAtomic, hf, he, Bool.not_true, Bool.false_eq_true, if_false]

variable (he : replayOf u m = none)
include he

/-- A reissue that the table cannot tell of is answered AMBIGUOUS. -/
theorem takeAtomic_of_ambiguous (hb : answersAmbiguous u m = true) : takeAtomic m u = sendAmbiguous m u := by
  simp only [takeAtomic, hf, he, hb, Bool.not_true, Bool.false_eq_true, if_false, if_true]

variable (hb : answersAmbiguous u m = false)
include hb

/-- A new ATOMIC is checked as another request is, and admitted with an entry of its own. -/
theorem takeAtomic_of_new : takeAtomic m u = checked m (fun w s => admitOp m .atomic w [] true (reserveEntry m s)) u := by
  simp only [takeAtomic, checked, hf, he, hb, Bool.not_true, Bool.false_eq_true, if_false]

end

/-! ### Results in the table (08 R233, R234) -/

/-- A hit whose result is stored is answered with it. -/
theorem replayHit_of_done {e : ReplayEntry} (hd : e.done = true) (m : Msg) (s : State) : replayHit e m s =
    sendOrDrop .steward (atomicResultMsg (countTrk (fun k => { k with hits := satInc k.hits }) s) m e.status e.old.toNat)
      (countTrk (fun k => { k with hits := satInc k.hits }) s) := if_pos hd

/-- The expiry of a stored result frees its entry. -/
theorem doReplayExpiry_of_stored {s : State} {src tag : BitVec 32}
    (h : s.trk.replay.any (fun e => e.source == src && e.tag == tag && e.done) = true) :
    doReplayExpiry src tag s = freeEntry src tag (countTrk (fun k => { k with expiries := satInc k.expiries }) s) := if_pos h

/-- The expiry of no stored result changes nothing. -/
theorem doReplayExpiry_of_none {s : State} {src tag : BitVec 32}
    (h : s.trk.replay.any (fun e => e.source == src && e.tag == tag && e.done) = false) : doReplayExpiry src tag s = s :=
  if_neg (Bool.eq_false_iff.mp h)

/-- The table keeps every entry but the stored result of the SOURCE and TAG that is freed. -/
theorem mem_freeEntry (s : State) (src tag : BitVec 32) (e : ReplayEntry) : e ∈ (freeEntry src tag s).trk.replay ↔
    e ∈ s.trk.replay ∧ ¬(e.source = src ∧ e.tag = tag ∧ e.done = true) := by
  simp only [freeEntry, countTrk, List.mem_filter, Bool.not_eq_true', Bool.eq_false_iff, ne_eq, Bool.and_eq_true, beq_iff_eq, and_assoc]

/-! ### New values (08 R218) -/

section
variable {attr : Byte} (m v c : Nat)

/-- ADD. -/
theorem atomicNew_add (h : bitsOf attr.toNat 0 4 = 0) : atomicNew attr m v c = (m + v) % 2 ^ (8 * atomicWidth attr) := if_pos h

/-- SWAP. -/
theorem atomicNew_swap (h : bitsOf attr.toNat 0 4 = 5) : atomicNew attr m v c = v := by
  simp [atomicNew, h]

/-- Compare-swap. -/
theorem atomicNew_cas (h : bitsOf attr.toNat 0 4 = 6) : atomicNew attr m v c = if m = c then v else m := by
  simp [atomicNew, h]

/-- AND. -/
theorem atomicNew_and (h : bitsOf attr.toNat 0 4 = 7) : atomicNew attr m v c = Nat.land m v := by
  simp [atomicNew, h]

end

/-- Settles O50: an ATOMIC by whether it must wait, then by the table and its checks; entries by what the table keeps; new values by
their operation. -/
theorem atomicsRunOnceAndAreReplayed : Obligations.AtomicsRunOnceAndAreReplayed := by
  refine ⟨fun s u a m h hm hs => ?taken, fun s u a m h hm => ?waits, fun s e m hd => replayHit_of_done hd m s, fun s u a m h => ?release,
    fun s src tag hl => ?expiry, mem_freeEntry, fun w m v c attr hw => ?values⟩
  case taken =>
    have run {v : State} : takeAtomic m u = v → Runs (.atomic a m) s v := runs_atomic_taken h hm hs
    exact ⟨fun bad => run (takeAtomic_of_malformed bad), fun e ok hit => run (takeAtomic_of_hit ok hit),
      fun ok miss amb => run (takeAtomic_of_ambiguous ok miss amb),
      fun ok miss new no => run ((takeAtomic_of_new ok miss new).trans (checked_no m _ u ok no)),
      fun w ok miss new adm win => run ((takeAtomic_of_new ok miss new).trans (checked_ok m _ u w ok adm win))⟩
  case waits =>
    have run := runs_atomic_waits h hm
    exact ⟨fun known => by rwa [if_pos known] at run, fun new => by rwa [if_neg (Bool.eq_false_iff.mp new)] at run⟩
  case release => exact runs_arrival h rfl (exec_release a m s) rfl
  case expiry =>
    have run {v : State} : doReplayExpiry src tag s = v → Runs (.replayEntryExpiry src tag) s (retryStalled v) :=
      fun e => runs_of (exec_replayEntryExpiry src tag s) hl (congrArg retryStalled e)
    exact ⟨fun stored => run (doReplayExpiry_of_stored stored), fun free => run (doReplayExpiry_of_none free)⟩
  case values =>
    subst hw
    exact ⟨atomicNew_add m v c, atomicNew_swap m v c, atomicNew_cas m v c, atomicNew_and m v c⟩

end Sys2Proof.Machine

/-! PROOFS. ACK, READ_DATA, ATOMIC_RESULT and the response timeout (08 R223 to R231, R234, R239; 15 R410; log entry 22). -/

namespace Sys2Proof.Machine

/-! ### A response and its tracker (08 R224, R239) -/

/-- The three response commands act by `onResponse`. -/
theorem exec_response {c : Instr} {a : Arrival} {m : Msg} (hc : c = .ack a m ∨ c = .readData a m ∨ c = .atomicResult a m) (s : State) :
    ∃ t f, messageOf c = some (a, m, t) ∧ exec c s = act (onlyIf (ownMessage t m.opcode) (onResponse a m f)) s := by
  rcases hc with rfl | rfl | rfl
  · exact ⟨_, _, rfl, exec_ack a m s⟩
  · exact ⟨_, _, rfl, exec_readData a m s⟩
  · exact ⟨_, _, rfl, exec_atomicResult a m s⟩

section
variable {c : Instr} {s u v : State} {a : Arrival} {m : Msg} {k : Taker} {f : Tracker → State → State} (h : Arrives c a m s u)
  (hc : messageOf c = some (a, m, k)) (he : exec c s = act (onlyIf (ownMessage k m.opcode) (onResponse a m f)) s)
include h hc he

/-- A response whose TAG no tracker in use has is late. -/
theorem runs_response_late (hn : answeredTracker u m = none) :
    Runs c s (countTrk (fun k => { k with lateDiscards := satInc k.lateDiscards }) u) :=
  runs_response h hc he (by simp only [hn])

variable {t : Tracker} (ht : answeredTracker u m = some t)
include ht

/-- One whose tracker's word cannot be corrected loses the tracker. -/
theorem runs_response_lost (hv : responseTracker t u = (true, v)) : Runs c s (loseTracker t v) :=
  runs_response h hc he (by simp only [ht, hv, if_true])

variable (hv : responseTracker t u = (false, v))
include hv

/-- One of a reserved status is a bad response. -/
theorem runs_response_reserved (ho : m.opcode ≠ opReadData) (hs : responseStatus m.aux = false) : Runs c s (badResponse a v) :=
  runs_response h hc he (by simp [ht, hv, ho, hs])

/-- So is one of another endpoint than the target, but for an UNREACHABLE answer, which any may give. -/
theorem runs_response_stranger (ho : m.opcode = opReadData ∨ m.aux ≠ stUnreachable) (hs : srcEp m ≠ t.target.toNat) :
    Runs c s (badResponse a v) := by
  refine runs_response h hc he ?_
  by_cases hr : m.opcode = opReadData
  · simp [ht, hv, hr, hs, stOk, stUnreachable]
  · simp [ht, hv, hr, hs, ho.resolve_left hr]

/-- One of the target, with data or with a status that R239 gives, is taken. -/
theorem runs_response_taken (ho : m.opcode = opReadData ∨ responseStatus m.aux = true) (hs : srcEp m = t.target.toNat) :
    Runs c s (f t v) := by
  refine runs_response h hc he ?_
  by_cases hr : m.opcode = opReadData
  · simp [ht, hv, hr, hs, responseStatus]
  · simp [ht, hv, hr, hs, ho.resolve_left hr]

end

/-! ### What each response does (08 R209, R223, R229, R231, R234) -/

section
variable {a : Arrival} {m : Msg} {t : Tracker} {v : State}

/-- Until a piece has been taken, no response is of the copy whose pieces are not taken. -/
theorem otherInstance_of_none (hi : t.readInst = none) : otherInstance t m = false := by simp only [otherInstance, hi]

/-- A final status completes the request, but for the UNREACHABLE answer to a reissued one. -/
theorem takeStatus_completes (hu : ¬(m.aux = stUnreachable ∧ t.reissued = true)) (hi : t.readInst = none) (d : List Byte) :
    takeStatus t m d v = completeTracker t m.aux d v := by
  simp only [takeStatus, if_neg hu, otherInstance_of_none hi, Bool.false_eq_true, if_false]

/-- An ACK of a WRITE or a FILL is its final status. -/
theorem takeAck_of_write (hc : m.opcode = opAck) (hd : m.dslots = 0) (ho : trkOp t = opWrite ∨ trkOp t = opFill) :
    takeAck a m t v = takeStatus t m [] v := by
  have other : trkOp t ≠ opAtomic ∧ trkOp t ≠ opRead := by rcases ho with ho | ho <;> rw [ho] <;> decide
  exact if_neg (by simp [hc, hd, other])

section
variable (ho : trkOp t = opRead) (hk : 224 * m.aux.toNat < trkLength t)
  (hd : m.dslots.toNat = slotsFor (pieceLen (trkLength t) m.aux.toNat))
include ho hk hd

/-- A piece of the other copy of a READ is left. -/
theorem takePiece_of_other (hi : otherInstance t m = true) : takePiece a m t v = v := by
  simp only [takePiece, ho, hd, hi, Nat.not_le.mpr hk, ne_eq, not_true, or_self, if_false, if_true]

/-- Another piece joins those before, and the last one completes the READ. -/
theorem takePiece_of_own {ps : Tab (List Byte)} (hi : otherInstance t m = false)
    (hp : ps = tabSet [] m.aux.toNat (m.data.take (pieceLen (trkLength t) m.aux.toNat)) t.pieces) : takePiece a m t v =
      if ps.length * 224 < trkLength t then
        modTracker t.index (fun t => { t with pieces := ps, readInst := some (reissueOf m.flags) }) v
      else completeTracker t stOk (ps.flatMap (·.2)) v := by
  subst hp
  simp only [takePiece, ho, hd, hi, Nat.not_le.mpr hk, ne_eq, not_true, or_self, Bool.false_eq_true, if_false]

end

/-- A result OK releases the target's entry and completes the ATOMIC with the old value. -/
theorem takeResult_of_ok (ho : trkOp t = opAtomic) (hs : m.aux = stOk) (hd : m.dslots = 1) (hi : t.readInst = none) :
    takeResult a m t v = completeTracker t stOk (m.data.take 16) (sendOrDrop (.own t.part) (releaseMsg v t) v) := by
  have status : ¬(m.aux = stUnreachable ∧ t.reissued = true) := fun h => absurd (hs.symm.trans h.1) (by decide)
  have one : m.dslots.toNat = 1 := congrArg BitVec.toNat hd
  simp only [takeResult, takeStatus_completes status hi]
  simp [ho, hs, one, onlyIf]

end

/-! ### The response timeout (08 R225, R227; log entry 22) -/

section
variable {s : State} {i : Nat} {t : Tracker}

/-- A tracker that is not in use has no timeout. -/
theorem doResponseTimeout_of_free (h : trackerOf s i = none) : doResponseTimeout i s = s := by simp only [doResponseTimeout, h]

/-- The timeout of a request that is held back, or waits for its chunk's reissue, is left. -/
theorem doResponseTimeout_of_unsent (h : trackerOf s i = some t)
    (hu : s.trk.held.contains i = true ∨ isWriting t = true ∧ t.lost = true ∧ mayReissue s t = true) : doResponseTimeout i s = s := by
  simp only [doResponseTimeout, h]
  exact if_pos (by simpa [and_assoc] using hu)

/-- The timeout of a request that has been sent acts. -/
theorem doResponseTimeout_of_sent (h : trackerOf s i = some t) (hh : s.trk.held.contains i = false)
    (hw : isWriting t = false ∨ t.lost = false ∨ mayReissue s t = false) : doResponseTimeout i s = afterTracker (timeOut t s) := by
  simp only [doResponseTimeout, h]
  exact if_neg (by rcases hw with hw | hw | hw <;> rw [hh, hw] <;> simp)

/-- A store of the aperture, and a request that may not be reissued, completes with TIMEOUT. -/
theorem timeOut_of_final (h : isAperStore t = true ∨ mayReissue s t = false) :
    timeOut t s = finishTracker t stTimeout [] (countTrk (fun k => { k with timeouts := satInc k.timeouts }) s) := by
  have same : mayReissue (countTrk (fun k => { k with timeouts := satInc k.timeouts }) s) t = mayReissue s t := rfl
  exact if_pos (by rw [same]; rcases h with h | h <;> rw [h] <;> simp)

end

/-- Settles O51: a response by its tracker, its status and its source, then by the request it answers; a timeout by whether the request
has been sent, which is the model's reading (log entry 22). -/
theorem responsesCompleteTheirTracker : Obligations.ResponsesCompleteTheirTracker := by
  refine ⟨fun c s u a m h hc => ?common, fun s u v a m t h ht hv ho hs hd hw hsrc hi hu => ?ack,
    fun s u v a m t ps h ht hv hsrc ho hk hd => ?readData, fun s u v a m t h ht hv hsrc ho hs hd hi => ?result, fun s i hl => ?timeout,
    fun s t h => timeOut_of_final h⟩
  case common =>
    obtain ⟨k, f, msg, arm⟩ := exec_response hc s
    exact ⟨runs_response_late h msg arm, fun t v => runs_response_lost h msg arm, fun t v => runs_response_reserved h msg arm,
      fun t v => runs_response_stranger h msg arm⟩
  case ack =>
    have taken := runs_response_taken h rfl (exec_ack a m s) ht hv (.inr hs) hsrc
    rwa [takeAck_of_write ho hd hw, takeStatus_completes hu hi] at taken
  case readData =>
    have taken := runs_response_taken h rfl (exec_readData a m s) ht hv (.inl (readData_opcode s u a m h)) hsrc
    refine ⟨fun other => ?_, fun own hp => ⟨fun more => ?_, fun whole => ?_⟩⟩
    · rwa [takePiece_of_other ho hk hd other] at taken
    · rwa [takePiece_of_own ho hk hd own hp, if_pos more] at taken
    · rwa [takePiece_of_own ho hk hd own hp, if_neg (Nat.not_lt.mpr whole)] at taken
  case result =>
    have taken := runs_response_taken h rfl (exec_atomicResult a m s) ht hv (.inr (hs ▸ rfl)) hsrc
    rwa [takeResult_of_ok ho hs hd hi] at taken
  case timeout =>
    have run {v : State} : doResponseTimeout i s = v → Runs (.responseTimeout i) s v := runs_of (exec_responseTimeout i s) hl
    exact ⟨fun free => run (doResponseTimeout_of_free free), fun t ht =>
      ⟨fun unsent => run (doResponseTimeout_of_unsent ht unsent), fun held sent => run (doResponseTimeout_of_sent ht held sent)⟩⟩

end Sys2Proof.Machine

end

section

/- As above, one proof after another: proofs that wait for the kernel together pass the memory that the check allows. -/
set_option Elab.async false

/-! PROOFS. Doorbells and counters as registers (09 R251, R255, R256, R271; 17 R460; log entry 35). -/

namespace Sys2Proof.Machine

/-! ### Doorbells (09 R251, R255, R256) -/

/-- A requester that may write and is a partition is a READY one (14 R381). -/
theorem mayWrite_partReady {a : RegAcc} {s : State} (h : MayWrite a s) :
    ¬(a.par.toNat < 16 ∧ (partOf s a.par.toNat).state ≠ partReady) := by
  rintro ⟨part, unready⟩
  rcases h.who with priv | ⟨-, ready⟩
  · exact absurd part (by rw [priv]; decide)
  · exact unready ready

/-- A doorbell of the queue's owner with its four bytes enabled rings. -/
theorem wrDoorbell_rings {s : State} {q : QueueNo} {a : RegAcc} (h : MayWrite a s) (ho : ownerOk (queuePart s q) a.par.toNat = true)
    (hb : a.be.toNat % 16 = 15) :
    wrDoorbell q a.par.toNat a.value a.be s = some (ringDoorbell q (a.value.setWidth 32) s) := by
  simp only [wrDoorbell, ho, hb, if_neg h.enabled, if_neg (mayWrite_partReady h), ne_eq, not_true, Bool.not_true, Bool.false_eq_true,
    if_false]

section
variable {s : State} {q : QueueNo} {t : BitVec 32}

/-- A queue whose context is not OPEN ignores its doorbell (log entry 35). -/
theorem ringDoorbell_of_closed (hb : (queueOf s q).bound = true) (hc : (ctxOf s (queueOf s q).ctx).state ≠ ctxOpen) :
    ringDoorbell q t s = countIgnored s := if_pos ⟨hb, hc⟩

variable (h : (queueOf s q).bound = false ∨ (ctxOf s (queueOf s q).ctx).state = ctxOpen)
include h

/-- Any other queue takes its doorbell by the ring rule. -/
theorem ringDoorbell_of_open : ringDoorbell q t s = if doorbellOk (queueOf s q) t = true then goodDoorbell q t s else badDoorbell q s := by
  refine if_neg ?_
  rintro ⟨bound, closed⟩
  exact h.elim (fun free => by simp [free] at bound) closed

/-- A doorbell within the ring rule is accepted. -/
theorem ringDoorbell_of_ok (hk : doorbellOk (queueOf s q) t = true) : ringDoorbell q t s = goodDoorbell q t s :=
  (ringDoorbell_of_open h).trans (if_pos hk)

/-- One that breaks the rule is bad. -/
theorem ringDoorbell_of_bad (hk : doorbellOk (queueOf s q) t = false) : ringDoorbell q t s = badDoorbell q s :=
  (ringDoorbell_of_open h).trans (if_neg (Bool.eq_false_iff.mp hk))

end

/-- A queue after its own update. -/
@[simp] theorem queueOf_modQueue_self (q : Nat) (f : Queue → Queue) (s : State) : queueOf (modQueue q f s) q = f (queueOf s q) := by
  simp [queueOf, modQueue]

/-- In HALTED an accepted doorbell records TAIL only. -/
theorem goodDoorbell_of_halted {s : State} {q : QueueNo} (h : (queueOf s q).state = qHalted) (t : BitVec 32) :
    goodDoorbell q t s = modQueue q (fun x => { x with tail := t }) s := by
  have halted : (qHalted = qIdle) = False ∧ (qHalted = qRunning) = False := by decide
  simp only [goodDoorbell, queueOf_modQueue_self, h, halted, false_and, if_false]

/-- In HALTED a bad doorbell is counted only. -/
theorem badDoorbell_of_halted {s : State} {q : QueueNo} (h : (queueOf s q).state = qHalted) :
    badDoorbell q s = { s with cq := { s.cq with bad := satInc s.cq.bad } } := by
  refine if_neg ?_
  rw [show (queueOf { s with cq := { s.cq with bad := satInc s.cq.bad } } q).state = qHalted from h]
  decide

/-- The ring rule: at most the ring ahead of HEAD, and not below what has been fetched. -/
theorem doorbellOk_iff (q : Queue) (t : BitVec 32) :
    doorbellOk q t = true ↔ aheadOf q t ≤ 2 ^ ringLog2Of q ∧ aheadOf q q.nextFetch ≤ aheadOf q t := by
  simp only [doorbellOk, Bool.and_eq_true, decide_eq_true_eq]

/-- Settles O27: a doorbell is the write of its slot, which rings by the context's state and the ring rule.  That a queue whose context
is not OPEN ignores it is the model's reading (log entry 35). -/
theorem doorbellsMoveTheTail : Obligations.DoorbellsMoveTheTail := by
  refine ⟨fun s q a h ho hb => ?rings,
    fun s q t halted => ⟨goodDoorbell_of_halted halted t, badDoorbell_of_halted halted⟩, doorbellOk_iff⟩
  case rings =>
    have run {t : State} (ht : ringDoorbell q (a.value.setWidth 32) s = t) : Runs (.doorbell q a) s (answered 0 t) :=
      runs_write (exec_doorbell q a s) h (readReg_doorbell q s) (by simp [offWinData]; omega)
        (by rw [wrAt_doorbell, wrDoorbell_rings h ho hb, ht])
    exact ⟨fun bound closed => run (ringDoorbell_of_closed bound closed), fun opened ok => run (ringDoorbell_of_ok opened ok),
      fun opened bad => run (ringDoorbell_of_bad opened bad)⟩

/-! ### Counters (09 R271; 17 R460) -/

section
variable {s : State} {k : Nat} {par : Nat} {v : Word}

/-- The owner sets the enabled bytes of a counter. -/
theorem wrCntValue_of_owner (ho : ownerOk (cntPart s k) par = true) (be : BitVec 8) :
    wrCntValue k par v be s = some (setCounter k (mergeBytes (cntOf s k) v be) s) := if_pos ho

/-- Another requester is refused. -/
theorem wrCntValue_of_other (ho : ownerOk (cntPart s k) par = false) (be : BitVec 8) : wrCntValue k par v be s = none :=
  if_neg (Bool.eq_false_iff.mp ho)

/-- The owner adds to a counter with a write of all bytes. -/
theorem wrCntAdd_of_owner (ho : ownerOk (cntPart s k) par = true) :
    wrCntAdd k par v 0xFF s = some (setCounter k (cntOf s k + v) s) := by
  simp only [wrCntAdd, ho, fieldEnabled_all, addCounter, Bool.not_true, Bool.false_eq_true, if_false, if_true]

end

/-- Settles O28: each command is the write of its register. -/
theorem counterRegisters : Obligations.CounterRegisters := by
  refine ⟨fun s k a h ho => ?value, fun s k a h ho hb => ?add, fun s k a h ho => ?refused⟩
  case value =>
    refine runs_write (exec_cntValue k a s) h (readReg_cntValue k s) (by simp [offWinData]; omega) ?_
    rw [wrAt_cntValue, wrCntValue_of_owner ho]
  case add =>
    refine runs_write (exec_cntAdd k a s) h (readReg_cntAdd k s) (by simp [offWinData]; omega) ?_
    rw [wrAt_cntAdd, hb, wrCntAdd_of_owner ho]
  case refused =>
    have no : wrAt (0x600000 + 8 * k) a.par.toNat a.value a.be s = none := by rw [wrAt_cntValue, wrCntValue_of_other ho]
    have offset : BitVec.ofNat 24 (0x600000 + 8 * k) = 0x600000 + 8 * BitVec.ofNat 24 k := by rw [BitVec.ofNat_add, BitVec.ofNat_mul]; rfl
    rw [← offset]
    exact runs_of (exec_cntValue k a s) h.ready.1 (cmdWrite_refused h (readReg_cntValue k s) (by simp [offWinData]; omega) no)

end Sys2Proof.Machine

/-! PROOFS. The commands of CTX_CMD (09 R246, R247, R252, R253). -/

namespace Sys2Proof.Machine

/-! ### The checks of R252 -/

/-- A command on a context is of the right form when its object is a context's number and its argument is 0. -/
theorem cmdFormOk_context {cmd : Nat} (h : cmd = cmdCtxOpen ∨ cmd = cmdCtxClose) (x : CtxNo) : cmdFormOk cmd x 0 = true := by
  rcases h with rfl | rfl <;> simp [cmdFormOk, cmdKnown, onContext, cmdCtxOpen, cmdCtxClose, cmdQBind, cmdQHalt]

/-- So is one on a queue, for the commands without an argument. -/
theorem cmdFormOk_queue {cmd : Nat} (h : cmd = cmdQUnbind ∨ cmd = cmdQEnable ∨ cmd = cmdQResume) (q : QueueNo) :
    cmdFormOk cmd q 0 = true := by
  rcases h with rfl | rfl | rfl <;>
    simp [cmdFormOk, cmdKnown, onContext, cmdCtxOpen, cmdCtxClose, cmdQBind, cmdQUnbind, cmdQEnable, cmdQHalt, cmdQResume]

/-- The argument of Q_BIND is a context's number. -/
theorem cmdFormOk_qBind (q : QueueNo) (x : CtxNo) : cmdFormOk cmdQBind q x = true := by
  simp [cmdFormOk, cmdKnown, onContext, cmdCtxOpen, cmdCtxClose, cmdQBind]

/-- The argument of Q_HALT is its ABORT bit. -/
theorem cmdFormOk_qHalt (q : QueueNo) {arg : Nat} (h : arg < 2) : cmdFormOk cmdQHalt q arg = true := by
  simp [cmdFormOk, cmdKnown, onContext, cmdCtxOpen, cmdCtxClose, cmdQBind, cmdQHalt, h]

section
variable {s t : State} {par cmd obj arg : Nat} (hf : cmdFormOk cmd obj arg = true) (hr : cmdRightsOk s par cmd obj arg = true)
  (hk : cmdReady s cmd obj = true)
include hf hr hk

/-- A command that the table of R253 allows is answered OK with its effect. -/
theorem cmdRun_applied (ha : cmdApply cmd obj arg s = some t) : cmdRun par cmd obj arg s = (stOk, t) := by
  simp only [cmdRun, hf, hr, hk, ha, Bool.not_true, Bool.false_eq_true, if_false]

/-- One that it does not allow is refused and counted. -/
theorem cmdRun_refused (ha : cmdApply cmd obj arg s = none) :
    cmdRun par cmd obj arg s = (stStateRefused, { s with cq := { s.cq with stateRefusals := satInc s.cq.stateRefusals } }) := by
  simp only [cmdRun, hf, hr, hk, ha, Bool.not_true, Bool.false_eq_true, if_false]

end

/-! ### The operation of each command (09 R253) -/

/-- A number below the modulus is its own remainder. -/
theorem fin_mk_mod {n : Nat} (i : Fin n) (h : i.val % n < n) : (⟨i.val % n, h⟩ : Fin n) = i := Fin.ext (Nat.mod_eq_of_lt i.isLt)

section
variable (x : CtxNo) (q : QueueNo) (arg : Nat) (s : State)

theorem cmdApply_ctxOpen : cmdApply cmdCtxOpen x arg s = openContext x s := congrArg (openContext · s) (fin_mk_mod x _)

theorem cmdApply_ctxClose : cmdApply cmdCtxClose x arg s = closeByCommand x s := congrArg (closeByCommand · s) (fin_mk_mod x _)

theorem cmdApply_qBind : cmdApply cmdQBind q x s = bindQueue q x s :=
  (congrArg (bindQueue · _ s) (fin_mk_mod q _)).trans (congrArg (bindQueue q · s) (fin_mk_mod x _))

theorem cmdApply_qUnbind : cmdApply cmdQUnbind q arg s = unbindQueue q s := congrArg (unbindQueue · s) (fin_mk_mod q _)

theorem cmdApply_qEnable : cmdApply cmdQEnable q arg s = enableQueue q s := congrArg (enableQueue · s) (fin_mk_mod q _)

theorem cmdApply_qHalt : cmdApply cmdQHalt q arg s = haltByCommand q (arg % 2 == 1) s :=
  congrArg (haltByCommand · (arg % 2 == 1) s) (fin_mk_mod q _)

theorem cmdApply_qResume : cmdApply cmdQResume q arg s = resumeQueue q s := congrArg (resumeQueue · s) (fin_mk_mod q _)

end

/-- A command that passes the checks, with its object and its argument as numbers, runs by its operation. -/
theorem runs_ctxApplied {s t : State} {c : CtxCmd} {ins : Instr} {code obj arg : Nat} (hs : slotOwner c.slot c.par.toNat = true)
    (hm : MayWrite { par := c.par, be := 0xFF, value := 0 } s) (hc : code < 256) (he : exec ins s = act (ctxCommand code c) s)
    (ho : c.object.toNat = obj) (ha : c.arg.toNat = arg) (form : cmdFormOk code obj arg = true)
    (rights : cmdRightsOk s c.par.toNat code obj arg = true) (ready : cmdReady s code obj = true)
    (ht : cmdApply code obj arg s = some t) : Runs ins s (answered 0 (slotTakes c.slot code stOk t)) := by
  subst ho ha
  exact runs_ctxCommand code hc he hs hm (cmdRun_applied form rights ready ht)

/-- A switched-out queue of an OPEN context can be resumed. -/
theorem resumeQueue_of_switchedOut {s : State} {q : QueueNo} (hq : (queueOf s q).state = qSwitchedOut)
    (hc : (ctxOf s (queueOf s q).ctx).state = ctxOpen) : ∃ t, resumeQueue q s = some t := ⟨_, if_pos ⟨hq, hc⟩⟩

/-- Settles O34: a command that passes the checks of R252 runs by the operation of its code, whose outcome the states of the objects
give. -/
theorem contextCommandsTakeEffect : Obligations.ContextCommandsTakeEffect := by
  intro s c x q owner may
  have zero (ha : c.arg = 0) : c.arg.toNat = 0 := congrArg BitVec.toNat ha
  refine ⟨fun ho ha rights ready => ⟨fun free => ?opens, fun used => ?refused⟩, fun ho ha rights ready opened => ?closes,
    fun ho ha rights ready halted unbound opened same => ?binds, fun ho ha rights ready halted bound => ?unbinds,
    fun ho ha rights ready halted bound opened => ?enables, fun ho ha rights ready idle => ?halts,
    fun ho ha rights ready out opened => ?resumes⟩
  case opens =>
    exact runs_ctxApplied owner may (by decide) (exec_ctxOpen c s) ho (zero ha) (cmdFormOk_context (.inl rfl) x) rights ready
      ((cmdApply_ctxOpen ..).trans (if_pos free))
  case refused =>
    refine runs_ctxCommand cmdCtxOpen (by decide) (exec_ctxOpen c s) owner may ?_
    rw [ho, zero ha]
    exact cmdRun_refused (cmdFormOk_context (.inl rfl) x) rights ready ((cmdApply_ctxOpen ..).trans (if_neg used))
  case closes =>
    exact runs_ctxApplied owner may (by decide) (exec_ctxClose c s) ho (zero ha) (cmdFormOk_context (.inr rfl) x) rights ready
      ((cmdApply_ctxClose ..).trans (if_pos opened))
  case binds =>
    exact runs_ctxApplied owner may (by decide) (exec_qBind c s) ho ha (cmdFormOk_qBind q x) rights ready
      ((cmdApply_qBind ..).trans (if_pos ⟨halted, unbound, opened, same⟩))
  case unbinds =>
    exact runs_ctxApplied owner may (by decide) (exec_qUnbind c s) ho (zero ha) (cmdFormOk_queue (.inl rfl) q) rights ready
      ((cmdApply_qUnbind ..).trans (if_pos ⟨halted, bound⟩))
  case enables =>
    exact runs_ctxApplied owner may (by decide) (exec_qEnable c s) ho (zero ha) (cmdFormOk_queue (.inr (.inl rfl)) q) rights ready
      ((cmdApply_qEnable ..).trans (if_pos ⟨halted, bound, opened⟩))
  case halts =>
    exact runs_ctxApplied owner may (by decide) (exec_qHalt c s) ho rfl (cmdFormOk_qHalt q ha) rights ready
      ((cmdApply_qHalt ..).trans (if_pos idle))
  case resumes =>
    obtain ⟨t, ht⟩ := resumeQueue_of_switchedOut out opened
    exact ⟨t, ht, runs_ctxApplied owner may (by decide) (exec_qResume c s) ho (zero ha) (cmdFormOk_queue (.inr (.inr rfl)) q) rights ready
      ((cmdApply_qResume ..).trans ht)⟩

end Sys2Proof.Machine

/-! PROOFS. The start of a descriptor, and a turn of each kind (09 R258, R263, R264, R269, R270; 10 R301, R302; 11 R307; 16 R441). -/

namespace Sys2Proof.Machine

/-! ### DESCRIPTOR_START (09 R258) -/

/-- A queue that may not start a descriptor starts none. -/
theorem startNext_of_held {s : State} {q : QueueNo} (h : mayStart s q = false) : startNext q s = s := by
  simp only [startNext, h, Bool.not_false, if_true]

/-- One that may looks at the first descriptor it has fetched. -/
theorem startNext_of_fetched {s : State} {q : QueueNo} {f : Fetched} {rest : List Fetched} {p : PartNo} (h : mayStart s q = true)
    (hf : (queueOf s q).fetched = f :: rest) (hp : queuePart s q = some p) : startNext q s =
      if f.index ≠ (queueOf s q).nextStart then s else if f.bad = true then startBad q s else startFetched q p f s := by
  simp only [startNext, h, hf, hp, Bool.not_true, Bool.false_eq_true, if_false]

/-! ### The commands of runs -/

/-- The commands that give a run a turn or end its wait, each with the OP of its runs (09 R263). -/
def runCommands (id : Nat) : List (Instr × Nat) :=
  [(.copy id, dCopy), (.fill id, dFill), (.digest id, dDigest), (.sealedCopy id, dSealed), (.prefetch id, dPrefetch),
    (.advise id, dAdvise), (.wait id, dWait), (.signal id, dSignal), (.trigger id, dTrigger), (.collective id, dCollective),
    (.nop id, dNop), (.fenceDescriptor id, dFence), (.waitLimitExpiry id, dWait)]

/-- Each of them acts on the run of its number, if that has the command's OP. -/
theorem exec_runCommand (id : Nat) (s : State) : ∀ x ∈ runCommands id, ∃ f, exec x.1 s = act (onRun x.2 id f) s := by
  simp only [runCommands, List.forall_mem_cons]
  exact ⟨⟨_, exec_copy id s⟩, ⟨_, exec_fill id s⟩, ⟨_, exec_digest id s⟩, ⟨_, exec_sealedCopy id s⟩, ⟨_, exec_prefetch id s⟩,
    ⟨_, exec_advise id s⟩, ⟨_, exec_wait id s⟩, ⟨_, exec_signal id s⟩, ⟨_, exec_trigger id s⟩, ⟨_, exec_collective id s⟩,
    ⟨_, exec_nop id s⟩, ⟨_, exec_fenceDescriptor id s⟩, ⟨_, exec_waitLimitExpiry id s⟩, List.forall_mem_nil _⟩

/-! ### Movers (09 R264; 16 R441) -/

section
variable {s : State} {r : Run}

/-- A SEALED_COPY that has no key asks the root of trust for it. -/
theorem sealedTurn_of_no_key (hp : r.phase = .active) (hk : r.key = none) (hf : r.failed = none) : sealedTurn r s =
    rotSend rotKeyRequest (bytesAt r.desc 40 8 ++ leBytes 1 r.part ++ [0] ++ leBytes 2 r.ctx) (.key r.id)
      (modRun r.id (fun r => { r with phase := .waitRot }) s) := if_pos ⟨hp, hk, hf⟩

/-- With its key it takes a mover's turn. -/
theorem sealedTurn_of_key (hk : r.key ≠ none) : sealedTurn r s = moverTurn r.id s := if_neg fun h => hk h.2.1

/-- A mover with nothing to write issues the next bytes of the first chunk that has some left. -/
theorem moverTurn_of_unissued {id : Nat} {j : ChunkJob} (hr : runOf s id = some r) (hm : mayIssue s r = true)
    (hx : r.xfers.find? (fun t => t.stage == .ready) = none) (hj : r.chunks.find? (fun j => decide (j.issued < j.len)) = some j) :
    moverTurn id s = if awake s = true then issueNext r j s else s := by
  cases ha : awake s <;> simp only [moverTurn, hr, hm, hx, hj, ha] <;> rfl

/-! ### WAIT, COLLECTIVE and FENCE (09 R258, R269; 11 R307) -/

/-- A WAIT whose counter has come completes. -/
theorem waitTurn_of_reached (hp : r.phase = .active) (hc : r.num 24 8 ≤ (cntOf s (r.num 16 2)).toNat) :
    waitTurn r s = endRun r.id stOk s := (if_neg (not_not_intro hp)).trans (if_pos hc)

/-- Another one holds its queue from now on. -/
theorem waitTurn_of_short (hp : r.phase = .active) (hc : (cntOf s (r.num 16 2)).toNat < r.num 24 8) :
    waitTurn r s = modRun r.id (fun r => { r with phase := .holding, since := s.nowUs }) s :=
  (if_neg (not_not_intro hp)).trans (if_neg (Nat.not_le.mpr hc))

/-- A COLLECTIVE takes a plan slot where one is free. -/
theorem collTurn_of_free {k : Nat} (hm : mayIssue s r = true) (hn : r.plan = none) (hk : freeSlot s = some k) : collTurn r s =
    modRun r.id (fun r => { r with plan := some k })
      (modPlan k (fun _ => { state := 1, part := r.part, ctx := r.ctx, queue := r.irqQueue, run := r.id }) s) := by
  simp [collTurn, hm, hn, hk]

/-- Without a free one it waits. -/
theorem collTurn_of_full (hk : freeSlot s = none) : collTurn r s = s := by simp only [collTurn, hk, ite_self]

/-- A FENCE completes once the earlier descriptors have, and holds its queue until then. -/
theorem fenceTurn_of_active (hp : r.phase = .active) : fenceTurn r s =
    if fenceReady s r = true then endRun r.id stOk s else modRun r.id (fun r => { r with phase := .holding }) s :=
  if_neg (not_not_intro hp)

/-! ### SIGNAL (09 R263) -/

/-- A SIGNAL that may not issue waits. -/
theorem signalTurn_of_held (hm : mayIssue s r = false) : signalTurn r s = s := if_pos (by simp [hm])

section
variable (hm : mayIssue s r = true) (hx : r.xfers = [])
include hm hx

/-- A SIGNAL to a counter adds and completes. -/
theorem signalTurn_of_counter (hn : r.num 16 1 = 0) :
    signalTurn r s = endRun r.id stOk (addCounter (r.num 18 2) (BitVec.ofNat 64 (r.num 32 8)) s) :=
  (if_neg (by simp [hm, hx])).trans (if_pos hn)

variable (hn : r.num 16 1 ≠ 0)
include hn

/-- A SIGNAL to an address waits for its translation. -/
theorem signalTurn_of_miss {t : State} (ht : translate (.chunk r.id none) r.ctx (r.num 24 8) rightAtomic s = (none, t)) :
    signalTurn r s = t := by
  simp [signalTurn, hm, hx, hn, ht]

/-- At a local address the atomic unit performs its ATOMIC. -/
theorem signalTurn_of_local {t u : State} {e : Range} {pa : Nat} {ep : BitVec 16}
    (ht : translate (.chunk r.id none) r.ctx (r.num 24 8) rightAtomic s = (some e, t)) (hp : placeOf e (r.num 24 8) = .loc pa)
    (hu : beginUse r.ctx t = (ep, u)) : signalTurn r s =
      giveUnit { msg := signalMsg t r (selfEp t) pa, pa := pa, localOwner := some (.xfer r.id 0) }
        (markXfer r (modRun r.id (fun r => { r with use := some ep }) u)) := by
  simp [signalTurn, hm, hx, hn, ht, hp, hu]

end

/-! ### TRIGGER (09 R270) -/

section
variable (hm : mayIssue s r = true) (hx : r.xfers = [])
include hm hx

/-- Without a free entry a TRIGGER holds its queue, and is counted. -/
theorem triggerTurn_of_full (hp : r.phase = .active) (hf : trigFree s r.ctx = false) : triggerTurn r s =
    modRun r.id (fun r => { r with phase := .holding }) { s with cq := { s.cq with trigWaits := satInc s.cq.trigWaits } } := by
  simp [triggerTurn, hm, hx, hf, hp]

variable (hf : trigFree s r.ctx = true)
include hf

/-- With one it waits for the translation of its descriptor's address. -/
theorem triggerTurn_of_miss {t : State}
    (ht : translate (.chunk r.id none) r.ctx (r.num 32 8) rightRead (modRun r.id (fun r => { r with phase := .active }) s) = (none, t)) :
    triggerTurn r s = t := by
  simp [triggerTurn, hm, hx, hf, ht]

/-- At a local address it reads the descriptor. -/
theorem triggerTurn_of_local {t u : State} {e : Range} {pa : Nat} {ep : BitVec 16}
    (ht : translate (.chunk r.id none) r.ctx (r.num 32 8) rightRead (modRun r.id (fun r => { r with phase := .active }) s) = (some e, t))
    (ha : placeOf e (r.num 32 8) = .loc pa) (hu : beginUse r.ctx t = (ep, u)) : triggerTurn r s =
      memIssue .read (.trigDesc r.id) pa 64 0 [] none (markXfer r (modRun r.id (fun r => { r with use := some ep }) u)) := by
  simp [triggerTurn, hm, hx, hf, ht, ha, hu]

end

end

/-- Settles O54: a start by what the queue has fetched, a turn by the run's OP and by what it waits for. -/
theorem descriptorsRunByTheirKind : Obligations.DescriptorsRunByTheirKind := by
  refine ⟨fun s q hl held => runs_of (exec_descriptorStart q s) hl (startNext_of_held held), fun s q f rest p hl may hf hp => ?start,
    fun s id op c hl hc other => ?other, fun s id r hl hr => ?turn, fun s id r j hr hm hx hj => moverTurn_of_unissued hr hm hx hj⟩
  case start =>
    have run {t : State} : startNext q s = t → Runs (.descriptorStart q) s t := runs_of (exec_descriptorStart q s) hl
    have looks := startNext_of_fetched may hf hp
    exact ⟨fun early => run (looks.trans (if_pos early)),
      fun next bad => run (looks.trans ((if_neg (not_not_intro next)).trans (if_pos bad))),
      fun next good => run (looks.trans ((if_neg (not_not_intro next)).trans (if_neg (Bool.eq_false_iff.mp good))))⟩
  case other =>
    obtain ⟨f, hf⟩ := exec_runCommand id s (c, op) hc
    exact runs_onRun_none hf hl other
  case turn =>
    have run {c : Instr} {op : Nat} {f : Run → State → State} {t : State} (he : exec c s = act (onRun op id f) s) (ho : r.op = op)
        (ht : f r s = t) : Runs c s t := runs_onRun he hl hr ho ht
    refine ⟨fun ho => run (exec_copy id s) ho rfl, fun ho => run (exec_fill id s) ho rfl, fun ho => run (exec_digest id s) ho rfl,
      fun ho => ⟨fun active unkeyed well => run (exec_sealedCopy id s) ho (sealedTurn_of_no_key active unkeyed well),
        fun keyed => run (exec_sealedCopy id s) ho (sealedTurn_of_key keyed)⟩,
      fun ho => run (exec_prefetch id s) ho rfl, fun ho => run (exec_advise id s) ho rfl,
      fun ho active => ⟨fun reached => run (exec_wait id s) ho (waitTurn_of_reached active reached),
        fun short => run (exec_wait id s) ho (waitTurn_of_short active short)⟩,
      fun ho => ⟨fun holding limited => run (exec_waitLimitExpiry id s) ho (if_pos (by simp [holding, limited])),
        fun off => run (exec_waitLimitExpiry id s) ho (if_neg ?unlimited)⟩,
      fun ho => ?signal,
      fun ho active may idle full => run (exec_trigger id s) ho (triggerTurn_of_full may idle active full),
      fun t ho _ may idle free miss => run (exec_trigger id s) ho (triggerTurn_of_miss may idle free miss),
      fun t u e pa ep ho _ may idle free hit here use => run (exec_trigger id s) ho (triggerTurn_of_local may idle free hit here use),
      fun ho may unplanned => ?collective,
      fun ho => ⟨fun active => run (exec_nop id s) ho (if_pos (by simp [active])),
        fun idle => run (exec_nop id s) ho (if_neg (by simp [idle]))⟩,
      fun ho active => ⟨fun ready => run (exec_fenceDescriptor id s) ho ((fenceTurn_of_active active).trans (if_pos ready)),
        fun waits => run (exec_fenceDescriptor id s) ho ((fenceTurn_of_active active).trans (if_neg (Bool.eq_false_iff.mp waits)))⟩⟩
    case unlimited => rcases off with off | off <;> simp [off]
    case signal =>
      have turn {t : State} : signalTurn r s = t → Runs (.signal id) s t := run (exec_signal id s) ho
      exact ⟨fun may idle counter => turn (signalTurn_of_counter may idle counter), fun held => turn (signalTurn_of_held held),
        fun t may idle addressed miss => turn (signalTurn_of_miss may idle addressed miss),
        fun t u e pa ep may idle addressed hit here use => turn (signalTurn_of_local may idle addressed hit here use)⟩
    case collective =>
      exact ⟨fun k free => run (exec_collective id s) ho (collTurn_of_free may unplanned free),
        fun full => run (exec_collective id s) ho (collTurn_of_full full)⟩

end Sys2Proof.Machine

/-! PROOFS. Triggered operations, status writes, periods, contexts, translations, fault records and windows (09 R246, R247, R265, R270,
R273; 10 R282, R284, R299, R300, R306). -/

namespace Sys2Proof.Machine

/-! ### Triggered operations and status writes (09 R265, R270) -/

/-- Without the triggered operation, and without a free mover for it, none runs. -/
theorem runTriggered_of_none {s : State} {id : Nat} (h : s.cq.armed.find? (fun a => a.id == id) = none ∨ freeMover s = none) :
    runTriggered id s = s := by
  unfold runTriggered
  split
  next ha hm => exact h.elim (fun no => by simp [no] at ha) (fun no => by simp [no] at hm)
  next => rfl

/-- A fired one lets the scheduler take its turn, and runs when the turn is its own. -/
theorem runTriggered_of_turn {s t : State} {id k m : Nat} {a : Armed} (ha : s.cq.armed.find? (fun a => a.id == id) = some a)
    (hm : freeMover s = some m) (hf : a.fired = true) (hs : schedules s = true) (hp : takesTurns s a.part = true)
    (hk : schedule s = some (k, t)) : runTriggered id s =
      if k = 4096 + id then beginRun (triggeredRun a id (some m)) { t with cq := { t.cq with armed := t.cq.armed.erase a } } else t := by
  simp only [runTriggered, ha, hm, hf, hs, hp, hk, Bool.not_true, Bool.or_self, Bool.false_eq_true, if_false]

/-- An answer without an error leaves no record. -/
theorem noteMemErr_ok (r : MemReq) (inj : Bool) (s : State) : noteMemErr r 0 inj s = s := if_pos rfl

/-- Without a DONE write under way there is none to complete. -/
theorem doDoneWritten_of_none {s : State} {id : Nat} (h : s.memReqs.find? (fun r => r.owner == .status id .done) = none) :
    doDoneWritten id s = s := by
  simp only [doDoneWritten, h]

/-- The DONE write of a run is answered without an error. -/
theorem doDoneWritten_of_request {s : State} {id : Nat} {r : MemReq}
    (h : s.memReqs.find? (fun r => r.owner == .status id .done) = some r) :
    doDoneWritten id s = writeAnswered r 0 (pumpMem (endReqUse r (dropReq r s))) := by
  simp only [doDoneWritten, h, takeWriteRsp, noteMemErr_ok]

/-! ### Periods and contexts (09 R246, R247, R273) -/

/-- The period of a bound periodic queue of an OPEN context ends, unless the queue is HALTED or its partition has no turns. -/
theorem doPeriodEnd_of_due {s : State} {q : QueueNo} {p : PartNo} (hq : queuePart s q = some p) (hd : (queueOf s q).periodic = true)
    (hb : (queueOf s q).bound = true) (hh : (queueOf s q).state ≠ qHalted) (hc : (ctxOf s (queueOf s q).ctx).state = ctxOpen)
    (hp : takesTurns s p = true) : doPeriodEnd q s = periodEnd q p s := by
  simp [doPeriodEnd, hq, hd, hb, hh, hc, hp]

/-- A queue without periods, and a HALTED one, has none to end. -/
theorem doPeriodEnd_of_none {s : State} {q : QueueNo} (h : (queueOf s q).periodic = false ∨ (queueOf s q).state = qHalted) :
    doPeriodEnd q s = s := by
  have idle : ((queueOf s q).periodic && (queueOf s q).bound && (queueOf s q).state != qHalted) = false := by
    rcases h with h | h <;> simp [h]
  unfold doPeriodEnd
  split
  next => simp only [idle, Bool.false_and, Bool.false_eq_true, if_false]
  next => rfl

/-- A closing context of a READY partition that has nothing left goes into quarantine. -/
theorem doTeardownResolved_of_resolved {s : State} {c : CtxNo} {p : PartNo} (hc : (ctxOf s c).state = ctxClosing)
    (hr : ctxResolved s c = true) (hp : ctxPart s c = some p) (hs : (partOf s p).state = partReady) :
    doTeardownResolved c s = modCtx c (fun x => { x with state := ctxQuarantine, quarantineUs := respTimeoutOf s }) s :=
  if_pos ⟨hc, hr, by simp [hp, hs]⟩

/-- Any other stays as it is. -/
theorem doTeardownResolved_of_not {s : State} {c : CtxNo} (h : (ctxOf s c).state ≠ ctxClosing ∨ ctxResolved s c = false) :
    doTeardownResolved c s = s :=
  if_neg fun ⟨closing, resolved, _⟩ => h.elim (· closing) (fun left => by simp [left] at resolved)

/-! ### Translations (10 R282, R284) -/

/-- An injected error takes the reply's place. -/
theorem doReply_of_injected {s : State} {d : BitVec 256} (h : injectingReply s = true) : doReply d s = injectOne s := if_pos h

/-- A reply moves what the miss that it answers was for. -/
theorem doReply_of_taken {s : State} {d : BitVec 256} {x : Option (Miss × XltEnd) × State} (h : injectingReply s = false)
    (hx : takeReply d s = x) : doReply d s = resumeMiss x := (if_neg (Bool.eq_false_iff.mp h)).trans (congrArg resumeMiss hx)

/-- A timeout does so too. -/
theorem doXltTimeout_of_taken {s : State} {tag : Byte} {x : Option (Miss × XltEnd) × State} (hx : takeTimeout tag s = x) :
    doXltTimeout tag s = resumeMiss x := congrArg resumeMiss hx

/-- The tag of no miss has no timeout. -/
theorem takeTimeout_of_none {s : State} {tag : Byte} (h : s.xlt.misses.find? (fun m => m.tag == tag) = none) :
    takeTimeout tag s = (none, s) := by
  simp only [takeTimeout, h]

/-! ### Fault records (10 R299, R300) -/

/-- Without a record's write under way there is none to answer. -/
theorem doFaultRecordWritten_of_none {s : State} {p : PartNo} (h : s.memReqs.find? (isFaultReq p) = none) (e : BitVec 2) :
    doFaultRecordWritten p e s = s := by
  simp only [doFaultRecordWritten, h]

/-- The answer to a record's write frees the request and is noted. -/
theorem doFaultRecordWritten_of_request {s : State} {p q : PartNo} {r : MemReq} {n : BitVec 32}
    (h : s.memReqs.find? (isFaultReq p) = some r) (ho : r.owner = .faultRecord q n) (e : BitVec 2) :
    doFaultRecordWritten p e s = faultWritten p n e (noteMemErr r e false (pumpMem (dropReq r s))) := by
  simp only [doFaultRecordWritten, h, ho]

/-- The record that was being written is counted as overflow on an error and advances TAIL otherwise, and the next one is issued. -/
theorem faultWritten_of_next {s : State} {p : PartNo} {n : BitVec 32} {c : CtxNo} {b : List Byte} {rest : List (CtxNo × List Byte)}
    (hw : (fqOf s p).writing = (c, b) :: rest) (hn : numAt b 20 4 = n.toNat) (e : BitVec 2) : faultWritten p n e s =
      issueFault p (if 2 ≤ e.toNat then overflowFault p c (modFq p (fun f => { f with writing := rest }) s)
        else irqMapped p causeFault
          (modFq p (fun f => { f with tail := f.tail + 1 }) (modFq p (fun f => { f with writing := rest }) s))) := by
  simp only [faultWritten, hw, hn, ne_eq, not_true, if_false]

/-- Settles O55: an event by whether its owner waits for it, an answer by what it carries.  That the records of a partition are written
one at a time, so that the next is issued then, is the model's choice (log entry 18). -/
theorem timersAndAnswersMoveTheirOwner : Obligations.TimersAndAnswersMoveTheirOwner := by
  refine ⟨fun s id hl no => runs_of (exec_triggeredOperationRun id s) hl (runTriggered_of_none no),
    fun s t id k m a hl ha hm fired may turns hk => ?triggered, fun s id hl => ⟨fun r hr => ?written, fun no => ?unwritten⟩,
    fun s q p hl hq => ⟨fun periodic bound on opened turns => ?period, fun off => ?noPeriod⟩, fun s c hl => ?context,
    fun s d hl => ?reply, fun s tag hl => ?timeout, fun s p e hl => ⟨fun no => ?noFault, fun r q n hr ho => ?fault⟩,
    fun s p n e c b rest hw hn => faultWritten_of_next hw hn e, fun s w hl withdrawing => ⟨fun quiet => ?closed, fun used => ?busy⟩⟩
  case triggered =>
    have run {u : State} : runTriggered id s = u → Runs (.triggeredOperationRun id) s u := runs_of (exec_triggeredOperationRun id s) hl
    have turn := runTriggered_of_turn ha hm fired may turns hk
    exact ⟨fun own => run (turn.trans (if_pos own)), fun other => run (turn.trans (if_neg other))⟩
  case written => exact runs_of (exec_doneWritten id s) hl (doDoneWritten_of_request hr)
  case unwritten => exact runs_of (exec_doneWritten id s) hl (doDoneWritten_of_none no)
  case period => exact runs_of (exec_periodEnd q s) hl (doPeriodEnd_of_due hq periodic bound on opened turns)
  case noPeriod => exact runs_of (exec_periodEnd q s) hl (doPeriodEnd_of_none off)
  case context =>
    refine ⟨fun closing resolved ⟨p, hp, ready⟩ => ?_, fun other => ?_, fun quarantined => ?_, fun other => ?_⟩
    · exact runs_of (exec_teardownResolved c s) hl (doTeardownResolved_of_resolved closing resolved hp ready)
    · exact runs_of (exec_teardownResolved c s) hl (doTeardownResolved_of_not other)
    · exact runs_of (exec_quarantineExpiry c s) hl (if_pos quarantined)
    · exact runs_of (exec_quarantineExpiry c s) hl (if_neg other)
  case reply =>
    have run {t : State} : doReply d s = t → Runs (.translationReply d) s t := runs_of (exec_translationReply d s) hl
    exact ⟨fun injected => run (doReply_of_injected injected), fun t well stray => run (doReply_of_taken well stray),
      fun m e t well answer => run (doReply_of_taken well answer)⟩
  case timeout =>
    have run {t : State} : doXltTimeout tag s = t → Runs (.translationTimeout tag) s t := runs_of (exec_translationTimeout tag s) hl
    have back {t : State} : doTagBack tag s = t → Runs (.tagSetAsideExpiry tag) s t := runs_of (exec_tagSetAsideExpiry tag s) hl
    exact ⟨fun no => run (doXltTimeout_of_taken (takeTimeout_of_none no)), fun t again => run (doXltTimeout_of_taken again),
      fun m e t failed => run (doXltTimeout_of_taken failed), fun aside => back (if_pos aside),
      fun usable => back (if_neg (Bool.eq_false_iff.mp usable))⟩
  case noFault => exact runs_of (exec_faultRecordWritten p e s) hl (doFaultRecordWritten_of_none no e)
  case fault => exact runs_of (exec_faultRecordWritten p e s) hl (doFaultRecordWritten_of_request hr ho e)
  case closed => exact runs_of (exec_windowWithdrawalComplete w s) hl (if_pos ⟨withdrawing, quiet⟩)
  case busy =>
    exact runs_of (exec_windowWithdrawalComplete w s) hl (if_neg fun h => Bool.eq_false_iff.mp used h.2)

end Sys2Proof.Machine

end

section

/- As above, one proof after another: proofs that wait for the kernel together pass the memory that the check allows. -/
set_option Elab.async false

/-! PROOFS. Invalidations, the fault queue's registers, the sticky flags and the import windows (10 R290, R291, R296 to R298, R303,
R305, R306; log entry 37). -/

namespace Sys2Proof.Machine

/-! ### Invalidations (10 R290, R291) -/

/-- A slot after its own update. -/
@[simp] theorem invOf_modInv_self (r : Nat) (f : InvSlot → InvSlot) (s : State) : invOf (modInv r f s) r = f (invOf s r) :=
  tabGet_tabMod_self ..

/-- Two updates of a slot in turn. -/
theorem modInv_modInv (r : Nat) (f g : InvSlot → InvSlot) (s : State) :
    modInv r f (modInv r g s) = modInv r (fun i => f (g i)) s := by
  simp only [modInv, tabMod_tabMod]

section
variable {s : State} {r par : Nat} {v : Word}

/-- A reserved bit that is set gives MALFORMED, whatever else the command says (10 R291). -/
theorem invCode_of_reserved (h : fld v 10 6 ≠ 0 ∨ fld v 17 47 ≠ 0) : invCode r par v s = stMalformed := if_pos h

/-- A well-formed command of the owner on an allocated context of a READY partition gives OK in a slot that is free. -/
theorem invCode_of_accepted {c : CtxNo} (h1 : fld v 10 6 = 0) (h2 : fld v 17 47 = 0) (hc : fld v 0 10 = c.val)
    (ho : ownerOk (ctxPart s c) par = true) (hp : ∀ p, ctxPart s c = some p → (partOf s p).state = partReady)
    (hb : (invOf s r).busy = false) (hs : (ctxOf s c).state ≠ ctxFree) : invCode r par v s = stOk := by
  simp only [invCode, hc, Nat.mod_eq_of_lt c.isLt, h1, h2, ho, hb, hs, ne_eq, not_true, or_self, Bool.not_true,
    Bool.false_eq_true, if_false]
  refine if_neg ?_
  cases part : ctxPart s c with
  | none => exact Bool.false_ne_true
  | some p => simp [hp p part]

/-- A command that the checks refuse leaves its code in the slot and does nothing else. -/
theorem wrInvCmd_of_refused {k : Byte} (ho : slotOwner r par = true) (hk : invCode r par v s = k) (hn : k ≠ stOk) :
    wrInvCmd r par v 0xFF s = some (modInv r (fun i => { i with code := k }) s) := by
  simp only [wrInvCmd, ho, fieldEnabled_all, beMask_all, and_beMask_all, hk, hn, ne_eq, not_false_eq_true, Bool.not_true,
    Bool.false_eq_true, if_false, if_true]

/-- One that passes them takes the slot, removes the slot's span and completes where the old epoch has no uses. -/
theorem wrInvCmd_of_accepted {c : CtxNo} {t : State} (ho : slotOwner r par = true) (hk : invCode r par v s = stOk)
    (hc : fld v 0 10 = c.val) (ht : t = modInv r (fun i => { i with code := stOk, busy := true, ctx := c, irq := bitOf v.toNat 16 }) s) :
    wrInvCmd r par v 0xFF s = some (invComplete r (invalidateSpan c (invOf s r).addr (invOf s r).len.toNat t)) := by
  subst ht
  simp only [wrInvCmd, ho, fieldEnabled_all, beMask_all, and_beMask_all, hk, hc, Nat.mod_eq_of_lt c.isLt, Fin.eta, modInv_modInv,
    invOf_modInv_self, ne_eq, not_true, Bool.not_true, Bool.false_eq_true, if_false]

/-- A busy invalidation whose old uses have ended completes, and without IRQ no vector hears of it. -/
theorem invComplete_of_ended (hb : (invOf s r).busy = true) (hu : (ctxOf s (invOf s r).ctx).usesOld = 0) (hi : (invOf s r).irq = false) :
    invComplete r s = modInv r (fun i => { i with busy := false, doneSeq := i.doneSeq + 1 }) s := by
  simp only [invComplete, hb, hu, hi, and_self, if_true]

/-- Any other slot stays as it is. -/
theorem invComplete_of_not (h : (invOf s r).busy = false ∨ (ctxOf s (invOf s r).ctx).usesOld ≠ 0) : invComplete r s = s :=
  if_neg fun ⟨busy, ended⟩ => h.elim (fun free => by simp [free] at busy) (· ended)

end

/-! ### The fault queue and the sticky flags (10 R296 to R298) -/

section
variable {s : State} {p : PartNo} {v : Word}

/-- With byte 0 enabled XLT_FQ_CFG sets FQ_LOG2 and empties the queue, and the records that wait are counted as overflow. -/
theorem wrFqCfg_of_priv {be : BitVec 8} (hb : be.getLsbD 0 = true) : wrFqCfg p parPriv v be s = some
    (modFq p (fun f => { f with log2 := BitVec.ofNat 5 (fld v 0 5), head := 0, tail := 0, overflowed := false })
      ((fqOf s p).writing.foldl (fun t x => overflowFault p x.1 t) (dropFaults p s))) := if_pos hb

/-- The owner moves HEAD by a write of all bytes, up to TAIL. -/
theorem wrFqPtrs_of_within {par : Nat} {h : BitVec 32} (ho : fqOwner p par = true) (hh : h = v.setWidth 32)
    (hw : (h - (fqOf s p).head).toNat ≤ ((fqOf s p).tail - (fqOf s p).head).toNat) : wrFqPtrs p par v 0xFF s =
      some (modFq p (fun f => { f with head := h, overflowed := f.overflowed && h != f.tail }) s) := by
  subst hh
  have touched : fieldTouched 0xFF 0 32 = true := by decide
  simp only [wrFqPtrs, ho, touched, mergeBytes_all, Bool.not_true, Bool.false_eq_true, if_false]
  exact if_pos hw

end

/-- Settles O29: a register command by the write of its register, an invalidation's end by whether it is busy and the old epoch is
still in use. -/
theorem translationRegisters : Obligations.TranslationRegisters := by
  refine ⟨fun s t u r c a h ho hb h1 h2 hc hp hr hf hs ht hu => ?accepted, fun s r a h ho hb hv => ?reserved,
    fun s r hl hb hu hi => runs_of (exec_invalidateComplete r s) hl (invComplete_of_ended hb hu hi),
    fun s r hl no => runs_of (exec_invalidateComplete r s) hl (invComplete_of_not no),
    fun s p a h hb => ?config, fun s p n a h ho hb hn hw => ?pointers, fun s w a h => ?sticky⟩
  case accepted =>
    refine runs_write (exec_invalidate r a s) h (readReg_invCmd r s) (by simp [offWinData]; omega) ?_
    rw [wrAt_invCmd, hb, wrInvCmd_of_accepted ho (invCode_of_accepted h1 h2 hc hp hr hf hs) hc ht, hu]
  case reserved =>
    refine runs_write (exec_invalidate r a s) h (readReg_invCmd r s) (by simp [offWinData]; omega) ?_
    rw [wrAt_invCmd, hb, wrInvCmd_of_refused ho (invCode_of_reserved hv) (by decide)]
  case config =>
    refine runs_write (exec_xltFqCfg p a s) (hostWrite_mayWrite h) (readReg_fqCfg p s) (by simp [offWinData]; omega) ?_
    rw [wrAt_fqCfg, h.who]
    exact wrFqCfg_of_priv hb
  case pointers =>
    refine runs_write (exec_xltFqPtrs p a s) h (readReg_fqPtrs p s) (by simp [offWinData]; omega) ?_
    rw [wrAt_fqPtrs, hb, wrFqPtrs_of_within ho hn hw]
  case sticky =>
    refine runs_write (exec_xltSticky w a s) h (readReg_sticky w s) (by simp [offWinData]; omega) ?_
    rw [wrAt_sticky]
    rfl

/-! ### Import windows (10 R303, R305, R306) -/

section
variable {s : State} {w par : Nat} {v : Word} {be : BitVec 8} (ho : ownerOk (winPart s w) par = true) (hb : be.getLsbD 0 = true)
include ho hb

/-- ENABLE of a DISABLED window that passes the checks of R305 opens it, for a READY partition, with the fields written. -/
theorem wrWinCtrl_enables {y : Window} {p : PartNo} (hs : (winOf s w).state = winDisabled) (hp : winPart s w = some p)
    (hr : (partOf s p).state = partReady) (he : bitOf v.toNat 2 = true) (hw : bitOf v.toNat 3 = false)
    (hy : y = { winOf s w with rights := BitVec.ofNat 3 (fld v 4 3), counter := bitOf v.toNat 7 }) (hk : winEnableOk s w y = true) :
    wrWinCtrl w par v be s = some (modWin w (fun _ => { y with state := winEnabled }) s) := by
  subst hy
  refine (if_neg (by simp [ho])).trans ((if_neg (by rw [hb]; decide)).trans ((if_pos hs).trans ?_))
  refine (if_neg (Bool.eq_false_iff.mp hw)).trans ((if_pos he).trans (if_pos (Bool.and_eq_true_iff.mpr ⟨hk, ?ready⟩)))
  simp [hp, hr]

/-- WITHDRAW of an ENABLED window begins its withdrawal, and writes neither RIGHTS nor KIND (log entry 37). -/
theorem wrWinCtrl_withdraws (hs : (winOf s w).state = winEnabled) (hw : bitOf v.toNat 3 = true) (he : bitOf v.toNat 2 = false) :
    wrWinCtrl w par v be s = some (modWin w (fun x => { x with state := winWithdrawing }) s) := by
  have enabled : winEnabled ≠ winDisabled := by decide
  simp only [wrWinCtrl, ho, hb, hs, hw, he, enabled, BEq.rfl, Bool.not_true, Bool.not_false, Bool.and_self, Bool.false_eq_true, if_false,
    if_true]

end

/-- The withdrawal of a window that is not WITHDRAWING has no end. -/
theorem doWindowDone_of_not {s : State} {w : Nat} (h : (winOf s w).state ≠ winWithdrawing) : doWindowDone w s = s := if_neg fun c => h c.1

/-- Settles O30: ENABLE and WITHDRAW are writes of one register, told apart by the window's state.  That WITHDRAW leaves RIGHTS and
KIND as they are, whatever it carries in them, is the model's choice (log entry 37). -/
theorem importWindowsOpenAndClose : Obligations.ImportWindowsOpenAndClose := by
  refine ⟨fun s w y p a h ho hb hs hp hr he hw hy hk => ?enable, fun s w a h ho hb hs hw he => ?withdraw,
    fun s w hl hs => runs_of (exec_windowWithdrawalComplete w s) hl (doWindowDone_of_not hs)⟩
  case enable =>
    refine runs_write (exec_enable w a s) h (readReg_winCtrl w s) (by simp [offWinData]; omega) ?_
    rw [wrAt_winCtrl, wrWinCtrl_enables ho hb hs hp hr he hw hy hk]
  case withdraw =>
    refine runs_write (exec_withdraw w a s) h (readReg_winCtrl w s) (by simp [offWinData]; omega) ?_
    rw [wrAt_winCtrl, wrWinCtrl_withdraws ho hb hs hw he]

end Sys2Proof.Machine

end

section

/- As above, one proof after another: proofs that wait for the kernel together pass the memory that the check allows. -/
set_option Elab.async false

/-! PROOFS. COLL_OPEN, COLL_CONT, COLL_CREDIT and COLL_ABORT: the sub-ring or the plan that a message is for, and what it does there
(11 R321, R322, R324, R325, R328; log entries 14, 83, 90). -/

namespace Sys2Proof.Machine

/-! ### COLL_OPEN (11 R324, R325) -/

/-- The sub-rings that a COLL_OPEN may be for: those of running plans with its COLL_ID and PKEY, in its direction, class and axis, whose
upstream member sent it. -/
def openRings (s : State) (m : Msg) : List (Nat × Nat × Nat) :=
  (ringsWith s ((plansWith s (m.tag.toNat % 2 ^ 16)).filter (fun k => (partRec s (planOf s k).part).key == m.pkey))
    (bitOf m.tail.toNat 2) (classOf m.flags) SubRing.up (srcEp m)).filter
      (fun x => (planAxes (planOf s x.1).defn).getD x.2.1 3 == bitsOf m.tail.toNat 0 2)

/-- The unbounded SEQ that the SEQ of a COLL_OPEN stands for on a sub-ring: the first one from the next piece to consume on. -/
def openSeq (x : SubRing) (m : Msg) : Nat := x.nextTake + (m.tag.toNat / 2 ^ 16 + 2 ^ 16 - x.nextTake % 2 ^ 16) % 2 ^ 16

/-- How far that is from the next piece to consume. -/
theorem openSeq_sub_nextTake (x : SubRing) (m : Msg) :
    openSeq x m - x.nextTake = (m.tag.toNat / 2 ^ 16 + 2 ^ 16 - x.nextTake % 2 ^ 16) % 2 ^ 16 := Nat.add_sub_cancel_left ..

section
variable {s : State} {a : Arrival} {m : Msg}

/-- A COLL_OPEN for no sub-ring is a mismatch. -/
theorem takeCollOpen_of_none (h : openRings s m = []) : takeCollOpen a m s = countMismatch s := by
  unfold openRings at h
  simp only [takeCollOpen, h]

section
variable {k l r : Nat} {rest : List (Nat × Nat × Nat)} (h : openRings s m = (k, l, r) :: rest)
include h

/-- One of another round is stale. -/
theorem takeCollOpen_of_otherRound (hr : BitVec.ofNat 8 (bitsOf m.tail.toNat 8 8) ≠ (planOf s k).defn.round) :
    takeCollOpen a m s = countStale s := by
  unfold openRings at h
  simp only [takeCollOpen, h]
  exact if_pos hr

variable {x : SubRing} {seq : Nat} (hr : BitVec.ofNat 8 (bitsOf m.tail.toNat 8 8) = (planOf s k).defn.round)
  (hx : x = ringAt (planOf s k) l r) (hs : seq = openSeq x m)
include hr hx hs

/-- One of a piece that has been consumed, or that has landed, is a duplicate. -/
theorem takeCollOpen_of_landed (hd : 2 ^ 15 ≤ seq - x.nextTake ∨ x.pieces.any (fun v => v.seq == seq && landed v) = true) :
    takeCollOpen a m s = countDuplicate s := by
  subst hs hx
  rw [openSeq_sub_nextTake] at hd
  unfold openRings at h
  simp only [takeCollOpen, h]
  exact (if_neg (not_not_intro hr)).trans (if_pos hd)

/-- One of a piece that may come, of the length that the schedule gives, lands. -/
theorem takeCollOpen_of_scheduled {size : Nat} (hn : seq - x.nextTake < 2 ^ 15)
    (ho : x.pieces.any (fun v => v.seq == seq && landed v) = false) (hg : seq < x.given)
    (he : expectedSize (planOf s k) l r seq = some size) (hf : 4096 * m.attr.toNat < size)
    (hl : m.length.toNat = min 4096 (size - 4096 * m.attr.toNat)) :
    takeCollOpen a m s = landOpen k l r seq size (arrivalPort a) m s := by
  subst hs hx
  rw [openSeq_sub_nextTake] at hn
  unfold openRings at h
  simp only [takeCollOpen, h]
  refine (if_neg (not_not_intro hr)).trans ((if_neg ?new).trans ((if_neg (Nat.not_le.mpr hg)).trans ?fits))
  case new => exact fun old => old.elim (Nat.not_le.mpr hn) (Bool.eq_false_iff.mp ho)
  case fits =>
    unfold openSeq at he
    simp only [he]
    exact if_pos ⟨hf, hl⟩

end

end

/-! ### COLL_CONT (11 R325; log entry 83) -/

section
variable {s : State} {m : Msg}

/-- A COLL_CONT for no sub-ring is a mismatch. -/
theorem takeCollCont_of_none (h : ringsWith s (plansWith s (m.tag.toNat % 2 ^ 16)) (bitOf m.tag.toNat 27) (classOf m.flags) SubRing.up
    (srcEp m) = []) : takeCollCont m s = countMismatch s := by
  simp only [takeCollCont, h]

/-- One of a piece that is landing, and that leaves no gap in its run, lands its bytes.  The run holds its first 192 bytes, since a
continuation's offset is no less. -/
theorem takeCollCont_of_landing {k l r off : Nat} {x : SubRing} {v : Piece}
    (h : ringsWith s (plansWith s (m.tag.toNat % 2 ^ 16)) (bitOf m.tag.toNat 27) (classOf m.flags) SubRing.up (srcEp m) = [(k, l, r)])
    (hx : x = ringAt (planOf s k) l r) (hv : x.pieces.find? (fun w => w.seq == seqOf32 x (bitsOf m.tag.toNat 22 5)) = some v)
    (hl : landed v = false) (hn : 1 ≤ m.aux.toNat) (hf : off = 192 + 224 * (m.aux.toNat - 1))
    (ho : off ≤ tabGet 0 v.runs (bitsOf m.tag.toNat 16 6)) :
    takeCollCont m s = landBytes k l r v.seq (bitsOf m.tag.toNat 16 6) off
      (m.data.take (min 224 (min 4096 (v.size - 4096 * bitsOf m.tag.toNat 16 6) - off))) s := by
  subst hx hf
  have opened : 192 ≤ tabGet 0 v.runs (bitsOf m.tag.toNat 16 6) := Nat.le_trans (Nat.le_add_right ..) ho
  simp only [takeCollCont, h, List.findSome?_cons, hv, hl, hn, ho, opened, decide_true, Bool.not_false, Bool.and_self, if_true]

end

/-! ### COLL_CREDIT and COLL_ABORT (11 R321, R322, R324, R328; log entries 14, 83, 90) -/

section
variable {s : State} {m : Msg}

/-- A COLL_CREDIT for no sub-ring is a mismatch. -/
theorem takeCollCredit_of_none (h : ringsWith s (plansWith s (m.tag.toNat % 2 ^ 16)) (bitOf m.aux.toNat 1) (classOf m.flags) SubRing.down
    (srcEp m) = []) : takeCollCredit m s = countMismatch s := by
  simp only [takeCollCredit, h]

/-- Any other is stale by its round, and otherwise raises the limit of the first sub-ring and frees what it covers. -/
theorem takeCollCredit_of_cons {k l r lim : Nat} {rest : List (Nat × Nat × Nat)} {x : SubRing}
    (h : ringsWith s (plansWith s (m.tag.toNat % 2 ^ 16)) (bitOf m.aux.toNat 1) (classOf m.flags) SubRing.down (srcEp m) =
      (k, l, r) :: rest) (hx : x = ringAt (planOf s k) l r)
    (hm : lim = max (x.oldest + (bitsOf m.aux.toNat 2 5 + 32 * bitsOf m.tag.toNat 24 8 + 8192 - x.oldest % 8192) % 8192) x.limit) :
    takeCollCredit m s =
      if BitVec.ofNat 8 (bitsOf m.tag.toNat 16 8) ≠ (planOf s k).defn.round then countStale s
      else touchRing k l r (modRing k l r (fun y => { y with
        opened := y.opened || bitOf m.aux.toNat 0, limit := lim
        oldest := max x.oldest (lim - (planOf s k).defn.slots)
        unacked := y.unacked.filter (fun o => decide (max x.oldest (lim - (planOf s k).defn.slots) ≤ o.seq))
        locals := y.locals.filter (fun t => match t.sent with
          | some q => decide (max x.oldest (lim - (planOf s k).defn.slots) ≤ q)
          | none => true) }) s) := by
  subst hx hm
  simp only [takeCollCredit, h] <;> rfl

/-- A COLL_ABORT of no neighbour of a plan is a mismatch. -/
theorem takeCollAbort_of_none (h : (plansWith s (m.tag.toNat % 2 ^ 16)).filter
    (fun k => (neighbours (planOf s k)).any (fun e => e.toNat == srcEp m)) = []) : takeCollAbort m s = countMismatch s := by
  simp only [takeCollAbort, h]

/-- Any other is stale by its round, and otherwise ends the first plan. -/
theorem takeCollAbort_of_cons {k : Nat} {rest : List Nat} (h : (plansWith s (m.tag.toNat % 2 ^ 16)).filter
    (fun k => (neighbours (planOf s k)).any (fun e => e.toNat == srcEp m)) = k :: rest) : takeCollAbort m s =
      if BitVec.ofNat 8 (bitsOf m.tag.toNat 16 8) ≠ (planOf s k).defn.round then countStale s
      else endPlan k stAborted (modPlan k (fun p => { p with abortCause := m.aux })
        (countHbx (fun h => { h with abortsRcvd := satInc h.abortsRcvd }) s)) := by
  simp only [takeCollAbort, h]

end

/-- Settles O52: a message by the sub-rings it may be for, then by its round, then by the piece it names.  Which bits of AUX and TAG hold
the halves of LIMIT, the match without a PKEY, and COLL_ABORT as the taker of reserved opcodes are the model's choices (log entries 90,
83 and 14). -/
theorem collectiveMessagesFindTheirSubRing : Obligations.CollectiveMessagesFindTheirSubRing := by
  refine ⟨fun s u a m xs h hxs => ?opens, fun s u a m h stray => ?noCont,
    fun s u a m k l r off x v h hxs hx hv hl hn hf ho => ?cont, fun s u a m xs h hxs => ?credit, fun s u a m ks h hc hks => ?abort,
    fun s u a m h hc => ?reserved⟩
  case opens =>
    subst hxs
    have run {w : State} : takeCollOpen a m u = w → Runs (.collOpen a m) s w := runs_arrival h rfl (exec_collOpen a m s)
    refine ⟨fun stray => run (takeCollOpen_of_none stray), fun k l r rest x seq found hx hs => ?_⟩
    exact ⟨fun other => run (takeCollOpen_of_otherRound found other), fun round old => run (takeCollOpen_of_landed found round hx hs old),
      fun size round near new given expected within length =>
        run (takeCollOpen_of_scheduled found round hx hs near new given expected within length)⟩
  case noCont => exact runs_arrival h rfl (exec_collCont a m s) (takeCollCont_of_none stray)
  case cont => exact runs_arrival h rfl (exec_collCont a m s) (takeCollCont_of_landing hxs hx hv hl hn hf ho)
  case credit =>
    subst hxs
    have run {w : State} : takeCollCredit m u = w → Runs (.collCredit a m) s w := runs_arrival h rfl (exec_collCredit a m s)
    exact ⟨fun stray => run (takeCollCredit_of_none stray), fun k l r rest x lim found hx hm =>
      ⟨fun other => run ((takeCollCredit_of_cons found hx hm).trans (if_pos other)),
        fun round => run ((takeCollCredit_of_cons found hx hm).trans (if_neg (not_not_intro round)))⟩⟩
  case abort =>
    subst hks
    have run {w : State} (hw : takeCollAbort m u = w) : Runs (.collAbort a m) s w :=
      runs_arrival h rfl (exec_collAbort a m s) ((congrFun (if_pos hc) u).trans hw)
    exact ⟨fun stray => run (takeCollAbort_of_none stray), fun k rest found =>
      ⟨fun other => run ((takeCollAbort_of_cons found).trans (if_pos other)),
        fun round => run ((takeCollAbort_of_cons found).trans (if_neg (not_not_intro round)))⟩⟩
  case reserved => exact runs_arrival h rfl (exec_collAbort a m s) (congrFun (if_neg hc) u)

end Sys2Proof.Machine

/-! PROOFS. Ring steps, credits, sent pieces, the attempts of Beaters, and the limits of a plan (11 R317, R318, R321, R322, R327; 12 R337,
R352 to R355; 15 R416; log entry 117). -/

namespace Sys2Proof.Machine

/-! ### Ring steps, credits and limits (11 R318, R322, R327; 15 R416) -/

section
variable {s : State} {k l r : Nat}

/-- An operation whose counters have come starts. -/
theorem doRingStep_of_ready (hp : (planOf s k).state = 2) (hl : l < levels (planOf s k).defn)
    (hr : (ringsOf (planOf s k).defn).contains r = true) (ho : (ringAt (planOf s k) l r).op < opCount (planOf s k).defn)
    (hs : (ringAt (planOf s k) l r).started = false) (hc : opReady s (planOf s k) l r = true) :
    doRingStep k l r s = touchRing k l r (modRing k l r (fun x => { x with started := true, sends := 0, takes := 0 }) s) :=
  if_pos ⟨hp, hl, hr, ho, hs, hc⟩

/-- Without a running plan, in an operation that has started, and until its counters have come none starts. -/
theorem doRingStep_of_not (h : (planOf s k).state ≠ 2 ∨ (ringAt (planOf s k) l r).started = true ∨ opReady s (planOf s k) l r = false) :
    doRingStep k l r s = s := by
  refine if_neg fun ⟨running, _, _, _, waits, ready⟩ => ?_
  rcases h with h | h | h
  · exact h running
  · exact Bool.false_ne_true (waits.symm.trans h)
  · exact Bool.false_ne_true (h.symm.trans ready)

/-- The credit of a sub-ring that holds no piece is repeated. -/
theorem doCreditRepeat_of_empty (hp : (planOf s k).state = 2) (hl : l < levels (planOf s k).defn)
    (hr : (ringsOf (planOf s k).defn).contains r = true) (he : (ringAt (planOf s k) l r).pieces = []) :
    doCreditRepeat k l r s = sendCredit k l r s := if_pos ⟨hp, hl, hr, he⟩

/-- Without a running plan, and while pieces are held, it is not. -/
theorem doCreditRepeat_of_not (h : (planOf s k).state ≠ 2 ∨ (ringAt (planOf s k) l r).pieces ≠ []) : doCreditRepeat k l r s = s :=
  if_neg fun ⟨running, _, _, empty⟩ => h.elim (· running) (· empty)

/-- A plan with a step limit ends at it. -/
theorem doStepLimit_of_limit (hp : (planOf s k).state = 2) (hn : (planOf s k).defn.stepLimit ≠ 0) :
    doStepLimit k s = endPlan k stTimeout (countHbx (fun h => { h with stepLimits := satInc h.stepLimits }) s) := if_pos ⟨hp, hn⟩

/-- Without a running plan, and without a limit, there is none to reach. -/
theorem doStepLimit_of_not (h : (planOf s k).state ≠ 2 ∨ (planOf s k).defn.stepLimit = 0) : doStepLimit k s = s :=
  if_neg fun ⟨running, limited⟩ => h.elim (· running) limited

/-- Without a running plan there is no fault stall. -/
theorem doFaultStall_of_not (h : (planOf s k).state ≠ 2) : doFaultStall k s = s := if_neg fun stalled => h stalled.1

/-- A fault stall is counted and logged, and halts the queue. -/
theorem doFaultStall_of_stalled {t : State} (hp : (planOf s k).state = 2) (hq : (queueOf s (planOf s k).queue).state = qSwitchedOut)
    (hf : (planOf s k).faulted ≠ [])
    (ht : t = logErr
      { cls := clsHang, sev := 3, part := (planOf s k).part, unitKind := 8, ctx := (planOf s k).ctx, queue := (planOf s k).queue, cause := 4 }
      { s with err := { s.err with faultStalls := satInc s.err.faultStalls } }) :
    doFaultStall k s = (haltByCommand (planOf s k).queue false t).getD t := by
  subst ht
  exact if_pos ⟨hp, hq, hf⟩

end

/-! ### Sent pieces (11 R321, R322; 12 R352, R354; log entry 117) -/

/-- A member's own piece goes out, with the bytes b and the watermark wm, in sub-ring r of level l whose present operation is a gather
where ag is set, of chunk c, and whose counts are those of x: its LOCAL slot is kept, and a gathering member gathers it. -/
def sendOwn (d : PlanDef) (x : SubRing) (k l r : Nat) (ag : Bool) (c : Nat) (b : List Byte) (wm : Word) (s : State) : State :=
  let t := sendOut k l r { seq := x.nextSend, wm := wm, ag := ag, bytes := b }
    (if staged d l ag = true then keepLocal k l r c x.sends x.nextSend s else s)
  opDone k l r (if ag = true then gatherOwn k l r c x.sends b t else t)

section
variable {s : State} {k l r : Nat}

/-- Without a running plan, without credit, and before the OPEN credit nothing is sent. -/
theorem doPieceSend_of_held (h : (planOf s k).state ≠ 2 ∨ (ringAt (planOf s k) l r).limit ≤ (ringAt (planOf s k) l r).nextSend ∨
    (ringAt (planOf s k) l r).opened = false) (w : WmObs) : doPieceSend k l r w s = s := by
  refine if_pos ?_
  rcases h with h | h | h
  · exact .inl h
  · exact .inr (.inr (.inr (.inl h)))
  · exact .inr (.inr (.inl h))

variable {x : SubRing} {ag : Bool} {c : Nat} {w : WmObs} (hp : (planOf s k).state = 2) (hx : x = ringAt (planOf s k) l r)
  (hs : x.started = true) (ho : x.opened = true) (hl : x.nextSend < x.limit) (ht : x.sends < opTotal (planOf s k) l r)
  (hc : opAt (planOf s k).defn x.op = (ag, c))
include hp hx hs ho hl ht hc

/-- The member's own pieces go first, each after the check of its sending watermark. -/
theorem doPieceSend_of_own {b : List Byte} {wm : Word} (hn : x.sends < piecesOf (planOf s k).defn l c)
    (hb : firstPiece s (planOf s k) l r ag c x.sends = some (b, wm)) :
    doPieceSend k l r w s = checkSending k x.nextSend w (sendOwn (planOf s k).defn x k l r ag c b wm) s := by
  subst hx
  simp only [doPieceSend, hc, hn, hb, if_true]
  exact if_neg (by simp [hp, hs, ho, hl, ht])

/-- Forwarded ones follow, which came with their watermark. -/
theorem doPieceSend_of_forwarded {o : OutPiece} {rest : List OutPiece} (hn : piecesOf (planOf s k).defn l c ≤ x.sends)
    (hr : x.ready = o :: rest) :
    doPieceSend k l r w s = opDone k l r (sendOut k l r o (modRing k l r (fun y => { y with ready := rest }) s)) := by
  subst hx
  simp only [doPieceSend, hc, Nat.not_lt.mpr hn, hr, if_false]
  exact if_neg (by simp [hp, hs, ho, hl, ht])

end

/-! ### The attempts of Beaters (12 R337, R352 to R355) -/

section
variable {s : State} {b : Nat} {rep : Bool} {o : BeatObs}

/-- A Beater without a job has no attempt to finish. -/
theorem beatDone_of_idle (h : (beaterOf s b).job = none) : beatDone b rep o s = s := by
  simp only [beatDone, h]

variable {j : BeatJob} (hj : (beaterOf s b).job = some j)
include hj

/-- A first attempt is not finished as a repeat, nor a repeat as a first attempt. -/
theorem beatDone_of_other (h : j.repeated ≠ rep) : beatDone b rep o s = s := by
  simp only [beatDone, hj]
  exact if_pos h

variable {t x : State} {v : Piece} (hr : j.repeated = rep) (ht : t = modBeater b (fun u => { u with job := none }) s)
  (hv : jobPiece t j = some v) (hx : x = if j.held.isSome = true then t else countBeat b j (v.size / 256) t)
include hr ht hv hx

/-- An operand that cannot be read ends the plan. -/
theorem beatDone_of_dataError (hd : o.dataError = true) : beatDone b rep o s = endPlan j.plan stDataError x := by
  subst ht hx hr
  simp only [beatDone, hj, hv, hd, ne_eq, not_true, if_true, if_false]

variable {y : List Byte} {j' : BeatJob} {i : Bool} {w : State} (hy : y = beatGave x (planOf x j.plan) j v o) (hd : o.dataError = false)
include hy hd

/-- An attempt that passes every check lets its piece be released. -/
theorem beatDone_of_passed (hc : beatCheck b j v o y x = (none, i, j', w)) : beatDone b rep o s = beatPassed j' v y w := by
  subst ht hx hr hy
  simp only [beatDone, hj, hv, hd, hc, ne_eq, not_true, Bool.false_eq_true, if_false]

/-- One that fails a check is repeated, and a repeat that fails ends the plan. -/
theorem beatDone_of_failed {f : CheckKind} (hc : beatCheck b j v o y x = (some f, i, j', w)) :
    beatDone b rep o s = if rep = true then lastingFail j'.plan b j'.seq f i w else beatRepeat b j' f i y w := by
  subst ht hx hr hy
  simp only [beatDone, hj, hv, hd, hc, ne_eq, not_true, Bool.false_eq_true, if_false]

end

/-- Settles O53: a step, a credit and a limit by the plan's state and the sub-ring's, a sent piece by whose it is, and an attempt by its
checks.  That PIECE_SEND judges the sending watermark of a member's own piece is the model's choice (log entry 117). -/
theorem ringStepsAndPiecesAdvance : Obligations.RingStepsAndPiecesAdvance := by
  refine ⟨fun s k l r hl running level ring => ?ring, fun s k l r hl idle => ?noPlan,
    fun s k l r w hl held => runs_of (exec_pieceSend k l ⟨r, w⟩ s) hl (doPieceSend_of_held (.inr held) w),
    fun s k l r x ag c hl running hx started opened credit left op => ?sends, fun s b o hl idle => ?noJob,
    fun s b o j hl hj => ?otherAttempt, fun s t x w b o j j' v y i chk hl hj ht hv hx hy => ?attempt,
    fun s t b j f i y ht => ?again, fun s k hl running => ?limits⟩
  case ring =>
    have step {t : State} : doRingStep k l r s = t → Runs (.ringStepStart k l r) s t := runs_of (exec_ringStepStart k l r s) hl
    have timer {t : State} : doCreditRepeat k l r s = t → Runs (.creditRepeatTimer k l r) s t :=
      runs_of (exec_creditRepeatTimer k l r s) hl
    exact ⟨fun more waits ready => step (doRingStep_of_ready running level ring more waits ready),
      fun no => step (doRingStep_of_not (.inr no)), fun empty => timer (doCreditRepeat_of_empty running level ring empty),
      fun held => timer (doCreditRepeat_of_not (.inr held))⟩
  case noPlan =>
    exact ⟨runs_of (exec_ringStepStart k l r s) hl (doRingStep_of_not (.inl idle)),
      runs_of (exec_creditRepeatTimer k l r s) hl (doCreditRepeat_of_not (.inl idle)),
      fun w => runs_of (exec_pieceSend k l ⟨r, w⟩ s) hl (doPieceSend_of_held (.inl idle) w),
      runs_of (exec_stepLimitExpiry k s) hl (doStepLimit_of_not (.inl idle)),
      runs_of (exec_faultStallExpiry k s) hl (doFaultStall_of_not idle)⟩
  case sends =>
    have send {t : State} (w : WmObs) : doPieceSend k l r w s = t → Runs (.pieceSend k l ⟨r, w⟩) s t :=
      runs_of (exec_pieceSend k l ⟨r, w⟩ s) hl
    refine ⟨fun b wm u t own piece ht => ?own, fun o rest w others ready => ?forwarded⟩
    case own =>
      have checked (w : WmObs) := send w (doPieceSend_of_own running hx started opened credit left op own piece)
      subst ht
      exact ⟨fun hu => hu ▸ checked .agree, fun hu => hu ▸ checked .transient, checked .lasting⟩
    case forwarded => exact send w (doPieceSend_of_forwarded running hx started opened credit left op others ready)
  case noJob =>
    exact ⟨runs_of (exec_beaterPieceDone b o s) hl (beatDone_of_idle idle), runs_of (exec_recomputeDone b o s) hl (beatDone_of_idle idle)⟩
  case otherAttempt =>
    exact ⟨fun again => runs_of (exec_beaterPieceDone b o s) hl (beatDone_of_other hj (by simp [again])),
      fun first => runs_of (exec_recomputeDone b o s) hl (beatDone_of_other hj (by simp [first]))⟩
  case attempt =>
    have done {z : State} : beatDone b false o s = z → Runs (.beaterPieceDone b o) s z := runs_of (exec_beaterPieceDone b o s) hl
    have redone {z : State} : beatDone b true o s = z → Runs (.recomputeDone b o) s z := runs_of (exec_recomputeDone b o s) hl
    refine ⟨fun unread => ⟨fun first => ?_, fun again => ?_⟩, fun read checks => ⟨fun passed => ?_, fun f failed => ?_⟩⟩
    · exact done (beatDone_of_dataError hj first ht hv hx unread)
    · exact redone (beatDone_of_dataError hj again ht hv hx unread)
    · subst passed
      exact ⟨fun first => done (beatDone_of_passed hj first ht hv hx hy read checks),
        fun again => redone (beatDone_of_passed hj again ht hv hx hy read checks)⟩
    · subst failed
      exact ⟨fun again => redone (beatDone_of_failed hj again ht hv hx hy read checks),
        fun first => done (beatDone_of_failed hj first ht hv hx hy read checks)⟩
  case again =>
    subst ht
    exact ⟨fun other => if_neg other, fun sending => if_pos sending⟩
  case limits =>
    exact ⟨fun limited => runs_of (exec_stepLimitExpiry k s) hl (doStepLimit_of_limit running limited),
      fun no => runs_of (exec_stepLimitExpiry k s) hl (doStepLimit_of_not (.inr no)),
      fun t out faulted ht => runs_of (exec_faultStallExpiry k s) hl (doFaultStall_of_stalled running out faulted ht)⟩

end Sys2Proof.Machine

end

section

/- As above, one proof after another: proofs that wait for the kernel together pass the memory that the check allows. -/
set_option Elab.async false

/-! PROOFS. A step runs the front command, and what no command changes: the queue, the time and the inputs (00 R3; 02 R28, R54, R63;
log entries 3, 6). -/

namespace Sys2Proof.Machine

/-- A step on a queue with a command at its front runs that command on the rest. -/
theorem step_of_pending_cons {s : State} {c : Instr} {rest : List Instr} (h : s.pending = c :: rest) :
    step s = exec c { s with pending := rest } := by
  simp only [step, h]

/-- Settles O1: the step takes the branch of a queue with a command at its front. -/
theorem stepTakesTheFrontCommand : Obligations.StepTakesTheFrontCommand := fun _ _ _ h => step_of_pending_cons h

/-- Whatever its effect, a command that acts by `act` leaves the queue and the inputs. -/
theorem act_keeps_inputs {f : State → State} {s t : State} (h : act f s = .next t) : t.pending = s.pending ∧ SameInputs s t := by
  unfold act at h
  injection h with h
  subst h
  split
  next => exact ⟨rfl, rfl⟩
  next => exact ⟨rfl, rfl⟩

/-- A pin event leaves the queue. -/
theorem exec_pinEvent_pending {c : Instr} {s t : State} (hp : pinEvent c = true) (h : exec c s = .next t) : t.pending = s.pending := by
  obtain rfl | ⟨a, low, rfl⟩ | rfl | rfl | rfl := pinEvent_eq_true hp
  · cases h
    rfl
  · cases h
    rw [doColdStart_eq]
    split <;> rfl
  · cases h
    unfold doPllLock
    split <;> rfl
  · cases h
    unfold doPllUnlock
    split <;> rfl
  · cases h
    cases hr : s.pins.rstColdN with
    | false => rw [doRailOut_of_cold hr]
    | true =>
      obtain ⟨-, -, -, hpending, -⟩ := doRailOut_keeps hr
      exact hpending

/-- Settles O6: a pin event sets only what the pins drive, and any other command acts by `act`, which puts back the queue and the
inputs.  That no command is given more than this to change is the model's choice (log entries 3 and 6). -/
theorem commandsLeaveQueueAndInputs : Obligations.CommandsLeaveQueueAndInputs := by
  intro c s t ht
  cases hp : pinEvent c with
  | true => exact ⟨exec_pinEvent_pending hp ht, fun no => by cases no⟩
  | false =>
    obtain ⟨f, hf⟩ := exec_is_act c s hp
    obtain ⟨hpending, hinputs⟩ := act_keeps_inputs (hf ▸ ht)
    exact ⟨hpending, fun _ => hinputs⟩

end Sys2Proof.Machine

/-! PROOFS. Sums of INT32 and INT64 pieces, granule by granule and element by element (12 R338, R344). -/

namespace Sys2Proof.Machine

/-! ### Numbers in byte strings -/

/-- A number past the first bytes is a number of the rest. -/
theorem numAt_drop (m off n : Nat) (l : List Byte) : numAt (l.drop m) off n = numAt l (m + off) n := by
  simp only [numAt, bytesAt, List.drop_drop]

/-- A number within the first of two strings. -/
theorem numAt_append_left {off n : Nat} {l : List Byte} (h : off + n ≤ l.length) (r : List Byte) :
    numAt (l ++ r) off n = numAt l off n := by
  unfold numAt bytesAt
  rw [List.drop_append_of_le_length (by omega), List.take_append_of_le_length (by rw [List.length_drop]; omega)]

/-- A number within the second of two strings. -/
theorem numAt_append_right {off n : Nat} {l : List Byte} (h : l.length ≤ off) (r : List Byte) :
    numAt (l ++ r) off n = numAt r (off - l.length) n := by
  simp only [numAt, bytesAt, List.drop_append, List.drop_eq_nil_of_le h, List.nil_append]

/-- A granule is the first 256 bytes of a piece that has as many. -/
theorem padTo_of_le {m : Nat} {l : List Byte} (h : m ≤ l.length) : padTo m l = l.take m := List.take_append_of_le_length h

/-! ### One granule -/

/-- The sum of two granules is a granule. -/
theorem length_addInts {n : Nat} (hn : n ∣ 256) (a b : List Byte) : (addInts n a b).length = 256 := by
  rw [addInts, length_flatten_upTo n _ (fun _ => length_leBytes ..), Nat.mul_div_cancel' hn]

/-- An element of the sum of two granules is the sum of their elements, modulo 2 to the element's width. -/
theorem numAt_addInts {n i : Nat} (hn : n ∣ 256) (hi : n * i < 256) (a b : List Byte) :
    numAt (addInts n a b) (n * i) n = (numAt a (n * i) n + numAt b (n * i) n) % 2 ^ (8 * n) := by
  have within : i < 256 / n := by
    obtain ⟨m, hm⟩ := hn
    have hpos : 0 < n := Nat.pos_of_ne_zero fun h => by simp [h] at hm
    rw [hm, Nat.mul_div_cancel_left _ hpos]
    exact Nat.lt_of_mul_lt_mul_left (hm ▸ hi)
  conv_lhs => rw [numAt, bytesAt, addInts, flatten_at n _ (fun _ => length_leBytes ..) _ i within, leNat_leBytes]

/-! ### A piece of granules -/

section
variable {d n : Nat} (h : (d = 11 ∧ n = 4) ∨ (d = 12 ∧ n = 8))
include h

/-- The elements of both formats divide a granule. -/
theorem intWidth_dvd : n ∣ 256 := by
  rcases h with ⟨-, rfl⟩ | ⟨-, rfl⟩ <;> decide

/-- The sum of two pieces is the sum of their first granules before that of the rest, and the granules report nothing. -/
theorem addPieces_int_succ (k : Nat) (a b : List Byte) : addPieces d (k + 1) a b =
    (addInts n (padTo 256 a) (padTo 256 b) ++ (addPieces d k (a.drop 256) (b.drop 256)).1, (addPieces d k (a.drop 256) (b.drop 256)).2) := by
  simp [addPieces, addGranule_int d n h, Specials.plus]

/-- The sum of pieces is as long as they are. -/
theorem length_addPieces_int (k : Nat) (a b : List Byte) : (addPieces d k a b).1.length = 256 * k := by
  induction k generalizing a b with
  | zero => rfl
  | succ k ih =>
    rw [addPieces_int_succ h, List.length_append, length_addInts (intWidth_dvd h), ih]
    omega

/-- An integer sum reports nothing. -/
theorem specials_addPieces_int (k : Nat) (a b : List Byte) : (addPieces d k a b).2 = {} := by
  induction k generalizing a b with
  | zero => rfl
  | succ k ih => rw [addPieces_int_succ h, ih]

/-- An element of the sum lies in the first granule or in the rest. -/
theorem numAt_addPieces_int (k i : Nat) (a b : List Byte) (ha : a.length = 256 * k) (hb : b.length = 256 * k) (hi : n * i < 256 * k) :
    numAt (addPieces d k a b).1 (n * i) n = (numAt a (n * i) n + numAt b (n * i) n) % 2 ^ (8 * n) := by
  have hn := intWidth_dvd h
  induction k generalizing i a b with
  | zero => omega
  | succ k ih =>
    have hl := length_addInts hn (padTo 256 a) (padTo 256 b)
    obtain ⟨m, hm⟩ := hn
    rw [addPieces_int_succ h]
    by_cases first : n * i < 256
    · have whole : n * i + n ≤ 256 := by
        have : i + 1 ≤ m := Nat.lt_of_mul_lt_mul_left (hm ▸ first)
        calc n * i + n = n * (i + 1) := rfl
          _ ≤ n * m := Nat.mul_le_mul_left n this
          _ = 256 := hm.symm
      rw [numAt_append_left (by omega), numAt_addInts ⟨m, hm⟩ first, padTo_of_le (by omega), padTo_of_le (by omega),
        numAt_take _ _ _ _ whole, numAt_take _ _ _ _ whole]
    · have later : m ≤ i := Nat.le_of_not_lt fun hlt => first (hm ▸ Nat.mul_lt_mul_of_pos_left hlt (by omega))
      obtain ⟨j, rfl⟩ := Nat.exists_eq_add_of_le later
      have shift : n * (m + j) = 256 + n * j := by rw [Nat.mul_add, ← hm]
      rw [shift] at hi ⊢
      rw [numAt_append_right (by omega), hl, Nat.add_sub_cancel_left,
        ih j _ _ (by rw [List.length_drop]; omega) (by rw [List.length_drop]; omega) (by omega), numAt_drop, numAt_drop]

end

/-- Settles O59: by induction on the granules, of which each adds its elements modulo 2 to their width. -/
theorem integerSumsWrap : Obligations.IntegerSumsWrap := fun _ _ k i a b h ha hb hi =>
  ⟨numAt_addPieces_int h k i a b ha hb hi, specials_addPieces_int h k a b, length_addPieces_int h k a b⟩

end Sys2Proof.Machine

/-! PROOFS. Interrupts: the messages that vectors make, the events that they hold, and the transfer of messages (14 R383 to R386, R399). -/

namespace Sys2Proof.Machine

/-! ### Messages (14 R383 to R385) -/

/-- A masked or disabled vector, and one that has a message waiting, makes none. -/
theorem tryMessage_of_not {s : State} {p v : PartNo} (h : (vecOf s p v).mask = true ∨ (vecOf s p v).addr = 0 ∨ msgHeld s p v = true) :
    tryMessage p v s = s := by
  refine if_neg ?_
  rcases h with h | h | h <;> simp [vecReady, h]

/-- A vector that may makes a message of all its pending events. -/
theorem tryMessage_of_ready {s : State} {p v : PartNo} (hr : vecReady (vecOf s p v) = true) (hh : msgHeld s p v = false) : tryMessage p v s =
    modVec p v (fun w => { w with pending := 0, cause := none, due := false }) { s with
      par := { s.par with messages := s.par.messages ++ [{
        addr := (vecOf s p v).addr, par := BitVec.ofNat 4 p, vec := v, events := (vecOf s p v).pending.toNat
        data := irqData (vecOf s p v) v }] } } :=
  if_pos (by simp [hr, hh])

/-- The oldest message of a partition that is not RESETTING transfers, and its vector may make the next. -/
theorem doInterruptTransfer_of_oldest {s : State} {l r : List IrqMsg} {m : IrqMsg} (hm : s.par.messages = l ++ m :: r)
    (hl : l.all (fun x => (partOf s x.par.toNat).state == partResetting) = true) (hr : (partOf s m.par.toNat).state ≠ partResetting) :
    doInterruptTransfer s = tryMessage ⟨m.par.toNat, m.par.isLt⟩ m.vec (modPart m.par.toNat (fun q => { q with sent := satInc q.sent })
      { s with par := { s.par with messages := l ++ r }, out := { s.out with irq := some m } }) := by
  have resetting : ∀ x ∈ l, (partOf s x.par.toNat).state = partResetting := by simpa using hl
  have oldest : s.par.messages.find? (fun x => (partOf s x.par.toNat).state != partResetting) = some m := by
    rw [hm, List.find?_append, List.find?_eq_none.mpr (by simpa using resetting)]
    simp [hr]
  have others : s.par.messages.erase m = l ++ r := by
    rw [hm, List.erase_append_right _ fun h => hr (resetting m h), List.erase_cons_head]
  simp only [doInterruptTransfer, oldest, others]

/-- With none there is no transfer. -/
theorem doInterruptTransfer_of_none {s : State} (h : s.par.messages.all (fun x => (partOf s x.par.toNat).state == partResetting) = true) :
    doInterruptTransfer s = s := by
  have waiting : s.par.messages.find? (fun x => (partOf s x.par.toNat).state != partResetting) = none :=
    List.find?_eq_none.mpr (by simpa using h)
  simp only [doInterruptTransfer, waiting]

/-- Settles O46: a transfer by the messages that wait, a time limit by the vector's events and TIME_US, and a message by R383. -/
theorem interruptMessagesTransferInOrder : Obligations.InterruptMessagesTransferInOrder := by
  refine ⟨fun s l r m hl hy hm held hr => ?transfer, fun s hl no => ?noTransfer, fun s p v hl => ⟨fun no => ?noLimit, fun hp ht => ?limit⟩,
    fun s p v => tryMessage_of_not, fun s p v x hx hr hh => ?message⟩
  case transfer => exact runs_onlyIf (exec_interruptMessageTransfer s) hl (by rw [if_pos hy, doInterruptTransfer_of_oldest hm held hr])
  case noTransfer =>
    refine runs_onlyIf (exec_interruptMessageTransfer s) hl ?_
    rcases no with early | resetting
    · rw [if_neg (by simp [early])]
    · rw [doInterruptTransfer_of_none resetting, ite_self]
  case noLimit => exact runs_of (exec_interruptTimeLimit p v s) hl (if_pos no)
  case limit => exact runs_of (exec_interruptTimeLimit p v s) hl (if_neg (not_or.mpr ⟨hp, ht⟩))
  case message => subst hx; exact tryMessage_of_ready hr hh

/-! ### Events (14 R383, R386) -/

/-- A counter that is not full counts one. -/
theorem toNat_satInc {n : Nat} {c : BitVec n} (h : c.toNat + 1 < 2 ^ n) : (satInc c).toNat = c.toNat + 1 := by
  rw [satInc, satAdd, Nat.min_eq_left (by omega), BitVec.toNat_ofNat, Nat.mod_eq_of_lt h]

/-- An event is counted as dropped by a disabled vector; any other vector adds it to PENDING, and may make its message. -/
theorem irqEvent_cases (p v : PartNo) (cause : BitVec 4) (s : State) :
    ((vecOf s p v).addr = 0 ∧ ∃ f g, (∀ w, (f w).pending = w.pending) ∧ irqEvent p v cause s = modPart p g (modVec p v f s)) ∨
    ((vecOf s p v).addr ≠ 0 ∧ ∃ f, (∀ w, (f w).pending = satInc w.pending) ∧ irqEvent p v cause s = tryMessage p v (modVec p v f s)) := by
  by_cases h : (vecOf s p v).addr = 0
  · exact .inl ⟨h, _, _, by intro w; rfl, if_pos h⟩
  · exact .inr ⟨h, _, by intro w; rfl, if_neg h⟩

section
variable (p v q w : PartNo) (f : Vector → Vector) (s : State)

/-- A vector's update leaves the messages. -/
@[simp] theorem modVec_messages : (modVec p v f s).par.messages = s.par.messages := rfl

/-- What a vector holds besides its messages is PENDING. -/
theorem eventsHeld_modVec_self : eventsHeld (modVec p v f s) p v + (vecOf s p v).pending.toNat =
    eventsHeld s p v + (f (vecOf s p v)).pending.toNat := by
  simp only [eventsHeld, vecOf_modVec_self, modVec_messages]
  omega

/-- Another vector holds what it held. -/
theorem eventsHeld_modVec_ne (h : q ≠ p ∨ w ≠ v) : eventsHeld (modVec p v f s) q w = eventsHeld s q w := by
  simp only [eventsHeld, vecOf_modVec_ne p v q w f s h, modVec_messages]

/-- It has the messages that it had. -/
theorem messagesOf_modVec : messagesOf (modVec p v f s) q w = messagesOf s q w := rfl

/-- A partition's counters are no part of what its vectors hold. -/
theorem eventsHeld_modPart (g : Partition → Partition) : eventsHeld (modPart p g s) q w = eventsHeld s q w := rfl

/-- They are no part of its messages either. -/
theorem messagesOf_modPart (g : Partition → Partition) : messagesOf (modPart p g s) q w = messagesOf s q w := rfl

end

/-- Whether a message is of a vector. -/
theorem isMessageOf_iff {m : IrqMsg} {p v : PartNo} (hp : m.par = BitVec.ofNat 4 p) (hv : m.vec = v) (q w : PartNo) :
    (m.par.toNat == q.val && m.vec == w) = true ↔ p = q ∧ v = w := by
  rw [hp, toNat_partNo, hv]
  simp [Fin.ext_iff]

/-- A vector without a message waiting has none. -/
theorem messagesOf_eq_zero {s : State} {p v : PartNo} (h : msgHeld s p v = false) : messagesOf s p v = 0 := by
  unfold messagesOf
  rw [List.length_eq_zero_iff, List.filter_eq_nil_iff]
  simpa [msgHeld, Fin.ext_iff] using h

section
variable (p v q w : PartNo) (s : State)

/-- A message holds the events that were pending. -/
theorem eventsHeld_tryMessage : eventsHeld (tryMessage p v s) q w = eventsHeld s q w := by
  obtain same | ⟨-, m, hp, hv, he, made⟩ := tryMessage_cases p v s
  · rw [same]
  · rw [made]
    by_cases own : p = q ∧ v = w
    · obtain ⟨rfl, rfl⟩ := own
      have mine := (isMessageOf_iff hp hv p v).mpr ⟨rfl, rfl⟩
      simp only [eventsHeld, vecOf_modVec_self]
      simp [modVec, mine, he, Nat.add_comm]
    · have other := mt (isMessageOf_iff hp hv q w).mp own
      rw [eventsHeld_modVec_ne p v q w _ _ (by rw [← not_and_or]; exact fun e => own ⟨e.1.symm, e.2.symm⟩)]
      simp only [eventsHeld, List.filter_append, List.filter_cons, List.filter_nil, if_neg other, List.append_nil]
      rfl

/-- A vector makes a message only when it has none. -/
theorem messagesOf_tryMessage (h : messagesOf s q w ≤ 1) : messagesOf (tryMessage p v s) q w ≤ 1 := by
  obtain same | ⟨free, m, hp, hv, -, made⟩ := tryMessage_cases p v s
  · rwa [same]
  · rw [made, messagesOf_modVec, messagesOf, List.filter_append, List.length_append]
    change messagesOf s q w + _ ≤ 1
    by_cases own : p = q ∧ v = w
    · obtain ⟨rfl, rfl⟩ := own
      have := messagesOf_eq_zero free
      have := List.length_filter_le (fun m => m.par.toNat == p.val && m.vec == v) [m]
      rw [List.length_singleton] at this
      omega
    · simpa [List.filter_cons, mt (isMessageOf_iff hp hv q w).mp own] using h

end

/-- Settles O47: an event changes PENDING of its own vector, and the message that may follow moves what is pending. -/
theorem noInterruptEventIsLost : Obligations.NoInterruptEventIsLost := by
  intro s p v cause
  obtain ⟨disabled, f, g, hf, he⟩ | ⟨enabled, f, hf, he⟩ := irqEvent_cases p v cause s <;> rw [he]
  case inl =>
    have held := eventsHeld_modVec_self p v f s
    rw [hf] at held
    simp only [eventsHeld_modPart, messagesOf_modPart, messagesOf_modVec]
    exact ⟨fun no => absurd disabled no, fun _ => Nat.add_right_cancel held, fun q w h => eventsHeld_modVec_ne p v q w f s h,
      fun q w h => h⟩
  case inr =>
    have held := eventsHeld_modVec_self p v f s
    rw [hf] at held
    simp only [eventsHeld_tryMessage]
    refine ⟨fun _ room => ?_, fun no => absurd no enabled, fun q w h => eventsHeld_modVec_ne p v q w f s h,
      fun q w h => messagesOf_tryMessage p v q w _ h⟩
    rw [toNat_satInc room] at held
    omega

end Sys2Proof.Machine

/-! PROOFS. A register write is performed, refused or unmapped (14 R381; 17 R458 to R460, R464). -/

namespace Sys2Proof.Machine

/-- A write of a known requester at an unassigned offset is answered UNMAPPED and recorded (17 R459, R460). -/
theorem cmdWrite_unmapped {off : Nat} {a : RegAcc} {s : State} (h : MayWrite a s) (hr : readReg off s = none) :
    cmdWrite off a s = answered 2 { s with access :=
      { count := satInc s.access.count, offset := BitVec.ofNat 24 off, par := a.par, kind := 2, wasWrite := true } } := by
  obtain ⟨known, -⟩ := mayWrite_requester h
  simp [cmdWrite, writeReg, known, h.ready.2, hr, unmappedAccess, recordErr, answered, rspUnmapped, akUnassigned]

/-- Before ready every write is refused, and one of no requester always is (02 R43, R45; 17 R460). -/
theorem cmdWrite_unready {off : Nat} {a : RegAcc} {s : State} (h : s.pins.ready = false ∨ noRequester a.par.toNat = true) :
    cmdWrite off a s = answered 1 { s with access :=
      { count := satInc s.access.count, offset := BitVec.ofNat 24 off, par := a.par, kind := 1, wasWrite := true } } := by
  have refused : writeReg false off a.par.toNat a.value a.be s = refuseAccess off a.par.toNat true s := by
    unfold writeReg
    split
    · rfl
    next known => exact if_pos (by simp [h.resolve_right known])
  simp [cmdWrite, refused, refuseAccess, recordErr, answered, rspRefused, akRefused]

/-- CMD_REQ_PAR names no requester when it is no partition and not privileged software (02 R43). -/
theorem noRequester_iff (a : RegAcc) : noRequester a.par.toNat = true ↔ 16 ≤ a.par.toNat ∧ a.par ≠ 0x1F := by
  have priv : a.par.toNat = parPriv ↔ a.par = 0x1F := by rw [BitVec.toNat_eq]; rfl
  simp [noRequester, priv]

/-- A 24-bit offset is VAT_WIN_DATA's when its number is. -/
theorem toNat_ne_offWinData {off : BitVec 24} (h : off ≠ 0xA00308) : off.toNat ≠ offWinData := fun e => h (BitVec.eq_of_toNat_eq e)

/-- Settles O24: each outcome is one of the write's checks, in their order. -/
theorem registerAccessesAreAnswered : Obligations.RegisterAccessesAreAnswered := by
  refine ⟨fun s t off a h hn hr hw => ?performed, fun s off a h hn hr hw => ?refused, fun s off a h hr => ?unmapped,
    fun s off a hl h => ?unready⟩
  all_goals have number : BitVec.ofNat 24 off.toNat = off := by simp
  case performed => exact runs_write (exec_registerWrite off a s) h hr (toNat_ne_offWinData hn) hw
  case refused =>
    exact runs_of (exec_registerWrite off a s) h.ready.1 (by rw [cmdWrite_refused h hr (toNat_ne_offWinData hn) hw, number])
  case unmapped => exact runs_of (exec_registerWrite off a s) h.ready.1 (by rw [cmdWrite_unmapped h hr, number])
  case unready =>
    exact runs_of (exec_registerWrite off a s) hl (by rw [cmdWrite_unready (h.imp_right (noRequester_iff a).mpr), number])

end Sys2Proof.Machine

/-! PROOFS. The Vat's window, the march test and the Beaters' self-test as registers (12 R356, R357; 13 R372, R374, R377; log entry 81). -/

namespace Sys2Proof.Machine

/-! ### The window (13 R377) -/

section
variable {s : State} {a : RegAcc}

/-- Without an armed injection a write into the Vat is as it is (15 R430). -/
theorem vatInject_of_none (h : s.err.inject = none) (x : Nat) : vatInject x s = (false, s) := by simp [vatInject, injecting, h]

/-- A permitted write of VAT_WIN_DATA merges its enabled bytes at the window address and advances it. -/
theorem cmdWrite_winData (h : MayWrite a s) (hi : s.err.inject = none) (hw : winAllowed a.par.toNat true s = true) :
    cmdWrite offWinData a s = answered 0 (winAccess true a.value a.be s).2 := by
  obtain ⟨known, serving⟩ := mayWrite_requester h
  have assigned : (readReg offWinData s).isNone = false := rfl
  have injected : ∀ x, vatInject x (winAccess true a.value a.be s).2 = (false, (winAccess true a.value a.be s).2) :=
    vatInject_of_none hi
  have moved : writeWindow a.par.toNat a.value a.be s = (rspDone, (winAccess true a.value a.be s).2) := by
    simp only [writeWindow, if_neg h.enabled, hw, injected, if_true]
  have written : writeReg false offWinData a.par.toNat a.value a.be s = (rspDone, (winAccess true a.value a.be s).2) := by
    simp [writeReg, known, serving, h.ready.2, assigned, moved]
  simp only [cmdWrite, written]
  rfl

/-- A permitted read of VAT_WIN_DATA is answered with what the window gives. -/
theorem cmdRead_winData (hy : s.pins.ready = true) (hp : noRequester a.par.toNat = false) (hw : winAllowed a.par.toNat false s = true) :
    cmdRead offWinData a.par s = { (winAccess false 0 0xFF s).2 with
      out := { (winAccess false 0 0xFF s).2.out with cmdRsp := { rdata := (winAccess false 0 0xFF s).1, err := 0 } } } := by
  obtain ⟨v, assigned⟩ := Option.isSome_iff_exists.mp (readReg_winData s)
  rw [← offWinData] at assigned
  simp [cmdRead, readAccess, hp, hy, assigned, readWindow, hw, rspDone]

/-- Where the window's contents are known a read gives the 8 bytes there. -/
theorem winAccess_read_known (h : winUnknown s = false) : winAccess false 0 0xFF s =
    (BitVec.ofNat 64 (leNat (Memory.readBytes s.vat.mem (8 * s.vat.winAddr.toNat) 8)),
      { s with vat := { s.vat with winAddr := s.vat.winAddr + 1 } }) := by
  simp [winAccess, h, winAddrOf, Nat.mul_comm]

/-- Where they are not it gives free bytes (log entry 81). -/
theorem winAccess_read_unknown (h : winUnknown s = true) : winAccess false 0 0xFF s =
    (BitVec.ofNat 64 (leNat (upTo 8 (fun k => Config.undefinedByte s.freeCtr k))),
      { s with freeCtr := s.freeCtr + 1, vat := { s.vat with winAddr := s.vat.winAddr + 1 } }) := by
  simp [winAccess, h, takeFree]

/-- A write puts the merged 8 bytes at the window address. -/
theorem winAccess_write (v : Word) (be : BitVec 8) : (winAccess true v be s).2 = { s with vat := { s.vat with
    mem := Memory.writeBytes s.vat.mem (8 * s.vat.winAddr.toNat)
      (leBytes 8 (mergeBytes (BitVec.ofNat 64 (leNat (Memory.readBytes s.vat.mem (8 * s.vat.winAddr.toNat) 8))) v be).toNat)
    winAddr := s.vat.winAddr + 1 } } := by
  simp [winAccess, winAddrOf, Nat.mul_comm, vatWrite]

end

/-! ### The tests (12 R356; 13 R372, R374) -/

/-- A write of VAT_MARCH with RUN starts a march test that may start. -/
theorem wrVatMarch_runs {s : State} {v : Word} {be : BitVec 8} (hd : s.fur.directed = true) (hb : be.getLsbD 0 = true)
    (hv : bitOf v.toNat 0 = true) (hm : marchAllowed (bitOf v.toNat 1) s = true) (par : Nat) : wrVatMarch par v be s =
      some (startMarch (bitOf v.toNat 1) { s with vat := { s.vat with mode := bitOf v.toNat 1 } }) := by
  simp [wrVatMarch, hd, hb, hv, hm]

/-- A write of BTR_SELFTEST by privileged software starts the self-test where it may be rerun. -/
theorem wrSelfTest_runs {s : State} {v : Word} {be : BitVec 8} (ha : selfTestAllowed s = true) (hb : be.getLsbD 0 = true)
    (hv : bitOf v.toNat 0 = true) : wrSelfTest parPriv v be s = some (startSelfTest s) := by
  simp [wrSelfTest, ha, hb, hv]

/-- Settles O31: the window by its access, and each test by the write of its register.  That a read gives free bytes where the engines
or a march test rewrite the window's contents is the model's choice (log entry 81). -/
theorem vatAndBeaterRegisters : Obligations.VatAndBeaterRegisters := by
  refine ⟨fun s a h => ?address, fun s a h hi hw => ?write, fun s a hr hp hw => ?read, fun s a h hd hb hv hm => ?march,
    fun s a h ha hb hv => ?selfTest⟩
  case address =>
    refine runs_write (exec_vatWinAddr a s) h (readReg_winAddr s) (by decide) ?_
    rw [wrAt_winAddr]
    rfl
  case write => exact runs_of (exec_vatWinData true a s) h.ready.1 ((cmdWrite_winData h hi hw).trans (by rw [winAccess_write]))
  case read =>
    have known : noRequester a.par.toNat = false := by
      rw [Bool.eq_false_iff, ne_eq, noRequester_iff]
      rintro ⟨high, other⟩
      exact hp.elim other (Nat.not_lt.mpr high)
    have answer := cmdRead_winData hr.2 known hw
    exact ⟨fun hu => runs_of (exec_vatWinData false a s) hr.1 (answer.trans (by rw [winAccess_read_known hu])),
      fun hu => runs_of (exec_vatWinData false a s) hr.1 (answer.trans (by rw [winAccess_read_unknown hu]))⟩
  case march =>
    exact runs_hostWrite (exec_vatMarch a s) h (readReg_vatMarch s) (by decide) wrAt_vatMarch (wrVatMarch_runs hd hb hv hm _)
  case selfTest =>
    refine runs_write (exec_btrSelftest a s) (hostWrite_mayWrite h) (readReg_selfTest s) (by decide) ?_
    rw [wrAt_selfTest, h.who]
    exact wrSelfTest_runs ha hb hv

end Sys2Proof.Machine

/-! PROOFS. Partition and engine-domain resets as registers, and IRQ_VEC_CTRL (14 R383, R398, R400). -/

namespace Sys2Proof.Machine

/-- A partition that may be reset is, and LAST_CODE says OK. -/
theorem orderPartReset_of_ok {s : State} {p : PartNo} (h : partResetOk p s = true) :
    orderPartReset p s = (stOk, startPartReset p (modPart p (fun q => { q with lastCode := stOk }) s)) := by
  simp only [orderPartReset, h, if_true]

/-- Another is not, and LAST_CODE says STATE_REFUSED. -/
theorem orderPartReset_of_not {s : State} {p : PartNo} (h : partResetOk p s = false) :
    orderPartReset p s = (stStateRefused, modPart p (fun q => { q with lastCode := stStateRefused }) s) := by
  have code : ¬stStateRefused = stOk := by decide
  simp only [orderPartReset, h, Bool.false_eq_true, if_false, code]

/-- PAR_STATE with RESET orders the partition's reset. -/
theorem wrParState_resets {be : BitVec 8} {v : Word} (hb : be.getLsbD 0 = true) (hv : bitOf v.toNat 2 = true) (p : PartNo) (par : Nat)
    (s : State) : wrParState p par v be s = some (orderPartReset p s).2 := by
  simp only [wrParState, hb, hv, Bool.and_self, if_true]

/-- PAR_CTRL with ENGINE_RESET orders the engine domain's. -/
theorem wrParCtrl_resets {be : BitVec 8} {v : Word} (hb : be.getLsbD 0 = true) (hv : bitOf v.toNat 0 = true) (par : Nat) (s : State) :
    wrParCtrl par v be s = some (orderEngineReset s).2 := by
  simp only [wrParCtrl, hb, hv, Bool.and_self, if_true]

/-- An engine-domain reset starts outside P3 while none is under way. -/
theorem orderEngineReset_of_ok {s : State} (hb : s.par.engineBusy = false) (h3 : inP3 s = false) :
    orderEngineReset s = (stOk, startEngineReset { s with par := { s.par with lastCode := stOk.setWidth 4 } }) := if_neg (by simp [hb, h3])

/-- It is refused otherwise. -/
theorem orderEngineReset_of_not {s : State} (h : s.par.engineBusy = true ∨ inP3 s = true) :
    orderEngineReset s = (stStateRefused, { s with par := { s.par with lastCode := stStateRefused.setWidth 4 } }) := if_pos h

/-- The owner writes IRQ_VEC_CTRL, TAG only when it is privileged software; then the vector's message is made when R383 lets it. -/
theorem wrVecCtrl_of_owner {s : State} {p v : PartNo} {par : Nat} {be : BitVec 8} (ho : ownerOk (some p) par = true)
    (ht : par = parPriv ∨ fieldTouched be 0 16 = false) (x : Word) : wrVecCtrl p v par x be s =
      some (tryMessage p v (modVec p v (fun t => { t with
        tag := BitVec.ofNat 16 (fld (mergeBytes (rdVecCtrl t) x be) 0 16)
        thresh := BitVec.ofNat 8 (fld (mergeBytes (rdVecCtrl t) x be) 16 8)
        timeUs := BitVec.ofNat 12 (fld (mergeBytes (rdVecCtrl t) x be) 24 12)
        mask := bitOf (mergeBytes (rdVecCtrl t) x be).toNat 36 }) s)) := by
  refine if_neg ?_
  rcases ht with rfl | untouched
  · simp [ho]
  · simp [ho, untouched]

/-- Settles O32: each command is the write of its register, whose order is accepted or refused by the state. -/
theorem partitionAndInterruptRegisters : Obligations.PartitionAndInterruptRegisters := by
  refine ⟨fun s p a h hb hv => ?part, fun s a h hb hv => ?engines, fun s p v a h ho ht => ?vector⟩
  case part =>
    have run {t : State} (ht : (orderPartReset p s).2 = t) : Runs (.reset p a) s (answered 0 t) :=
      runs_hostWrite (exec_reset p a s) h (readReg_parState p s) (by simp [offWinData]; omega) (wrAt_parState p)
        ((wrParState_resets hb hv p _ s).trans (congrArg some ht))
    exact ⟨fun ok => run (by rw [orderPartReset_of_ok ok]), fun no => run (by rw [orderPartReset_of_not no])⟩
  case engines =>
    have run {t : State} (ht : (orderEngineReset s).2 = t) : Runs (.engineReset a) s (answered 0 t) :=
      runs_hostWrite (exec_engineReset a s) h (readReg_parCtrl s) (by decide) wrAt_parCtrl
        ((wrParCtrl_resets hb hv _ s).trans (congrArg some ht))
    exact ⟨fun free h3 => run (by rw [orderEngineReset_of_ok free h3]), fun no => run (by rw [orderEngineReset_of_not no])⟩
  case vector =>
    refine runs_write (exec_irqVecCtrl p v a s) h (readReg_vecCtrl p v s) (by simp [offWinData]; omega) ?_
    rw [wrAt_vecCtrl, wrVecCtrl_of_owner ho (ht.imp_left fun priv => by rw [priv]; rfl)]

end Sys2Proof.Machine

/-! PROOFS. ERR_CTRL, ERR_INJECT and the steward's mailbox as registers (00 R467; 15 R424, R425, R430; 16 R454; log entry 72). -/

namespace Sys2Proof.Machine

/-- A byte that is enabled enables a field that lies in it. -/
theorem fieldEnabled_byte {be : BitVec 8} {k : Nat} (h : be.getLsbD k = true) : fieldEnabled be (8 * k) 8 = true := by
  simp only [fieldEnabled, List.all_eq_true, Bool.or_eq_true, Bool.not_eq_true', Bool.and_eq_false_iff, decide_eq_false_iff_not]
  intro j _
  by_cases same : j = k
  · exact .inl (same ▸ h)
  · exact .inr (by omega)

section
variable {s t : State} {v : Word} {be : BitVec 8} {par : Nat}

/-- After ready a write of ERR_CTRL that would change INJECT_ENABLE is refused (00 R467). -/
theorem wrErrCtrl_of_locked (hy : s.pins.ready = true) (h : rwlChange 0xC00000 v be s = true) : wrErrCtrl par v be s = none :=
  if_pos (by simp [hy, h])

/-- Any other sets HANG_SCAN, INJECT_ENABLE and FAULT_STALL, and then runs what it orders: a drain, and then a capture. -/
theorem wrErrCtrl_of_unlocked (h : rwlChange 0xC00000 v be s = false) (hb : be.getLsbD 0 = true) {r : Word}
    (hr : r = mergeBytes (rdErrCtrl s.err) v be)
    (ht : t = { s with err := { s.err with
      hangScan := bitOf r.toNat 0, injectEnable := bitOf r.toNat 3, faultStallMs := BitVec.ofNat 16 (fld r 16 16) } }) :
    wrErrCtrl par v be s = some (onlyIf (bitOf v.toNat 2) (capture 6 .all 0) (onlyIf (bitOf v.toNat 1) (declareSuspect 4) t)) := by
  subst hr ht
  simp only [wrErrCtrl, h, hb, onlyIf, Bool.true_and, Bool.false_and, Bool.false_eq_true, if_false]

/-- Where injection is enabled a write of all bytes with ARM arms what it says, and COUNT 0 arms nothing (log entry 72). -/
theorem wrInject_arms (he : s.err.injectEnable = true) (hv : bitOf v.toNat 32 = true) {i : Inject}
    (hi : i = { kind := BitVec.ofNat 4 (fld v 0 4), unit := BitVec.ofNat 8 (fld v 8 8), left := fld v 16 16 }) : wrInject par v 0xFF s =
      some { s with err := { s.err with injectSet := i, inject := if i.left = 0 then none else some i } } := by
  subst hi
  have enabled : ∀ k < 8, (0xFF : BitVec 8).getLsbD k = true := by decide
  simp only [wrInject, enabled 0 (by decide), enabled 1 (by decide), enabled 4 (by decide), fieldEnabled_all, hv, he, Bool.and_self,
    Bool.not_true, Bool.and_false, Bool.false_eq_true, if_false, if_true]

/-- A mailbox that is not busy runs the command on as much of its payload as LENGTH says. -/
theorem wrMboxCmd_runs (hy : s.sec.mboxBusy = false) (h0 : be.getLsbD 0 = true) (h1 : be.getLsbD 1 = true) : wrMboxCmd parPriv v be s =
    some (mboxRespond (runMailbox (BitVec.ofNat 8 (fld v 0 8)) ((mboxBytes s).take (fld v 8 8)) s)) := by
  simp [wrMboxCmd, hy, h1, fieldEnabled_byte (k := 0) h0]

end

/-- Settles O33: each command is the write of its register.  That COUNT 0 arms no injection is the model's choice (log entry 72). -/
theorem errorAndMailboxRegisters : Obligations.ErrorAndMailboxRegisters := by
  refine ⟨fun s t a r h hw hb hr ht => ?control, fun s a h hw => ?locked, fun s a i h hb hv he hi => ?arm, fun s a h hy h0 h1 => ?mailbox⟩
  case control =>
    have written (par : Nat) := wrErrCtrl_of_unlocked (par := par) hw hb hr ht
    refine ⟨fun drain no => ?_, fun no take => ?_⟩
    · exact runs_hostWrite (exec_errCtrlDrain a s) h (readReg_errCtrl s) (by decide) wrAt_errCtrl (by rw [written, drain, no]; rfl)
    · exact runs_hostWrite (exec_captureNow a s) h (readReg_errCtrl s) (by decide) wrAt_errCtrl (by rw [written, take, no]; rfl)
  case locked =>
    have no : wrAt 0xC00000 a.par.toNat a.value a.be s = none := by
      rw [wrAt_errCtrl]
      exact privOnly_none (wrErrCtrl_of_locked h.ready.2 hw)
    exact runs_of (exec_errCtrlDrain a s) h.ready.1
      (cmdWrite_refused (hostWrite_mayWrite h) (readReg_errCtrl s) (by decide) no)
  case arm =>
    exact runs_hostWrite (exec_arm a s) h (readReg_inject s) (by decide) wrAt_inject (by rw [hb, wrInject_arms he hv hi])
  case mailbox =>
    have priv : a.par.toNat = parPriv := by rw [h.who]; rfl
    exact runs_hostWrite (exec_stwMboxCmd a s) h (readReg_mboxCmd s) (by decide) wrAt_mboxCmd (by rw [priv, wrMboxCmd_runs hy h0 h1])

end Sys2Proof.Machine

/-! PROOFS. Answers of the root of trust, requests it leaves silent, and the policy (02 R48; 16 R432, R433; log entry 60). -/

namespace Sys2Proof.Machine

/-- A badly framed message is logged. -/
theorem doResult_of_badFrame {m : RotMsg} (h : badFrame m = true) (s : State) : doResult m s = logRot 2 s := if_pos h

/-- A badly framed SET_POLICY is logged. -/
theorem doSetPolicy_of_badFrame {m : RotMsg} (h : badFrame m = true) (s : State) : doSetPolicy m s = logRot 2 s := if_pos h

/-- A good SET_POLICY sets the mask with bit 0, and is answered. -/
theorem doSetPolicy_of_good {m : RotMsg} (h : badFrame m = false) (s : State) : doSetPolicy m s = { s with
    sec := { s.sec with policy := BitVec.ofNat 6 (m.body.headD 0).toNat ||| 1, policySet := true }
    out := { s.out with rotResults := s.out.rotResults ++ [(m.tag, 0)] } } := if_neg (Bool.eq_false_iff.mp h)

section
variable {s : State} {m : RotMsg} (h : badFrame m = false)
include h

/-- A RESULT for no request is logged. -/
theorem doResult_of_none (hr : s.sec.rot.find? (fun r => r.tag == m.tag) = none) : doResult m s = logRot 0 s := by
  simp only [doResult, h, hr, Bool.false_eq_true, if_false]

/-- A RESULT for a request goes to its owner: the body with STATUS 0, a refusal with any other, of which 2 is logged. -/
theorem doResult_of_some {r : RotReq} (hr : s.sec.rot.find? (fun r => r.tag == m.tag) = some r) : doResult m s =
    rotDeliver r.owner (if m.status = 0 then .done m.body else .refused) (onlyIf (decide (m.status = 2)) (logRot 2) (rotRetire m.tag s)) := by
  simp only [doResult, h, hr, Bool.false_eq_true, if_false]

end

section
variable {s : State} {tag : BitVec 16} {r : RotReq}

/-- A silence about no request changes nothing. -/
theorem doRotTimeout_of_none (hr : s.sec.rot.find? (fun r => r.tag == tag) = none) : doRotTimeout tag s = s := by
  simp only [doRotTimeout, hr]

variable (hr : s.sec.rot.find? (fun r => r.tag == tag) = some r)
include hr

/-- VERIFY_IMAGE is not repeated: its first silence is its answer. -/
theorem doRotTimeout_of_neverRepeated (h : neverRepeated r.owner = true) :
    doRotTimeout tag s = rotDeliver r.owner .silent (rotRetire tag s) := by
  simp only [doRotTimeout, hr, h, if_true]

/-- The second silence of another request is lasting. -/
theorem doRotTimeout_of_repeated (h : neverRepeated r.owner = false) (h2 : r.repeated = true) : doRotTimeout tag s =
    rotDeliver r.owner .silent (rotRetire tag { s with sec := { s.sec with rotLasting := satInc s.sec.rotLasting } }) := by
  simp only [doRotTimeout, hr, h, h2, Bool.false_eq_true, if_false, if_true]

/-- Its first repeats it with a new TAG. -/
theorem doRotTimeout_of_first (h : neverRepeated r.owner = false) (h1 : r.repeated = false) : doRotTimeout tag s =
    { s with sec := { s.sec with
      rotRepeats := satInc s.sec.rotRepeats
      rot := s.sec.rot.map (fun q => if q.tag = tag then { q with tag := s.sec.rotTag, repeated := true } else q)
      rotTag := s.sec.rotTag + 1 } } := by
  simp only [doRotTimeout, hr, h, h1, Bool.false_eq_true, if_false]

end

end Sys2Proof.Machine

/-! PROOFS. Scrubbing, the ends of a march test and of the self-test, and the ends of resets (12 R357; 13 R371 to R374; 14 R399, R401). -/

namespace Sys2Proof.Machine

/-! ### Scrubbing and the ends of tests -/

/-- Nothing is scrubbed in P3 or during a march test. -/
theorem doScrubRow_of_not {s : State} (h : s.vat.state ≠ vatActive ∨ s.vat.busy = true) (es : List VatErr) : doScrubRow es s = s := if_pos h

/-- Otherwise the row is, and the next row follows it, row 0 the last one. -/
theorem doScrubRow_of_active {s t : State} {es : List VatErr} (ha : s.vat.state = vatActive) (hb : s.vat.busy = false)
    (ht : t = forEach es (vatError false s.vat.scrubRow) s) : doScrubRow es s = { t with vat := { t.vat with
      scrubRow := if decide (8191 ≤ s.vat.scrubRow) then 0 else s.vat.scrubRow + 1
      scrubPasses := if decide (8191 ≤ s.vat.scrubRow) then t.vat.scrubPasses + 1 else t.vat.scrubPasses } } := by
  subst ht
  exact if_neg (by simp [ha, hb])

/-- No march test ends that has not begun. -/
theorem doMarchComplete_of_idle {s : State} (h : s.vat.busy = false) (f : BitVec 50) (us : BitVec 16) : doMarchComplete f us s = s :=
  if_pos (by simp [h])

/-- A march test ends with the result of its kind. -/
theorem doMarchComplete_of_busy {s t : State} {f : BitVec 50} (h : s.vat.busy = true)
    (ht : t = (if s.vat.preserving = true then preservingResult f s else destructiveResult f s)) (us : BitVec 16) :
    doMarchComplete f us s = { t with vat := { t.vat with
      busy := false, preserving := false, passed := f == 0, lastUs := us, state := vatActive } } := by
  subst ht
  exact if_neg (by simp [h])

/-- A destructive march without a bank to repair leaves every byte zero. -/
theorem destructiveResult_mem {f : BitVec 50} (h : (banksIn f).filter (fun b => decide (b < 48)) = [] ∨ 3 ≤ (banksIn f).length)
    (s : State) : (destructiveResult f s).vat.mem = [] := by
  unfold destructiveResult
  split
  next => rfl
  next few =>
    rw [h.resolve_right few]
    rfl

/-- The end of a partition's reset, when what it waits for is over. -/
theorem doPartDrained_of_drained {s : State} {p : PartNo} (hs : (partOf s p).state = partResetting) (he : s.par.engineBusy = false)
    (hd : partDrained s p = true) :
    doPartDrained p s = endPartReset p (resetPartObjects p (clearPart p (invalidatePart p s))) := if_pos ⟨hs, he, hd⟩

/-- Before that nothing ends. -/
theorem doPartDrained_of_not {s : State} {p : PartNo}
    (h : (partOf s p).state ≠ partResetting ∨ s.par.engineBusy = true ∨ partDrained s p = false) : doPartDrained p s = s := by
  refine if_neg ?_
  rintro ⟨hs, he, hd⟩
  rcases h with h | h | h
  · exact h hs
  · rw [he] at h; cases h
  · rw [hd] at h; cases h

/-- An engine-domain reset ends when no access is under way. -/
theorem doEngineDrained_of_drained {s : State} (hb : s.par.engineBusy = true) (hr : s.memReqs = []) (hw : s.memWaiting = []) :
    doEngineDrained s = endEngineReset (clearEngines s) := if_pos ⟨hb, hr, hw⟩

/-- Without one, and while an access is under way, nothing ends. -/
theorem doEngineDrained_of_not {s : State} (h : s.par.engineBusy = false ∨ s.memReqs ≠ [] ∨ s.memWaiting ≠ []) : doEngineDrained s = s := by
  refine if_neg ?_
  rintro ⟨busy, reqs, waiting⟩
  rcases h with h | h | h
  · rw [busy] at h; cases h
  · exact h reqs
  · exact h waiting

end Sys2Proof.Machine

/-! PROOFS. The hang scan, the steward's heartbeat and watchdog, and the end of a drain (15 R410, R413, R414, R418 to R420, R426, R430;
log entries 73, 121). -/

namespace Sys2Proof.Machine

/-! ### The hang scan (15 R413, R414) -/

/-- Without HANG_SCAN nothing is scanned. -/
theorem doHangScan_of_off {s : State} (h : s.err.hangScan = false) : doHangScan s = s := if_pos (by simp [h])

/-- A scan judges the cycles of the blocked queues, and declares those that are positive for the third time. -/
theorem doHangScan_of_on {s : State} {bs : List Blocked} {cs : List (List Nat × Nat)} (h : s.err.hangScan = true) (hb : bs = blockedQueues s)
    (hc : cs = (cyclesOf bs).map (fun qs => (qs, judgeCycle s bs qs))) :
    doHangScan s = forEach ((cs.filter (fun c => decide (3 ≤ c.2))).map (·.1)) declareHang { s with err := { s.err with
      scans := s.err.scans + 1
      positive := satAdd s.err.positive (cs.filter (fun c => c.2 != 0)).length
      blocked := (bs.map (fun b => { b with positive := cycleCount cs b })).filter (fun b => decide (b.positive < 3)) } } := by
  subst hb hc
  exact if_neg (by simp [h])

/-! ### The steward (15 R410, R418 to R420) -/

section
variable {s t : State}

/-- A heartbeat of a steward that does not run, or that an injection suppresses, is not one. -/
theorem doHeartbeat_of_not (h : stewardUp s = false ∨ injectingHeartbeat s = true) : doHeartbeat s = s := by
  refine if_neg ?_
  rcases h with h | h <;> simp [h]

/-- Any other is noted where the steward's memory holds no such error. -/
theorem doHeartbeat_of_good (hu : stewardUp s = true) (hi : injectingHeartbeat s = false) (hr : readSteward s = (false, t)) :
    doHeartbeat s = { t with err := { t.err with heartbeatAt := t.nowUs } } := by
  simp [doHeartbeat, hu, hi, hr]

/-- Where it holds a lost or lasting one the steward restarts (log entry 121). -/
theorem doHeartbeat_of_error (hu : stewardUp s = true) (hi : injectingHeartbeat s = false) (hr : readSteward s = (true, t)) :
    doHeartbeat s = startRestart t := by
  simp [doHeartbeat, hu, hi, hr]

/-- The watchdog of a steward that does not run does not fire. -/
theorem doWatchdog_of_down (h : stewardUp s = false) : doWatchdog s = s := if_pos (by simp [h])

/-- A firing restarts the steward, and the third in the span holds it. -/
theorem doWatchdog_of_up (hu : stewardUp s = true) (hi : injectingHeartbeat s = false)
    (ht : t = { s with err := { s.err with firedAt := s.nowUs :: s.err.firedAt } }) : doWatchdog s =
      if 3 ≤ (t.err.firedAt.filter (fun a => decide (spanFrom t ≤ a))).length then holdSteward t else startRestart t := by
  subst ht
  simp [doWatchdog, onlyIf, hu, hi]

end

/-! ### The end of a drain (15 R426) -/

/-- A drain has ended when no tracker is held, and every run but those whose status record waits has (log entry 73). -/
theorem drainDone_iff (s : State) : drainDone s = true ↔ s.trk.trackers = [] ∧ s.cq.runs.all (fun r => r.statusWait.isSome) = true := by
  rw [drainDone, Bool.and_eq_true, List.isEmpty_iff]

/-- A drain that is under way and has ended is marked so, and the epoch advances. -/
theorem doDrainComplete_of_done {s : State} (h1 : s.err.drainState = 1) (hd : drainDone s = true) :
    doDrainComplete s = bumpEpoch { s with err := { s.err with drainState := 2 } } := if_pos ⟨h1, hd⟩

/-- Any other goes on. -/
theorem doDrainComplete_of_not {s : State} (h : s.err.drainState ≠ 1 ∨ drainDone s = false) : doDrainComplete s = s := by
  refine if_neg ?_
  rintro ⟨h1, hd⟩
  rcases h with h | h
  · exact h h1
  · rw [hd] at h; cases h

/-- Settles O56: each event by what waits for it.  The model's choices are that STATUS 2 has the outcome of a refusal and is logged (log
entry 60), that a drain waits for the runs too, but not for one whose status record waits (log entry 73), and the restart for an error in
the steward's memory (log entry 121). -/
theorem trustVatAndResetEvents : Obligations.TrustVatAndResetEvents := by
  refine ⟨fun s m hl hb => ?badFrame, fun s m hl hb => ?goodFrame, fun s tag hl => ?silence, fun s t es hl => ?scrub,
    fun s t f us hl => ?march, fun s f h => destructiveResult_mem h s, fun s m us hl => ?selfTest, fun s p hl => ?partition,
    fun s hl => ⟨fun busy reqs waiting => ?engines, fun no => ?enginesWait, ?noScan, ?scan, ?heartbeat, ?restart, ?noHeartbeat,
      ?noWatchdog, ?watchdog, ?restarted, ?notRestarted, ?drained, ?notDrained⟩⟩
  case badFrame =>
    exact ⟨runs_of (exec_result m s) hl (doResult_of_badFrame hb s), runs_of (exec_setPolicy m s) hl (doSetPolicy_of_badFrame hb s)⟩
  case goodFrame =>
    refine ⟨fun unasked => runs_of (exec_result m s) hl (doResult_of_none hb unasked), fun r asked => ?_,
      runs_of (exec_setPolicy m s) hl (doSetPolicy_of_good hb s)⟩
    have delivered := doResult_of_some hb asked
    refine ⟨fun st => ?_, fun st => ?_, fun st => ?_⟩ <;>
      exact runs_of (exec_result m s) hl (by rw [delivered, st]; rfl)
  case silence =>
    exact ⟨fun unasked => runs_of (exec_rotRequestTimeout tag s) hl (doRotTimeout_of_none unasked), fun r asked =>
      ⟨fun never => runs_of (exec_rotRequestTimeout tag s) hl (doRotTimeout_of_neverRepeated asked never),
        fun may second => runs_of (exec_rotRequestTimeout tag s) hl (doRotTimeout_of_repeated asked may second),
        fun may first => runs_of (exec_rotRequestTimeout tag s) hl (doRotTimeout_of_first asked may first)⟩⟩
  case scrub =>
    refine ⟨fun no => runs_of (exec_scrubRow es s) hl (doScrubRow_of_not no es), fun active free ht => ?_⟩
    have scrubbed := doScrubRow_of_active active free ht
    exact ⟨fun more => runs_of (exec_scrubRow es s) hl (by rw [scrubbed]; simp [Nat.not_le.mpr more]),
      fun last => runs_of (exec_scrubRow es s) hl (by rw [scrubbed]; simp [last])⟩
  case march =>
    exact ⟨fun idle => runs_of (exec_marchComplete f us s) hl (doMarchComplete_of_idle idle f us),
      fun busy ht => runs_of (exec_marchComplete f us s) hl (doMarchComplete_of_busy busy ht us)⟩
  case selfTest =>
    exact ⟨fun idle => runs_of (exec_selfTestComplete m us s) hl (if_neg (by simp [idle])),
      fun busy => runs_of (exec_selfTestComplete m us s) hl (if_pos busy)⟩
  case partition =>
    exact ⟨fun resetting free drained => runs_of (exec_partitionResetDrained p s) hl (doPartDrained_of_drained resetting free drained),
      fun no => runs_of (exec_partitionResetDrained p s) hl (doPartDrained_of_not no)⟩
  case engines => exact runs_of (exec_engineResetMemoryDrained s) hl (doEngineDrained_of_drained busy reqs waiting)
  case enginesWait => exact runs_of (exec_engineResetMemoryDrained s) hl (doEngineDrained_of_not no)
  case noScan => exact fun off => runs_of (exec_hangScan s) hl (doHangScan_of_off off)
  case scan => exact fun bs cs on hb hc => runs_of (exec_hangScan s) hl (doHangScan_of_on on hb hc)
  case heartbeat => exact fun t up free read => runs_of (exec_heartbeat s) hl (doHeartbeat_of_good up free read)
  case restart => exact fun t up free read => runs_of (exec_heartbeat s) hl (doHeartbeat_of_error up free read)
  case noHeartbeat => exact fun no => runs_of (exec_heartbeat s) hl (doHeartbeat_of_not no)
  case noWatchdog => exact fun down => runs_of (exec_watchdogFire s) hl (doWatchdog_of_down down)
  case watchdog =>
    intro t up free ht
    have fired := doWatchdog_of_up up free ht
    exact ⟨fun few => runs_of (exec_watchdogFire s) hl (fired.trans (if_neg (Nat.not_le.mpr few))),
      fun third => runs_of (exec_watchdogFire s) hl (fired.trans (if_pos third))⟩
  case restarted => exact fun restarting => runs_of (exec_stewardRestartComplete s) hl (if_pos restarting)
  case notRestarted => exact fun up => runs_of (exec_stewardRestartComplete s) hl (if_neg (by simp [up]))
  case drained =>
    exact fun under trackers runs => runs_of (exec_drainComplete s) hl
      (doDrainComplete_of_done under ((drainDone_iff s).mpr ⟨trackers, runs⟩))
  case notDrained =>
    refine fun no => runs_of (exec_drainComplete s) hl (doDrainComplete_of_not (no.imp_right fun waits => ?_))
    rw [Bool.eq_false_iff, ne_eq, drainDone_iff]
    rintro ⟨trackers, runs⟩
    rcases waits with h | h
    · exact h trackers
    · rw [runs] at h; cases h

end Sys2Proof.Machine

end
